-- ==== Sys2Proof/Word.lean ====
section
/-!
DEFINITION. The word types, and the finite map that holds every table, register file and memory of the model:
a list of key and value pairs with strictly rising keys.
-/

namespace Sys2Proof

/-- A byte. -/
abbrev Byte := BitVec 8

/-- A 32-bit register (R7). -/
abbrev Word := BitVec 32

/-- A finite map with natural number keys: a list of pairs whose keys rise strictly. -/
abbrev KMap (α : Type) := List (Nat × α)

end Sys2Proof
end

