-- ==== Sys2Proof/Syntax.lean ====
section
/-!
DEFINITION. The commands the block takes: one constructor for every row of spec/opcode_table.json, and the operands they carry.
-/

namespace Sys2Proof

/-- The two PCIe functions (R32). -/
inductive Fn where
  | pf0
  | pf1
  deriving DecidableEq, Repr

/-- Who writes a register: a function's host, or the Steward firmware (R41). -/
inductive Requester where
  | pf0
  | pf1
  | steward
  deriving DecidableEq, Repr

/-- A handshake pending into an island: the page of the sending unit, and whether it carries a fabric request or an
internal operation, with a number that names it (R16, R17). -/
structure Handshake where
  sender : Nat
  fabric : Bool
  tag : Nat
  deriving DecidableEq, Repr

/-- An admin command as its submission queue entry carries it, with the function and queue it came from and the
bytes of its data buffer (table "Submission queue entry"); xferOk says that the transfer of the buffer over PCIe succeeds. -/
structure AdminCmd where
  fn : Fn
  sq : Nat
  cid : Nat
  flags : Nat
  target : Nat
  dataAddr : Nat
  dataLen : Nat
  p0 : Nat
  p1 : Nat
  p2 : Nat
  p3 : Nat
  p4 : Nat
  p5 : Nat
  p6 : Nat
  p7 : Nat
  p8 : Nat
  p9 : Nat
  data : List Byte
  xferOk : Bool
  deriving DecidableEq, Repr

/-- A frame arriving on a fabric port, with the fields the checks of R86 to R90 read: addresses are 128-bit, an IPv4 address as
::ffff:a.b.c.d; payload is the UDP payload. -/
structure Frame where
  port : Nat
  fcsOk : Bool
  vlan : Option Nat
  tags : Nat
  v6 : Bool
  headerOk : Bool
  fragment : Bool
  srcIp : Nat
  dstIp : Nat
  udpSrc : Nat
  udpDst : Nat
  udpSumZero : Bool
  udpSumOk : Bool
  ecn : Nat
  payload : List Byte
  deriving DecidableEq, Repr

/-- What a sample record takes from the instant it closes at (R474, R476): of a request, its number among the arrivals, outcome, syndrome, the flags of bits 7:2
the Transport Core notes, DPA and latencies in ns; of an instruction, its address, word, flags, core and latency in cycles. -/
inductive SampleInfo where
  | request (arrival outcome syndrome flags dpa ingress memory mirror tail : Nat)
  | instruction (pc insn flags core latency : Nat)
  deriving DecidableEq, Repr

/-- Kinds of frame that go to the exception path (R88). -/
inductive ExceptionKind where
  | arp
  | nd
  | echo4
  | echo6
  deriving DecidableEq, Repr

/-- Who reads a Loft line: a reader of the data, the Gleaner, the scan engine (R304, R324, R325). -/
inductive LineReader where
  | demand
  | gleaner
  | scan
  deriving DecidableEq, Repr

/-- Where a parity error occurs (R321): in the payload of the WRITE packet with a number among the arrivals; on the way of a piece of a read message (queue pair, MSN, RESEND, offset in the
message), for the first or a second time; in an address or control field of an operation. -/
inductive ParityPath where
  | write (arrival : Nat)
  | read (qpn msn : Nat) (resend : Bool) (off : Nat) (again : Bool)
  | control (h : Handshake)
  deriving DecidableEq, Repr

/-- A MIRROR_DATA segment (table "MIRROR_DATA segment"). -/
structure Segment where
  dpa : Nat
  newPage : Bool
  tenant : Nat
  poison : Nat
  check : Word
  data : List Byte
  deriving DecidableEq, Repr

/-- A MIRROR_META record (table "MIRROR_META records"). The window and object records carry their table entries' fields in order. -/
inductive MetaRecord where
  | window (idx : Nat) (valid revoking write read pinSet : Bool) (gen tenant object firstPage sizePages pinFirst pinCount : Nat)
  | object (id : Nat) (valid readOnly gather destroying : Bool) (homeSide owner sizePages pageList aliasCount : Nat) (single : Bool)
  | pageList (dpa entry : Nat)
  | mapState (page state : Nat)
  | harvested (page mseq : Nat)
  | role (first last side : Nat)
  | extentBegin (n : Nat)
  | extentEnd (n : Nat)
  deriving DecidableEq, Repr

/-- The body of a twin frame (table "Twin frame types"), in plaintext. -/
inductive TwinBody where
  | mirrorData (segs : List Segment)
  | mirrorMeta (recs : List MetaRecord)
  | mack (applied rxSeq bitmap trigSeq trigTx : Nat) (grants : List Nat)
  | lease (id status : Nat)
  | leaseGrant (id status term : Nat)
  | notice (code status : Nat)
  | readReq (id dpa len after purpose : Nat)
  | readData (id dpa poison : Nat) (data : List Byte)
  | log (loft cellar : List Nat) (last : Bool)
  | auditReq (page id : Nat)
  | auditDigest (id : Nat) (digest : List Byte) (poison : Nat)
  | hello (state : Nat) (imageHeld logValid : Bool) (serial : Nat)
  deriving DecidableEq, Repr

/-- A twin frame: its header fields and its body (table "Twin header"). -/
structure TwinFrame where
  port : Nat
  side : Nat
  epoch : Nat
  mseq : Nat
  txCount : Nat
  body : TwinBody
  deriving DecidableEq, Repr

/-- Where a Steward core's output goes (R357). -/
inductive OutputKind where
  | sramWrite
  | pageAccess
  | larder
  | attic
  | dma
  deriving DecidableEq, Repr

/-- The commands. -/
inductive Instr where
  /-- DIE_LINK_FLIT (R11): A flit arrives on a die link, its 16-bit CRC is checked and a failing flit is retried. -/
  | dieLinkFlit (die : Nat) (crcOk : Bool)
  /-- ISLAND_RESET_ENTER (R17): An island enters reset, and every handshake pending into it completes at once with an abort marker. -/
  | islandResetEnter (k : Nat) (waiting : List Handshake)
  /-- ISLAND_FREQ_CHANGE_DONE (R16): An island's clock gate after a frequency change ends, and held handshakes complete. -/
  | islandFreqChangeDone (k : Nat) (held : List Handshake)
  /-- FREQ_REQ_WRITE (R402): A write of an island's FREQ_REQ requests a new frequency, which takes effect after any voltage offset raise. -/
  | freqReqWrite (req : Requester) (k mhz : Nat)
  /-- PG_CTRL_ENABLE (R37): A write setting or clearing ENABLE requests that a page leave OFF. -/
  | pgCtrlEnable (req : Requester) (page : Nat) (on : Bool)
  /-- ENABLE_CONDITIONS_MET (R37): A page in OFF with ENABLE set enters STARTING once its island runs and its parent allows it. -/
  | enableConditionsMet (page : Nat)
  /-- PG_CTRL_DRAIN (R22): A write setting DRAIN moves a page in SERVICE to DRAINING and starts its drain timeout. -/
  | pgCtrlDrain (req : Requester) (page : Nat) (on : Bool)
  /-- PG_CTRL_DRILL (R22): A write of DRILL selects draining into DRILL, or leaves DRILL through a block reset when cleared. -/
  | pgCtrlDrill (req : Requester) (page : Nat) (on : Bool)
  /-- RESET_REQ (R22): A write of PG_CTRL.RESET_REQ requests a reset at the page's level. -/
  | resetReq (req : Requester) (page : Nat)
  /-- BYPASS_REQ (R22): A write of BYPASS_REQ on a region page asks for a runtime BYPASS, which is taken, refused or held. -/
  | bypassReq (req : Requester) (region : Nat)
  /-- BYPASS_END (R26): A write of BYPASS_END ends a runtime BYPASS and the region returns to SERVICE. -/
  | bypassEnd (req : Requester) (region : Nat)
  /-- BYPASS_LIMIT_EXPIRE (R26): BYPASS_LIMIT elapses and the runtime BYPASS ends. -/
  | bypassLimitExpire (region : Nat)
  /-- BYPASS_OP_DONE (R22): The operation of a BYPASS completes, the region returns to SERVICE and writes its queued data to the Loft. -/
  | bypassOpDone (region : Nat) (ok : Bool)
  /-- START_UP_DONE (R22): A page's self-test and configuration end, and it enters SERVICE or FAILED. -/
  | startUpDone (page : Nat) (passed : Bool)
  /-- DRAIN_DONE (R22): A draining page's work in flight reaches zero, and the page enters DRILL or OFF. -/
  | drainDone (page : Nat)
  /-- DRAIN_TIMEOUT (R22): The drain timeout expires once per entry into DRAINING and raises DRAIN_TIMEOUT. -/
  | drainTimeout (page : Nat)
  /-- PAGE_BIST_DONE (R23): A commanded BIST of a FENCED or FAILED page ends, and the page enters OFF as a cold spare or stays FAILED. -/
  | pageBistDone (page : Nat) (passed : Bool)
  /-- FUNCTION_LEVEL_RESET (R34): A function-level reset deletes that function's queues, releases its locks, masks its vectors and resets its aperture. -/
  | functionLevelReset (fn : Fn)
  /-- PERST_N (R404): PERST_N of a link resets that link's function state as a function-level reset does. -/
  | perstN (link : Nat)
  /-- TRST_N (R404): JTAG TRST_N resets the test access port only. -/
  | trstN
  /-- BAR0_NARROW_ACCESS (R7): A narrower or unaligned access to BAR0 reads all ones and ignores its write data. -/
  | bar0NarrowAccess (fn : Fn) (offset width : Nat) (write : Bool)
  /-- REGISTER_WRITE (R9): A write to a register without behaviour of its own updates it, or is ignored when reserved, locked or out of range. -/
  | registerWrite (req : Requester) (bar addr : Nat) (data : Word)
  /-- EVENT_FIRE (R38): An event source fires at its detector: EV_STATUS, EV_FIRST and EV_COUNT record it and, if enabled, it is routed to the Fault Collector. -/
  | eventFire (page : Nat) (sources : Word)
  /-- EV_STATUS_WRITE (R38): A write-1-to-clear of EV_STATUS clears bits, with a simultaneous hardware set winning. -/
  | evStatusWrite (req : Requester) (page : Nat) (data firing : Word)
  /-- EV_FIRST_WRITE (R38): Clearing EV_FIRST.VALID re-arms capture of the first source. -/
  | evFirstWrite (req : Requester) (page : Nat) (data : Word)
  /-- EV_INJECT_WRITE (R39): A write of EV_INJECT fires the granted sources of a page in DRILL; otherwise INJECT_REFUSED increments. -/
  | evInjectWrite (req : Requester) (page : Nat) (data : Word)
  /-- PG_LOCK_WRITE (R41): A write of PG_LOCK.HOLD takes or releases a page lock. -/
  | pgLockWrite (req : Requester) (page : Nat) (hold : Bool)
  /-- RESULT_ACK_WRITE (R43): A write to a result ACK register consumes the published result or increments ACK_MISMATCH. -/
  | resultAckWrite (req : Requester) (page off : Nat) (data : Word)
  /-- AQ_ENABLE_SET (R494): Setting AQ_ENABLE checks queue pair 0's registers and starts it, or halts it. -/
  | aqEnableSet (fn : Fn) (data : Word)
  /-- AQ_ENABLE_CLEAR (R493): Clearing AQ_ENABLE stops queue pair 0 at once and discards the CQEs of started commands. -/
  | aqEnableClear (fn : Fn) (data : Word)
  /-- SQ_TAIL_DOORBELL (R48): A write to SQ_TAIL advances a submission queue's tail, or halts the queue pair for an invalid value. -/
  | sqTailDoorbell (fn : Fn) (q : Nat) (data : Word)
  /-- CQ_HEAD_DOORBELL (R46): A write to CQ_HEAD frees completion queue entries and releases held completions. -/
  | cqHeadDoorbell (fn : Fn) (q : Nat) (data : Word)
  /-- SQE_FETCH (R47): The device fetches an SQE from a running queue pair whose CQ has room and starts the command in order. -/
  | sqeFetch (fn : Fn) (q : Nat) (op : Nat) (c : AdminCmd)
  /-- CQE_POST (R45): A held completion is written to its CQ with the current phase once there is room, followed by its MSI-X message. -/
  | cqePost (fn : Fn) (q : Nat)
  /-- CQ_STALL (R46): A CQ that stays full for 1 s raises CQ_STALL. -/
  | cqStall (fn : Fn) (q : Nat)
  /-- APERTURE_BASE_WRITE (R53): A write of APERTURE_BASE moves the BAR2 window, or is refused with APERTURE_INVALID. -/
  | apertureBaseWrite (fn : Fn) (high : Bool) (data : Word)
  /-- BAR2_READ (R53): A read through BAR2 returns decrypted, checked Loft data, or EP with zero data for a poisoned line. -/
  | bar2Read (fn : Fn) (addr len : Nat)
  /-- BAR2_WRITE (R54): A write through BAR2 is placed, mirrored and charged if it falls in an unbound page-list area, and refused otherwise. -/
  | bar2Write (fn : Fn) (addr : Nat) (data : List Byte)
  /-- NOP (R47): The NOP command completes with SUCCESS. -/
  | nop (c : AdminCmd)
  /-- INVALID_OPCODE (R51): A command with an unlisted opcode completes with INVALID_OPCODE. -/
  | invalidOpcode (op : Nat) (c : AdminCmd)
  /-- CREATE_QP (R44): CREATE_QP creates an admin queue pair with its bases, sizes, vector and coalescing. -/
  | createQp (c : AdminCmd)
  /-- DELETE_QP (R44): DELETE_QP deletes an admin queue pair and aborts its unstarted commands. -/
  | deleteQp (c : AdminCmd)
  /-- ABORT (R496): ABORT removes a named command of the issuing function if it has not started. -/
  | abort (c : AdminCmd)
  /-- GET_CHALLENGE (R50): GET_CHALLENGE returns a single-use 8-byte challenge valid for 10 s. -/
  | getChallenge (c : AdminCmd)
  /-- IDENTIFY (R490): IDENTIFY writes identity, bin, capacities and map revisions to the buffer. -/
  | identify (c : AdminCmd)
  /-- SET_VECTOR (R52): SET_VECTOR routes a page's events to an MSI-X vector of the function. -/
  | setVector (c : AdminCmd)
  /-- RUN_BIST (R23): RUN_BIST starts a BIST of a FENCED or FAILED page. -/
  | runBist (c : AdminCmd)
  /-- CLEAR_COUNTS (R38): CLEAR_COUNTS clears EV_COUNT and the named block counters of a page. -/
  | clearCounts (c : AdminCmd)
  /-- LOCK_BREAK (R41): LOCK_BREAK releases PG_LOCK of the target page. -/
  | lockBreak (c : AdminCmd)
  /-- DRILL_AUTH (R440): DRILL_AUTH grants injection of the named sources on a page in DRILL. -/
  | drillAuth (c : AdminCmd)
  /-- JOURNAL_READ (R364): JOURNAL_READ writes the newest command journal entries to the buffer. -/
  | journalRead (c : AdminCmd)
  /-- RESET_LEVEL (R406): RESET of TYPE 0 resets the target page at its level, or resets the chip for the package or hub die page. -/
  | resetLevel (c : AdminCmd)
  /-- RESET_POWER_CYCLE (R406): RESET of TYPE 1 flushes, powers down and powers up again after the off time. -/
  | resetPowerCycle (c : AdminCmd)
  /-- RESET_POWER_DOWN (R406): RESET of TYPE 2 flushes and powers down until the detector trips and recovers, SEQ_IN rises or a cold start occurs. -/
  | resetPowerDown (c : AdminCmd)
  /-- TENANT_CREATE (R59): TENANT_CREATE creates a tenant with a quota and a fresh STORAGE key slot. -/
  | tenantCreate (c : AdminCmd)
  /-- TENANT_ERASE (R344): TENANT_ERASE closes the tenant's QPs, revokes its windows, destroys its objects and zeroises its keys. -/
  | tenantErase (c : AdminCmd)
  /-- WINDOW_CREATE (R64): WINDOW_CREATE binds a page list as a private object with a single window and returns its handle. -/
  | windowCreate (c : AdminCmd)
  /-- OBJECT_CREATE (R64): OBJECT_CREATE binds a page list as an object without a window. -/
  | objectCreate (c : AdminCmd)
  /-- OBJECT_ALIAS (R60): OBJECT_ALIAS binds a further window to an object. -/
  | objectAlias (c : AdminCmd)
  /-- WINDOW_REVOKE (R74): WINDOW_REVOKE sets REVOKING and starts the revocation fence of a window. -/
  | windowRevoke (c : AdminCmd)
  /-- WINDOW_REVOKE_OBJECT (R76): WINDOW_REVOKE with the OBJECT bit revokes every alias window of an object and destroys it. -/
  | windowRevokeObject (c : AdminCmd)
  /-- REVOKE_FENCE_DRAINED (R74): A revocation's fence drains, the descriptor is invalidated and the CQE is posted. -/
  | revokeFenceDrained (idx : Nat)
  /-- REVOKE_LATE (R74): A revocation's fence has not drained 8 µs after t0, and REVOKE_LATE fires. -/
  | revokeLate (idx : Nat)
  /-- WINDOW_MODIFY (R78): WINDOW_MODIFY changes a window's rights or size, fencing any access it withdraws. -/
  | windowModify (c : AdminCmd)
  /-- HINT_PRELOAD (R69): WINDOW_HINT PRELOAD installs a descriptor in the window cache. -/
  | hintPreload (c : AdminCmd)
  /-- HINT_LOCK (R69): WINDOW_HINT LOCK locks an installed window-cache entry. -/
  | hintLock (c : AdminCmd)
  /-- HINT_UNLOCK (R69): WINDOW_HINT UNLOCK clears the lock mark of a window-cache entry. -/
  | hintUnlock (c : AdminCmd)
  /-- HINT_PIN_UP (R79): WINDOW_HINT PIN_UP records a window's pin-up range. -/
  | hintPinUp (c : AdminCmd)
  /-- HINT_PIN_CLEAR (R79): WINDOW_HINT PIN_CLEAR clears a window's pin-up range. -/
  | hintPinClear (c : AdminCmd)
  /-- HINT_READAHEAD (R263): WINDOW_HINT READAHEAD stages a range of Cellar-backed window pages. -/
  | hintReadahead (c : AdminCmd)
  /-- CACHE_INVALIDATE (R72): CACHE_INVALIDATE invalidates ranges of the window or translation cache in the selected mode. -/
  | cacheInvalidate (c : AdminCmd)
  /-- WINDOW_CACHE_FILL_DONE (R71): A window-cache or PRELOAD fill completes and is installed, or is discarded and reissued as stale. -/
  | windowCacheFillDone (idx : Nat)
  /-- TRANSLATION_FILL_DONE (R71): A translation-cache fill completes and is installed, or is discarded as stale and looked up again. -/
  | translationFillDone (object page : Nat)
  /-- MIGRATE_PROMOTE (R82): MIGRATE with direction 1 moves object pages from the Cellar to the Loft. -/
  | migratePromote (c : AdminCmd)
  /-- MIGRATE_DEMOTE (R82): MIGRATE with direction 2 moves object pages from the Loft to the Cellar. -/
  | migrateDemote (c : AdminCmd)
  /-- MIGRATE_COPY_ROUND_DONE (R82): A migration copy pass or recopy round ends, and the next round, the stall or the switch begins. -/
  | migrateCopyRoundDone (op : Nat)
  /-- MIGRATE_SWITCH_CONFIRMED (R82): The mirror confirms a page switch, the stall is released and the source is freed. -/
  | migrateSwitchConfirmed (op : Nat)
  /-- MIGRATE_STALL_LIMIT (R83): A write stall reaches 2 µs without mirror confirmation, and the page is abandoned at its source. -/
  | migrateStallLimit (op : Nat)
  /-- MOVER_ZERO_FILL_DONE (R66): The Mover finishes zero-filling a released Loft page, and the page becomes FREE. -/
  | moverZeroFillDone (page : Nat)
  /-- QP_CREATE (R110): QP_CREATE checks and writes a fabric queue pair context in INIT or READY. -/
  | qpCreate (c : AdminCmd)
  /-- QP_MODIFY_READY (R111): QP_MODIFY READY moves a QP from INIT to READY. -/
  | qpModifyReady (c : AdminCmd)
  /-- QP_MODIFY_ERROR (R111): QP_MODIFY ERROR moves a QP to ERROR with FAIL_MSN equal to CMSN + 1. -/
  | qpModifyError (c : AdminCmd)
  /-- QP_MODIFY_RESET (R111): QP_MODIFY RESET returns a QP in ERROR with no open messages to INIT with new sequence numbers. -/
  | qpModifyReset (c : AdminCmd)
  /-- QP_MODIFY_PATHS (R113): QP_MODIFY PATHS sets RESP_PLANES and RESP_ENTROPY_BASE. -/
  | qpModifyPaths (c : AdminCmd)
  /-- QP_MODIFY_KEYSEL (R113): QP_MODIFY KEYSEL sets TX_KEY_SEL. -/
  | qpModifyKeysel (c : AdminCmd)
  /-- QP_MODIFY_SYNC (R113): QP_MODIFY SYNC writes the cached context back to the Loft. -/
  | qpModifySync (c : AdminCmd)
  /-- QP_MODIFY_ACKS (R113): QP_MODIFY ACKS sets ACK_DELAY and ACK_EVERY. -/
  | qpModifyAcks (c : AdminCmd)
  /-- QP_DESTROY (R114): QP_DESTROY moves a QP through CLOSING to FREE within 10 µs. -/
  | qpDestroy (c : AdminCmd)
  /-- PEER_SET (R119): PEER_SET writes a peer entry and resets every enabled plane to UP with fresh rate state. -/
  | peerSet (c : AdminCmd)
  /-- PLANE_CONTROL_OUT (R141): PLANE_CONTROL with PARAM0 = 1 starts taking a plane out of service. -/
  | planeControlOut (c : AdminCmd)
  /-- PLANE_DRAIN_EXPIRE (R141): A plane's drain time ends, its port is disabled and the command completes. -/
  | planeDrainExpire (plane : Nat)
  /-- PLANE_CONTROL_IN (R141): PLANE_CONTROL with PARAM0 = 2 trains the port and returns the plane to service. -/
  | planeControlIn (c : AdminCmd)
  /-- TENANT_SHARE (R153): TENANT_SHARE sets a tenant's weight and cap. -/
  | tenantShare (c : AdminCmd)
  /-- POLICY_SET (R199): POLICY_SET selects STRICT or TWIN_COVERED and saves the policy. -/
  | policySet (c : AdminCmd)
  /-- POWER_CAP_SET (R202): POWER_CAP_SET sets the running-power cap. -/
  | powerCapSet (c : AdminCmd)
  /-- ROLE_SWAP (R239): ROLE_SWAP starts refusing new writes to a window range so that its home can move to the twin. -/
  | roleSwap (c : AdminCmd)
  /-- ROLE_SWAP_DRAINED (R239): The trackers of a swapping range end, the home sequences a ROLE record and the map changes. -/
  | roleSwapDrained
  /-- RESYNC_START (R235): RESYNC_START on the survivor starts resynchronising the joiner. -/
  | resyncStart (c : AdminCmd)
  /-- RESYNC_COMPLETE (R235): The last EXTENT_END is applied, both appliances enter PAIRED and the command completes. -/
  | resyncComplete
  /-- AUDIT_START (R240): AUDIT_START compares digests of pages between home and mirror, repairing them if asked. -/
  | auditStart (c : AdminCmd)
  /-- KEY_IMPORT_WRAPPED (R332): KEY_IMPORT_WRAPPED unwraps an RFC 3394 key into an EMPTY slot. -/
  | keyImportWrapped (c : AdminCmd)
  /-- KEY_IMPORT_ECDH (R333): KEY_IMPORT_ECDH derives a KEK by ECDH P-384 and unwraps a key into the target slot. -/
  | keyImportEcdh (c : AdminCmd)
  /-- KEY_REWRITE (R340): KEY_REWRITE loads a new key into the shadow of an ACTIVE slot. -/
  | keyRewrite (c : AdminCmd)
  /-- KEY_REWRITE_NEW_STORAGE (R341): KEY_REWRITE with NEW_STORAGE allocates a new current STORAGE slot for the tenant. -/
  | keyRewriteNewStorage (c : AdminCmd)
  /-- REWRITE_SWITCH (R340): The in-flight count of pre-rewrite requests reaches 0, and the shadow becomes the key with a fresh salt. -/
  | rewriteSwitch (slot : Nat)
  /-- KEY_ZEROISE (R342): KEY_ZEROISE clears a slot at once and ends its in-flight requests with KEY_LOST. -/
  | keyZeroise (c : AdminCmd)
  /-- STREAM_OPEN (R352): STREAM_OPEN starts opening a large sealed image into an object's Loft pages. -/
  | streamOpen (c : AdminCmd)
  /-- STREAM_SEG_DONE (R354): A stream's 16 KiB segment unit ends, and the final one verifies the tag or poisons the range. -/
  | streamSegDone (op : Nat) (ciphertext : List Byte) (xferOk : Bool)
  /-- FW_STAGE (R373): FW_STAGE writes a chunk of a signed image into the inactive bank and verifies it on the last chunk. -/
  | fwStage (c : AdminCmd)
  /-- FW_ACTIVATE_NEXT_RESET (R374): FW_ACTIVATE with PARAM0 = 1 makes the staged bank active from the next chip reset. -/
  | fwActivateNextReset (c : AdminCmd)
  /-- FW_ACTIVATE_LIVE (R376): FW_ACTIVATE with PARAM0 = 0 starts a live activation through the spare core. -/
  | fwActivateLive (c : AdminCmd)
  /-- LIVE_ACTIVATION_STEP_DONE (R376): A step of a live activation ends, leading to the next step, the commit or a rollback. -/
  | liveActivationStepDone (step : Nat) (ok : Bool) (data : List (Nat × Byte))
  /-- PROBATION_END (R378): 60 s after commit the new firmware leaves probation. -/
  | probationEnd
  /-- CORE_SWAP (R369): CORE_SWAP replaces a LEAD or SHADOW core with the spare and retires its epoch. -/
  | coreSwap (c : AdminCmd)
  /-- CONFIG_READ (R388): CONFIG_READ returns the current copy of a configuration record. -/
  | configRead (c : AdminCmd)
  /-- CONFIG_WRITE (R388): CONFIG_WRITE writes an installer configuration record. -/
  | configWrite (c : AdminCmd)
  /-- TALLY_RING_SET (R463): TALLY_RING_SET sets or disables a function's Tally ring and redelivers unconsumed records. -/
  | tallyRingSet (c : AdminCmd)
  /-- HISTORY_READ (R455): HISTORY_READ copies History records, and optionally open snapshots, to the buffer. -/
  | historyRead (c : AdminCmd) (part : Nat)
  /-- HISTORY_CLEAR (R457): HISTORY_CLEAR writes a CLEAR record and discards every older record. -/
  | historyClear (c : AdminCmd)
  /-- SAMPLER_CONFIG_REQUEST (R472): SAMPLER_CONFIG with TARGET 0–7 configures a request sampler. -/
  | samplerConfigRequest (c : AdminCmd)
  /-- SAMPLER_CONFIG_INSTRUCTION (R476): SAMPLER_CONFIG with TARGET 8 configures the Steward instruction sampler. -/
  | samplerConfigInstruction (c : AdminCmd)
  /-- MARGIN_PLAN_READ (R423): MARGIN_PLAN_READ copies the margin plan and its newest change records. -/
  | marginPlanRead (c : AdminCmd)
  /-- AGEING_RUN (R424): AGEING_RUN runs one ageing measurement at once and re-plans its items. -/
  | ageingRun (c : AdminCmd)
  /-- PXT_WRITE_RX (R167): A WRITE packet arrives and passes the receive checks, classification and write admission, or is dropped or refused. -/
  | pxtWriteRx (f : Frame)
  /-- PXT_READ_RX (R135): A READ packet arrives and is checked, classified, admitted and acknowledged. -/
  | pxtReadRx (f : Frame)
  /-- MARK_ECHO_RX (R147): A MARK_ECHO arrives and its counts are added to the peer-plane echo inputs. -/
  | markEchoRx (f : Frame)
  /-- PROBE_RX (R99): A PROBE arrives and the device answers with a PROBE_REPLY on the same plane within 50 µs. -/
  | probeRx (f : Frame) (delay : Nat)
  /-- PROBE_REPLY_RX (R120): A PROBE_REPLY arrives and its peer-plane state is marked answered or UP. -/
  | probeReplyRx (f : Frame)
  /-- EXCEPTION_FRAME_RX (R88): An ARP, ND or echo frame is admitted to the Steward exception path or dropped by the rate limit. -/
  | exceptionFrameRx (kind : ExceptionKind) (f : Frame)
  /-- NON_PXT_FRAME_RX (R86): A frame that fails the PXT frame checks is dropped and counted in DROP_FRAME. -/
  | nonPxtFrameRx (f : Frame)
  /-- QPC_FETCH_DONE (R116): A QP context fetch completes and the packets waiting in the miss queue proceed. -/
  | qpcFetchDone (qpn : Nat)
  /-- MISSQ_WAIT_EXPIRE (R116): A packet has waited 20 µs in a miss queue because every way is held, and it is dropped. -/
  | missqWaitExpire (plane : Nat)
  /-- QPC_WRITEBACK_DONE (R117): A dirty context write-back completes and its way is reused or refetched. -/
  | qpcWritebackDone (qpn : Nat)
  /-- PACKET_PLACEMENT (R105): An admitted payload reaches its placement point after its tag verifies and its fold matches, and it is placed and forked to the mirror. -/
  | packetPlacement (qpn psn : Nat)
  /-- ACK_DELAY_EXPIRE (R128): ACK_DELAY passes since the first unacknowledged packet, and a coalesced ACK is sent. -/
  | ackDelayExpire (qpn : Nat)
  /-- TRACKER_TIMEOUT (R127): A message times out under TRACKER_TIMEOUT and fails, moving its QP to ERROR. -/
  | trackerTimeout (qpn msn : Nat)
  /-- READ_DATA_READY (R135): Data for a read returns from the Loft or the Cellar, and its READ_RESP packets are built and queued to a plane. -/
  | readDataReady (qpn msn : Nat) (resend : Bool)
  /-- READ_RESP_DEPART (R151): A READ_RESP departs when its buckets and the scheduler allow, taking the next response PSN. -/
  | readRespDepart (plane : Nat)
  /-- PROBE_IDLE_EXPIRE (R120): No packet from a peer has arrived on a plane for PROBE_IDLE, and a PROBE is sent. -/
  | probeIdleExpire (peer plane : Nat)
  /-- PROBE_TIMEOUT_EXPIRE (R120): A PROBE stays unanswered for PROBE_TIMEOUT, and it is repeated or the peer-plane goes DOWN. -/
  | probeTimeoutExpire (peer plane : Nat)
  /-- FABRIC_LINK_DOWN (R140): A fabric port's link goes down, its plane leaves service and its queue is discarded. -/
  | fabricLinkDown (plane : Nat)
  /-- FABRIC_LINK_UP (R140): A fabric port's link returns and its plane rejoins service. -/
  | fabricLinkUp (plane : Nat)
  /-- RATE_BATCH (R148): Every 8 µs the rate-control batch updates every active peer-plane state, or is abandoned. -/
  | rateBatch (done : Bool)
  /-- RATE_PROBE_WRITE (R158): A write of the rate probe register publishes one peer-plane's rate state. -/
  | rateProbeWrite (req : Requester) (data : Word)
  /-- HARVEST_PLAN (R174): Every 10 ms each region's harvest rate is planned, or the plan is abandoned. -/
  | harvestPlan (region : Nat) (done : Bool)
  /-- HARVEST_PROGRAM_DONE (R176): A harvest program completes with its sheaf sealed, and the page leaves the dirty set or stays REDIRTY. -/
  | harvestProgramDone (page : Nat) (ok : Bool)
  /-- GATHER_FILL_DONE (R180): The Mover completes filling a gather page, and waiting reads are served. -/
  | gatherFillDone (page : Nat) (ok : Bool)
  /-- WEAR_BUCKET_SAVE (R188): Each hour the wear-bucket level is saved in the Attic. -/
  | wearBucketSave
  /-- TENANT_DIRTY_PROBE (R191): A write of PROBE_TENANT publishes a tenant's dirty pages and hold state. -/
  | tenantDirtyProbe (req : Requester) (data : Word)
  /-- LEDGER_PERIOD (R195): Every 1 ms the Ledger computes B and the running-power step, or the period is abandoned. -/
  | ledgerPeriod (done : Bool) (mon adc vbus ibus pIn : Nat)
  /-- VBANK_OV (R193): A VBANK reading above 61 V stops the charger and raises VBANK_OV. -/
  | vbankOv (mon adc : Nat)
  /-- CHARGER_RESTART (R193): Both VBANK readings stay at or below 60 V for 1 s, and the charger restarts. -/
  | chargerRestart
  /-- SENSE_MISMATCH (R194): The two VBANK readings differ by more than 2 % for 10 ms. -/
  | senseMismatch
  /-- COUPLER_FAULT (R194): No measurement crosses the couplers for 500 µs, and the Ledger period is abandoned. -/
  | couplerFault
  /-- VBUS_OV (R217): VBUS stays above 60 V for 1 ms. -/
  | vbusOv
  /-- CHARGER_FAULT (R217): The charger fails to regulate for 100 ms. -/
  | chargerFault
  /-- POWER_LOSS (R203): The power-loss detector trips, starts ride-through, switches VINT to the bank and notifies the twin. -/
  | powerLoss
  /-- RIDE_RECOVERED (R203): VBUS recovers before t_RIDE expires, and the device returns to VBUS. -/
  | rideRecovered
  /-- RIDE_EXPIRE (R204): The ride-through timer expires and the power-loss flush starts. -/
  | rideExpire
  /-- FLUSH_DATA_END (R204): The last dirty page is written and FLUSH_CLOSE is programmed. -/
  | flushDataEnd
  /-- FLUSH_STOP (R206): A region's flush stops early at the stop voltage or at T_MAX. -/
  | flushStop (region pages cause : Nat)
  /-- MANAGED_POWER_DOWN (R204): 2 ms after the close, the sequencer starts the managed power-down. -/
  | managedPowerDown
  /-- VBUS_RETURN_COUNT_DONE (R211): The recovery count reaches 100 ms after the close, and the device performs a chip reset. -/
  | vbusReturnCountDone
  /-- VBUS_RETURN_WAIT_EXPIRE (R211): 1 s after the close without the count reaching 100 ms, the power-down proceeds. -/
  | vbusReturnWaitExpire
  /-- RESTORE_STEP_DONE (R212): A restore step ends and the steps that depend on it start. -/
  | restoreStepDone (n : Nat) (bad : List (Nat × Nat))
  /-- TWIN_WAIT_EXPIRE (R215): The twin has not answered within TWIN_WAIT, and the pages left behind are poisoned. -/
  | twinWaitExpire
  /-- REGION_RESTORE_READY (R213): A restoring region meets every condition and enters SERVICE. -/
  | regionRestoreReady (region : Nat)
  /-- IMAGE_RELEASE (R214): Every region reaches SERVICE, the IMAGE_RELEASED record is written and the image is released. -/
  | imageRelease
  /-- ZONE_ERASE_DONE (R214): A released flush-zone block finishes erasing and adds to zone_free_r. -/
  | zoneEraseDone (region mib : Nat)
  /-- LOFT_PAGE_LOAD_DONE (R216): A non-resident clean page finishes loading from its shadow. -/
  | loftPageLoadDone (page : Nat) (ok : Bool)
  /-- MIRROR_DATA_RX (R222): A MIRROR_DATA frame arrives, is ordered by MSEQ and applied with its check. -/
  | mirrorDataRx (f : TwinFrame)
  /-- MIRROR_META_RX (R222): A MIRROR_META frame arrives and its records are applied in order. -/
  | mirrorMetaRx (f : TwinFrame)
  /-- MACK_RX (R223): A MACK arrives and updates applied frames, losses and credits, advancing MIRRORED and completions. -/
  | mackRx (f : TwinFrame)
  /-- LEASE_RX (R228): A LEASE arrives and is answered with a LEASE_GRANT. -/
  | leaseRx (f : TwinFrame)
  /-- LEASE_GRANT_RX (R228): A LEASE_GRANT arrives and renews the lease, returning a SUSPECT appliance to PAIRED. -/
  | leaseGrantRx (f : TwinFrame)
  /-- NOTICE_RX (R229): A twin NOTICE arrives and the TWIN_COVERED conditions are re-evaluated, or SOLO is entered on a flush notice. -/
  | noticeRx (f : TwinFrame)
  /-- READ_REQ_RX (R238): A READ_REQ arrives and is answered with READ_DATA once AFTER_SEQ is applied. -/
  | readReqRx (f : TwinFrame)
  /-- READ_DATA_RX (R238): A READ_DATA arrives and serves the waiting read or recovery. -/
  | readDataRx (f : TwinFrame)
  /-- LOG_RX (R235): A LOG frame of dirty-page log extents arrives and is merged. -/
  | logRx (f : TwinFrame)
  /-- AUDIT_REQ_RX (R240): An AUDIT_REQ is applied and the mirror returns an AUDIT_DIGEST. -/
  | auditReqRx (f : TwinFrame)
  /-- AUDIT_DIGEST_RX (R240): An AUDIT_DIGEST arrives and is compared, publishing a record and repairing if asked. -/
  | auditDigestRx (f : TwinFrame)
  /-- HELLO_RX (R234): A HELLO arrives, epochs are compared and the pair state moves to JOINING or SOLO. -/
  | helloRx (f : TwinFrame)
  /-- TWIN_FRAME_DROP (R220): A twin frame with a bad format or tag is dropped without reply. -/
  | twinFrameDrop (port : Nat) (tagFailed : Bool)
  /-- MACK_SEND_TIMER (R223): Every 1 µs, or every 8 frames, the receiver sends a MACK on a port. -/
  | mackSendTimer (port : Nat)
  /-- TWIN_RTO_EXPIRE (R224): A twin frame's timer expires and it is resent on another port. -/
  | twinRtoExpire (mseq : Nat)
  /-- MIRROR_UNAPPLIED_LIMIT (R224): A frame stays unapplied for 50 ms, and the pair enters SUSPECT. -/
  | mirrorUnappliedLimit (mseq : Nat)
  /-- LEASE_SEND_TIMER (R228): Every 50 ms in PAIRED or SUSPECT a LEASE is sent on every port. -/
  | leaseSendTimer
  /-- LEASE_EXPIRE (R228): The lease ends without a verdict, and every WRITE and READ is refused with HOLD DETAIL 4. -/
  | leaseExpire
  /-- GRANT_MISSING_EXPIRE (R230): No LEASE_GRANT arrives for 100 ms, and the appliance enters SUSPECT with a witness request. -/
  | grantMissingExpire
  /-- HELLO_TIMEOUT (R234): No HELLO arrives for 1 s in INIT, and the appliance enters SUSPECT. -/
  | helloTimeout
  /-- WITNESS_VERDICT_WRITE (R230): A write of WITNESS_VERDICT gives SURVIVE or YIELD to the published request. -/
  | witnessVerdictWrite (req : Requester) (data : Word)
  /-- SOLO_ENTER (R234): With SURVIVE held, 200 ms after the last grant the appliance enters SOLO with epoch + 1. -/
  | soloEnter
  /-- TWIN_PORT_LINK_DOWN (R224): A twin port link goes down, its frames are lost and resent elsewhere. -/
  | twinPortLinkDown (port : Nat)
  /-- TWIN_PORT_LINK_UP (R225): A twin port link comes up and the sender uses it again. -/
  | twinPortLinkUp (port : Nat)
  /-- PORT_EN_WRITE (R225): A write of PORT_EN retires or returns twin ports. -/
  | portEnWrite (req : Requester) (data : Word)
  /-- READ_REQ_TIMEOUT (R238): A READ_REQ is unanswered for 1 ms and is resent once, or fails. -/
  | readReqTimeout (id : Nat)
  /-- NAND_READ_DONE (R256): A flash read or recovery step completes, and the ladder succeeds or moves to its next step. -/
  | nandReadDone (loc : Nat) (ok : Bool) (bits : Nat)
  /-- SHEAF_WAIT_EXPIRE (R251): A sheaf receives no page for SHEAF_WAIT and is padded and sealed. -/
  | sheafWaitExpire (region key : Nat)
  /-- RELOCATION_COPY_DONE (R253): A relocation copy completes, the map is rewritten and the victim band is erased. -/
  | relocationCopyDone (loc : Nat)
  /-- DAILY_WEAR_RELOCATION (R253): Once a day the least-worn band is chosen for relocation. -/
  | dailyWearRelocation (region : Nat)
  /-- PROGRAM_FAIL (R268): A NAND program fails and the block is retired. -/
  | programFail (channel lun block : Nat)
  /-- ERASE_FAIL (R268): A NAND erase fails and the block is retired. -/
  | eraseFail (channel lun block : Nat)
  /-- LUN_RETIRE_WRITE (R269): A write of LUN_RETIRE starts retiring a LUN. -/
  | lunRetireWrite (req : Requester) (channel : Nat) (data : Word)
  /-- LUN_FAULT (R269): A LUN fails to complete a command within 50 ms and is retired. -/
  | lunFault (channel lun : Nat)
  /-- LUN_RETIRED (R269): Relocation off a retiring LUN ends and the LUN is powered off. -/
  | lunRetired (channel lun : Nat)
  /-- STAGING_READ_DONE (R262): A readahead staging read completes and the page is staged or dropped. -/
  | stagingReadDone (page : Nat) (ok : Bool)
  /-- REFRESH_INTERVAL (R279): A refresh interval elapses for a rank, adding to its debt and scheduling refresh. -/
  | refreshInterval (channel rank : Nat) (demand : Bool)
  /-- ROW_ACTIVATION (R281): A row activation updates the bank's activation tracker. -/
  | rowActivation (channel sub rank group bank row tenant : Nat)
  /-- THROTTLE_END (R283): A tenant's row-hammer throttle time ends. -/
  | throttleEnd (region tenant : Nat)
  /-- BANK_IDLE_TIMER (R277): A bank's idle timer expires and its row is precharged. -/
  | bankIdleTimer (channel sub rank group bank : Nat)
  /-- RANK_PD_IDLE (R294): A rank idle for PD_IDLE enters precharge power-down. -/
  | rankPdIdle (channel rank : Nat)
  /-- DIMM_TEMP_POLL (R278): Every 16 ms the DIMM sensor is read, setting T and retrain due conditions. -/
  | dimmTempPoll (channel : Nat) (ok : Bool) (temp : Int)
  /-- SPD_FAULT (R278): The DIMM sensor cannot be read for 100 ms. -/
  | spdFault (channel : Nat)
  /-- RETRAIN_REQ_WRITE (R287): A write of RETRAIN_REQ makes every channel of the region due. -/
  | retrainReqWrite (req : Requester) (region : Nat) (data : Word)
  /-- RETRAIN_BYPASS_START (R287): A region with channels due enters BYPASS for retraining when no other region is in BYPASS. -/
  | retrainBypassStart (region : Nat)
  /-- TRAIN_STEP_DONE (R286): A training step ends and the next step begins. -/
  | trainStepDone (region : Nat)
  /-- TRAIN_VERIFY_DONE (R288): Verify ends: the working set is committed, the committed set kept, or the region fails. -/
  | trainVerifyDone (region working committed : Nat) (eyes : List (Nat × Nat))
  /-- RETRAIN_DEFERRED (R287): A retrain request queued for want of a healthy twin reaches 10 min, or another hour. -/
  | retrainDeferred (region : Nat)
  /-- SPEED_CHANGE_START (R293): The speed in force changes and the region starts a speed change in BYPASS. -/
  | speedChangeStart (region : Nat)
  /-- SPEED_CHANGE_DONE (R293): A speed change ends and SPEED_CHANGED fires. -/
  | speedChangeDone (region passed : Nat)
  /-- HARD_REPAIR_STEP_DONE (R291): The hard-repair step ends and the repaired rank is refreshed back to back. -/
  | hardRepairStepDone (region : Nat)
  /-- SOFT_REPAIR_DONE (R311): A soft repair of a row ends and its bank is unblocked. -/
  | softRepairDone (channel sub rank group bank row : Nat)
  /-- LOFT_LINE_DECODE (R301): A Loft line read is decoded as clean, corrected, poisoned or uncorrectable. -/
  | loftLineDecode (dpa : Nat) (errors : List (Nat × Byte)) (reader : LineReader)
  /-- LINE_RECOVERY_DONE (R307): A line recovery step ends, writing the recovered line or poisoning it. -/
  | lineRecoveryDone (dpa : Nat) (ok : Bool)
  /-- PAGE_RETIRE_DONE (R312): A retired page's copy switches to a spare page in the remap table. -/
  | pageRetireDone (page : Nat)
  /-- PARITY_ERROR (R321): A data-path parity error is handled by its path and raises DATAPATH_PARITY. -/
  | parityError (page : Nat) (path : ParityPath)
  /-- SCAN_START (R322): A write of SCAN_CTRL.START starts a check-value scan. -/
  | scanStart (req : Requester) (data : Word)
  /-- SCAN_ABORT (R322): A write of ABORT ends the scan at the next 64 B boundary. -/
  | scanAbort (req : Requester) (data : Word) (bytes : List Byte)
  /-- SCAN_DONE (R324): A scan ends, and its outcome and check value are published. -/
  | scanDone (bytes : List Byte) (ok : Bool)
  /-- GLEAN_SLICE (R326): Each 100 µs a glean slice reads its lines and pages, or is cut. -/
  | gleanSlice (region lines pages : Nat) (warns fails : List Nat) (cut : Bool)
  /-- GLEAN_PASS_END (R327): A Gleaner pass ends and its summary is built and published. -/
  | gleanPassEnd (region : Nat) (cellar : Bool)
  /-- LARDER_REQUEST (R346): A request descriptor reaches the Larder, its slot is checked and it is dispatched to an engine. -/
  | larderRequest (op prio slot client tag aadLen len salt counter dataRef : Nat)
  /-- SEAL_UNIT_DONE (R347): A seal engine finishes a unit, with compared results released or rerun on a mismatch. -/
  | sealUnitDone (engine : Nat) (matched tagOk : Bool)
  /-- HWM_RECORD_PROGRAMMED (R338): A nonce high-water mark record is programmed and waiting seals proceed. -/
  | hwmRecordProgrammed (slot : Nat)
  /-- DRBG_RESEED (R349): The DRBG reseeds after 2^20 requests or 1 s. -/
  | drbgReseed
  /-- HEALTH_TEST_FAIL (R350): An entropy health-test sample fails, raising class A, or class C after three in 1 s. -/
  | healthTestFail
  /-- DRBG_REINSTANTIATE (R350): After 10 s of passing tests the DRBG is instantiated again. -/
  | drbgReinstantiate
  /-- CLASS_D_SENSOR (R350): A K11 sensor goes out of range, and every volatile key in the Larder is erased. -/
  | classDSensor
  /-- KEY_RECORD_BLOCK_ERASE (R349): A key-record block holding a tombstone has its live records copied and is erased. -/
  | keyRecordBlockErase
  /-- SLOT_PROBE_WRITE (R356): A write of PROBE_SLOT publishes a slot's state without key material. -/
  | slotProbeWrite (req : Requester) (data : Word)
  /-- CHECKPOINT (R361): Every 10 ms or at a full replay log the Steward pair takes a checkpoint. -/
  | checkpoint (early : Bool)
  /-- MISCOMPARE (R366): The lockstep comparator finds differing outputs and stops both cores. -/
  | miscompare
  /-- CORE_BIST_DONE (R366): The 400 µs BIST of the stopped cores ends and the complex recovers, rejoins or goes unchecked. -/
  | coreBistDone (leadOk shadowOk : Bool)
  /-- SPARE_LOADED (R367): A spare is loaded with the checkpoint and the pair restarts. -/
  | spareLoaded (ok : Bool)
  /-- REPLAY_END (R363): Replay reaches the released output count and the CRC is compared. -/
  | replayEnd (matched : Bool)
  /-- FENCE_OUTPUT (R358): A core output reaches the fence and passes, or is dropped for a stale epoch. -/
  | fenceOutput (slot epoch : Nat) (kind : OutputKind) (addr : Nat) (data : List Byte) (inputs : Nat)
  /-- WDOG_WRITE (R368): A write of STW.WDOG restarts the watchdog. -/
  | wdogWrite (req : Requester)
  /-- STEWARD_WATCHDOG (R368): The watchdog expires and raises STEWARD_WATCHDOG. -/
  | stewardWatchdog
  /-- BOOT_ROM_START (R371): After power-on or chip reset the ROM verifies stage-1 and jumps into it. -/
  | bootRomStart (ok0 ok1 : Bool)
  /-- MAIN_IMAGE_START (R371): Stage-1 copies and verifies the main image and starts the pair, or falls back. -/
  | mainImageStart (okA okB recoveryOk : Bool) (bist version : Nat)
  /-- ATTIC_CMD_WRITE (R380): A write into the Attic window takes part in a command sequence. -/
  | atticCmdWrite (offset : Nat) (data : List Byte)
  /-- ATTIC_SEQ_TIMEOUT (R380): A command sequence not completed within 100 µs is void with SEQ_ERROR. -/
  | atticSeqTimeout
  /-- ATTIC_OP_DONE (R382): An Attic program or erase ends and the status byte shows READY. -/
  | atticOpDone (ok : Bool)
  /-- ATTIC_READ (R386): A wide Attic read delivers its data and corrected-bit count, or faults. -/
  | atticRead (offset len corrected : Nat)
  /-- ATTIC_RESET_DEFER_END (R383): A deferred reset of the Attic die proceeds once its program ends. -/
  | atticResetDeferEnd
  /-- XIP_FETCH (R387): An execute-in-place fetch is served from the buffer, branch cache or a page read. -/
  | xipFetch (offset : Nat) (taken : Bool)
  /-- COLD_START (R390): VAON falls below 2.7 V and everything in K17 returns to reset. -/
  | coldStart (casc : Bool) (waiting : List Handshake)
  /-- START_CONDITIONS_MET (R395): In state 0 the start conditions hold and the device releases SEQ_SYNC. -/
  | startConditionsMet
  /-- SEQ_SYNC_RISE (R394): A rising edge of SEQ_SYNC ends the current state and starts the next one's work. -/
  | seqSyncRise (bifur ftm : Bool)
  /-- SEQ_STEP_TIMEOUT (R394): The line stays low t_STEP in a state going up, and a fault is recognised. -/
  | seqStepTimeout
  /-- SEQ_DOWN_REQUEST (R394): A low of t_DNREQ in state 15 requests power-down. -/
  | seqDownRequest
  /-- PG_INPUT_LOW (R393): A low PG sample restarts the stability filter. -/
  | pgInputLow (rail : Nat)
  /-- PG_STABLE (R393): A PG input stays high for t_PGSTAB and the rail is stable. -/
  | pgStable (rail : Nat)
  /-- SEQ_IN_RISE (R395): SEQ_IN rises, enabling power-up in cascade or ending a lockout. -/
  | seqInRise
  /-- SEQ_IN_FALL (R396): SEQ_IN falls in state 15 and a managed power-down is requested. -/
  | seqInFall
  /-- RAIL_LOST (R400): A rail's PG reads low in state 15, raising RAIL_FAULT. -/
  | railLost (rail : Nat)
  /-- DISCHARGE_TIMEOUT (R397): A rail fails to discharge in time, and stepping continues. -/
  | dischargeTimeout (rail : Nat)
  /-- SEQ_STALL (R397): A foreign hold lasts t_STALL going down, and the device steps down alone. -/
  | seqStall
  /-- FAULT_HOLD_EXPIRE (R398): t_FAULT after a fault the device releases the line and power-down starts. -/
  | faultHoldExpire
  /-- FAULT_RETRY (R398): 1 s after a fault power-down the device retries, or is locked out. -/
  | faultRetry
  /-- CASC_DELAY_EXPIRE (R399): CASC_DELAY after state 15, SEQ_OUT goes high. -/
  | cascDelayExpire
  /-- CASC_DOWN_WAIT_EXPIRE (R399): CASC_DOWN_WAIT after SEQ_OUT falls, EN_CAGE may drop. -/
  | cascDownWaitExpire
  /-- REFCLK_LOSS (R403): A reference clock stops and the generators enter holdover. -/
  | refclkLoss (ref : Nat)
  /-- REFCLK_RETURN (R403): 1 ms after the reference returns, the generators leave holdover. -/
  | refclkReturn (ref : Nat)
  /-- ISLAND_UNLOCK (R403): A generator loses lock outside holdover and its island is reset. -/
  | islandUnlock (k : Nat)
  /-- CHIP_RESET (R405): A chip reset takes effect and runs its sequence to admission open. -/
  | chipReset
  /-- AGEING_WINDOW_OPEN (R409): The daily ageing window opens and measurements are attempted. -/
  | ageingWindowOpen
  /-- AGEING_RETRY_TIMER (R409): Every 30 min a measurement whose preconditions failed is tried again. -/
  | ageingRetryTimer
  /-- BANK_MEAS_DONE (R414): The bank discharge reaches BANK_DV and C, ESR, η and flush samples are derived. -/
  | bankMeasDone (drop step charge vint energy rehearsal : Nat) (times : List Nat)
  /-- BANK_MEAS_ABORT (R413): The bank measurement is abandoned on high fill, a trip or 60 s. -/
  | bankMeasAbort
  /-- RETRY_PROBE_DONE (R417): The NAND retry probe of a region completes. -/
  | retryProbeDone (region : Nat) (counts : List (List Nat)) (slow : Bool)
  /-- SENSE_PROBE_DONE (R419): The DRAM sense-margin probe of a channel completes. -/
  | senseProbeDone (channel margin : Nat)
  /-- AGEING_WINDOW_CLOSE (R410): The window closes, unfinished measurements are abandoned and the device re-plans. -/
  | ageingWindowClose
  /-- SLACK_MONITOR (R421): Every 1 s an island's worst slack is read and its offset may be raised. -/
  | slackMonitor (island : Nat) (slack : Int)
  /-- EYE_MEASURE (R420): Every 10 s a lane measures its eye and may start a retrain. -/
  | eyeMeasure (page lane height width : Nat)
  /-- LANE_RETRAIN_DONE (R420): A lane retrain ends and the lane returns or is retired. -/
  | laneRetrainDone (page lane height width : Nat)
  /-- FC_FIRING_ARRIVAL (R432): A routed firing reaches the Fault Collector and takes its first step or escalates. -/
  | fcFiringArrival
  /-- GRACE_EXPIRE (R432): A class's grace timer expires and its fallback is taken. -/
  | graceExpire (ty src : Nat)
  /-- CLASS_ACK_WRITE (R433): A write of CLASS_ACK acknowledges a class and makes it idle. -/
  | classAckWrite (req : Requester) (data : Word)
  /-- CLASS_CFG_WRITE (R443): A write of CLASS_CFG sets a class's handler, fallback and grace. -/
  | classCfgWrite (req : Requester) (data : Word)
  /-- FAULT_N_CLR_WRITE (R439): A write of FAULT_N_CLR clears the FC latch unless blocked. -/
  | faultNClrWrite (req : Requester) (data : Word)
  /-- FC_INJECT_WRITE (R441): A write of FC_INJECT synthesises a firing in factory test mode, or is refused. -/
  | fcInjectWrite (req : Requester) (data : Word)
  /-- RTC_SET_GO (R446): A write of RTC GO slews or steps the RTC to the set value. -/
  | rtcSetGo (req : Requester) (data : Word)
  /-- RTC_SLEW_DONE (R446): A slew has absorbed its difference and ends. -/
  | rtcSlewDone
  /-- RTC_NOW_LO_READ (R445): A read of NOW_LO latches NOW_HI. -/
  | rtcNowLoRead
  /-- SUMMARY_BOUNDARY (R449): A summary boundary swaps the accumulators and queues the SUMMARY group, closing the tail. -/
  | summaryBoundary (seconds : Nat)
  /-- HISTORY_PAGE_PROGRAM (R453): With eight records queued or 1 s after the first, the head page is programmed. -/
  | historyPageProgram
  /-- HISTORY_STATE_COPY (R454): Every 1 s the live accumulators are copied into the retained section. -/
  | historyStateCopy (junction slack : Int)
  /-- HISTORY_HEAD_SCAN_DONE (R454): After a cold start the scan of the ring finds the head and next RSEQ. -/
  | historyHeadScanDone
  /-- HISTORY_ERASE_DEFER_LIMIT (R456): An erase deferred for a HISTORY_READ reaches 100 ms and proceeds. -/
  | historyEraseDeferLimit
  /-- MINUTE_BOUNDARY (R459): A minute boundary freezes every Tally counter. -/
  | minuteBoundary (seconds : Nat)
  /-- TALLY_CLOSE_START (R459): 100 µs after the boundary the close writes one record per tenant, or is abandoned. -/
  | tallyCloseStart
  /-- TALLY_STAGING_COPY (R461): Every second the on-chip counters are written to staging. -/
  | tallyStagingCopy
  /-- TALLY_RING_DELIVERY (R463): Staged records are written to a function's ring when it has room, and vector 33 signals. -/
  | tallyRingDelivery (fn : Fn)
  /-- TALLY_RING_HEAD_WRITE (R463): A write of RING_HEAD consumes ring entries. -/
  | tallyRingHeadWrite (req : Requester) (data : Word)
  /-- TALLY_PROBE_WRITE (R464): A write of PROBE_TENANT publishes a tenant's counters. -/
  | tallyProbeWrite (req : Requester) (data : Word)
  /-- COUNTER_SELECT_WRITE (R467): A write of a counter's SELECT changes its event and clears it if the selection changes. -/
  | counterSelectWrite (req : Requester) (page n : Nat) (data : Word)
  /-- COUNTER_CLEAR_WRITE (R466): A write of CLEAR zeroes a counter and its OVERFLOW. -/
  | counterClearWrite (req : Requester) (page n : Nat) (data : Word)
  /-- COUNTER_OVERFLOW_CLEAR (R467): A write-1-to-clear of OVERFLOW clears the sticky flag. -/
  | counterOverflowClear (req : Requester) (page n : Nat) (data : Word)
  /-- COUNTER_VALUE_LO_READ (R466): A read of VALUE_LO latches VALUE_HI. -/
  | counterValueLoRead (page n : Nat)
  /-- SAMPLE_RECORD_CLOSE (R474): A sampled request reaches its closing point and its record enters the buffer. -/
  | sampleRecordClose (sampler : Nat) (info : SampleInfo)
  /-- SAMPLER_POP_READ (R475): A read of POP returns the record count and removes the head record. -/
  | samplerPopRead (sampler : Nat)
  /-- DETECTOR_RECOVERY (R211): The power-loss detector recovers (VBUS at 42 V or above for 10 µs) after ride-through has expired, starting the recovery count, setting VBUS_OK and sending a status NOTICE. -/
  | detectorRecovery
  /-- VBUS_DIP (R211): VBUS falls below 42 V without tripping the detector, and the recovery count restarts from zero. -/
  | vbusDip
  /-- RAIL_DISCHARGED (R394): A rail's sense pin reads below 10 % of nominal while stepping down, ending the device's work for that state so it releases SEQ_SYNC. -/
  | railDischarged (rail : Nat)
  /-- ISLAND_CLOCKS_LOCKED (R394): In state 13 going up, the references are present and every island generator of K00–K16 locks, so the device releases SEQ_SYNC. -/
  | islandClocksLocked
  /-- LANE_FAULT (R140): A lane fault drops a fabric or twin port to 400 Gb/s on two lanes, setting HALF_RATE while the port stays in service. -/
  | laneFault (port : Nat)
  /-- RTC_OSC_FAIL (R444): XTAL_RTC stops, the RTC continues from K17's oscillator with ON_OSC set, and RTC_OSC_FAIL is raised. -/
  | rtcOscFail
  /-- RETRAIN_PERIOD_EXPIRE (R287): RETRAIN_PERIOD passes since a channel's last committed training and the channel becomes due. -/
  | retrainPeriodExpire (channel : Nat)
  /-- GLEAN_POSITION_SAVE (R326): Each hour the Gleaner's Loft and Cellar positions are saved in the Attic. -/
  | gleanPositionSave (region : Nat)
  /-- ATTIC_RECORD_REWRITE (R386): Within 1 h of a read with EARLY_WARN, the Steward rewrites the Attic record to a fresh location. -/
  | atticRecordRewrite (page : Nat)
  /-- NAND_ERASE_DONE (R253): A NAND band or block erase completes and the band returns to the erased general bands. -/
  | nandEraseDone (band : Nat)
  /-- CQ_COALESCE_EXPIRE (R44): The interrupt coalescing time set by CREATE_QP expires for a CQ holding unsignalled entries, and its MSI-X message is sent. -/
  | cqCoalesceExpire (fn : Fn) (q : Nat)
  deriving DecidableEq, Repr

end Sys2Proof
end

