-- ==== Sys2Proof/Decode.lean ====
section
/-!
DEFINITION. The decoder of the table's bits. No row of spec/opcode_table.json gives bits: commands reach the block by name, so no word spells one.
-/

namespace Sys2Proof

/-- The command that a word spells by the table's bits: none, since the table gives no row any bits. -/
def decodeTableWord (_nbits _w : Nat) : Option Instr := none

end Sys2Proof
end

