-- ==== Sys2Proof/Machine/Bits.lean ====
section
/-!
DEFINITION. The operations of the finite map, the bit fields of a register, saturating counters and byte orders.
-/

namespace Sys2Proof

namespace KM

variable {α : Type}

/-- The value listed at a key. -/
def get : KMap α → Nat → Option α
  | [], _ => none
  | (j, v) :: m, k => if j = k then some v else get m k

/-- The map with a key set to a value. -/
def put : KMap α → Nat → α → KMap α
  | [], k, v => [(k, v)]
  | (j, w) :: m, k, v => if k < j then (k, v) :: (j, w) :: m else if j = k then (k, v) :: m else (j, w) :: put m k v

/-- The map without a key. -/
def del : KMap α → Nat → KMap α
  | [], _ => []
  | (j, w) :: m, k => if j = k then del m k else (j, w) :: del m k

/-- The value at a key, or the default where none is listed. -/
def getD (d : α) (m : KMap α) (k : Nat) : α := (get m k).getD d

/-- A map whose unlisted keys hold the default, with a key set: the default is never listed. -/
def putD [DecidableEq α] (d : α) (m : KMap α) (k : Nat) (v : α) : KMap α :=
  if v = d then del m k else put m k v

/-- The value at a key changed by a function; an absent key stays absent. -/
def upd (m : KMap α) (k : Nat) (f : α → α) : KMap α :=
  match get m k with
  | some v => put m k (f v)
  | none => m

/-- The first key of the map is above a bound. -/
def above (b : Nat) : KMap α → Bool
  | [] => true
  | (j, _) :: _ => decide (b < j)

/-- The keys rise strictly. -/
def wf : KMap α → Bool
  | [] => true
  | (j, _) :: m => above j m && wf m

/-- No key holds the default of that key. -/
def noDefault [DecidableEq α] (d : Nat → α) : KMap α → Bool
  | [] => true
  | (j, v) :: m => decide (v ≠ d j) && noDefault d m

/-- The values of the map that satisfy a test, with their keys. -/
def keep (p : Nat → α → Bool) : KMap α → KMap α
  | [] => []
  | (j, v) :: m => if p j v then (j, v) :: keep p m else keep p m

/-- Every value changed by a function. -/
def mapV (f : Nat → α → α) : KMap α → KMap α
  | [] => []
  | (j, v) :: m => (j, f j v) :: mapV f m

end KM

/-- Bits hi down to lo of a word, as a number. -/
def bits (w : Word) (hi lo : Nat) : Nat := (w.toNat / 2 ^ lo) % 2 ^ (hi + 1 - lo)

/-- Bit b of a word. -/
def bit (w : Word) (b : Nat) : Bool := w.getLsbD b

/-- The word with bits hi down to lo replaced by a number (taken modulo the field's width). -/
def setBits (w : Word) (hi lo v : Nat) : Word :=
  BitVec.ofNat 32 (w.toNat / 2 ^ (hi + 1) * 2 ^ (hi + 1) + (v % 2 ^ (hi + 1 - lo)) * 2 ^ lo + w.toNat % 2 ^ lo)

/-- A saturating increment of a 32-bit counter. -/
def satAdd (w : Word) (n : Nat) : Word := BitVec.ofNat 32 (min (w.toNat + n) 0xFFFFFFFF)

/-- A Bool as 0 or 1. -/
def b2n (b : Bool) : Nat := if b then 1 else 0

/-- Bytes, least significant first, as a number. -/
def leNat : List Byte → Nat
  | [] => 0
  | b :: bs => b.toNat + 256 * leNat bs

/-- Bytes, most significant first (network order, R8), as a number. -/
def beNat (bs : List Byte) : Nat := bs.foldl (fun a b => a * 256 + b.toNat) 0

/-- n bytes of a number, least significant first. -/
def leBytes : Nat → Nat → List Byte
  | 0, _ => []
  | n + 1, v => BitVec.ofNat 8 (v % 256) :: leBytes n (v / 256)

/-- n bytes of a number, most significant first. -/
def beBytes (n v : Nat) : List Byte := (leBytes n v).reverse

end Sys2Proof
end

