-- ==== Sys2Proof/Machine/RegMap.lean ====
section
/-!
DEFINITION. The page map (R35), the header words every page carries (R36 to R40), and, from the register tables of
every chapter, the writable fields with their ranges and the reset values.
-/

namespace Sys2Proof.Machine

/-- The key of the register of a page at an offset. Page 0x404C stands for the PX page as PF1 decodes it (R44). -/
def regKey (page off : Nat) : Nat := page * 4096 + off

/-- BLOCK_TYPE of a page (R428), or none for a reserved index (R35). -/
def pageType (p : Nat) : Option Nat :=
  if p = 0 then some 0x00 else if p = 1 then some 0x01
  else if p = 2 ∨ p = 3 then some 0x02 else if p = 4 then some 0x03 else if p = 5 then some 0x04
  else if 0x10 ≤ p ∧ p < 0x14 then some 0x08
  else if 0x20 ≤ p ∧ p < 0x24 then some (0x10 + (p - 0x20))
  else if 0x24 ≤ p ∧ p < 0x2C then some 0x14
  else if 0x2C ≤ p ∧ p < 0x34 then some 0x15
  else if 0x34 ≤ p ∧ p < 0x38 then some 0x16
  else if 0x40 ≤ p ∧ p < 0x48 then some 0x20
  else if 0x48 ≤ p ∧ p < 0x4C then some 0x21
  else if p = 0x4C ∨ p = 0x404C then some 0x22 else if p = 0x4D then some 0x23 else if p = 0x4E then some 0x24
  else if p = 0x4F then some 0x25
  else if 0x50 ≤ p ∧ p < 0x53 then some 0x26
  else if 0x53 ≤ p ∧ p < 0x5A then some (0x27 + (p - 0x53))
  else if 0x60 ≤ p ∧ p < 0x80 then some 0x2E
  else if 0x80 ≤ p ∧ p < 0x84 then some (0x30 + (p - 0x80))
  else if p = 0x88 then some 0x34
  else if 0x200 ≤ p ∧ p < 0x218 then some 0x40
  else if 0x240 ≤ p ∧ p < 0x280 then some 0x41
  else if 0x300 ≤ p ∧ p < 0x380 ∧ (p - 0x300) % 0x20 < 4 then some (0x48 + (p - 0x300) % 0x20)
  else if 0x300 ≤ p ∧ p < 0x380 ∧ (p - 0x300) % 0x20 < 10 then some 0x4C
  else if 0x300 ≤ p ∧ p < 0x380 ∧ (p - 0x300) % 0x20 = 10 then some 0x4D
  else none

/-- The first page index of a run of pages of one type, from which INSTANCE counts. -/
def pageInstance (p : Nat) : Nat :=
  if p < 2 then 0 else if p < 4 then p - 2 else if p < 6 then 0 else if p < 0x14 then p - 0x10
  else if p < 0x24 then 0 else if p < 0x2C then p - 0x24 else if p < 0x34 then p - 0x2C else if p < 0x38 then p - 0x34
  else if p < 0x48 then p - 0x40 else if p < 0x4C then p - 0x48 else if p < 0x50 then 0 else if p < 0x53 then p - 0x50
  else if p < 0x60 then 0 else if p < 0x80 then p - 0x60 else if p < 0x200 then 0 else if p < 0x240 then p - 0x200
  else if p < 0x300 then p - 0x240
  else if p < 0x380 then
    if (p - 0x300) % 0x20 < 4 ∨ (p - 0x300) % 0x20 = 10 then (p - 0x300) / 0x20
    else (p - 0x300) / 0x20 * 6 + ((p - 0x300) % 0x20 - 4)
  else 0

/-- LEVEL of a page: 0 unit, 1 cluster, 2 region, 3 die, 4 package (R36). -/
def pageLevel (p : Nat) : Nat :=
  if p = 0 then 4 else if p < 6 then 3 else if p < 0x14 then 2 else if p < 0x38 then 1 else 0

/-- PG_PARENT of a page (R40): the page one level up, 0x3FFF for the package. -/
def pageParent (p : Nat) : Nat :=
  if p = 0 then 0x3FFF else if p < 6 then 0
  else if p < 0x12 then 2 else if p < 0x14 then 3
  else if p < 0x24 then 1 else if p < 0x2C then 0x10 + (p - 0x24) / 2 else if p < 0x34 then 0x10 + (p - 0x2C) / 2
  else if p < 0x38 then 0x10 + (p - 0x34)
  else if p < 0x48 then 0x20 else if p < 0x4C then 0x21 else if p < 0x50 then 1
  else if p < 0x55 then 0x22 else if p < 0x60 then 1 else if p < 0x80 then 0x23
  else if p < 0x84 then 4 else if p < 0x200 then 5
  else if p < 0x240 then 0x24 + (p - 0x200) / 3 else if p < 0x300 then 0x2C + (p - 0x240) / 8
  else if p < 0x380 then 0x34 + (p - 0x300) / 0x20 else 1

/-- PG_ISLAND of a page (R15, R40). -/
def pageIsland (p : Nat) : Nat :=
  if p = 2 then 13 else if p = 3 then 15 else if p = 4 then 17 else if p < 6 then 12
  else if p < 0x14 then 13 + (p - 0x10)
  else if p = 0x20 then 10 else if p = 0x21 then 8 else if p = 0x22 then 12 else if p = 0x23 then 11
  else if p < 0x2C then 13 + (p - 0x24) / 2 else if p < 0x34 then 13 + (p - 0x2C) / 2 else if p < 0x38 then 13 + (p - 0x34)
  else if p < 0x48 then p - 0x40 else if p < 0x4C then 8 else if p = 0x4C ∨ p = 0x404C then 9 else if p = 0x4D then 10
  else if p < 0x50 then 11 else if p < 0x60 then 12 else if p < 0x80 then 11 else if p < 0x84 then 17
  else if p < 0x200 then 12 else if p < 0x240 then 13 + (p - 0x200) / 6 else if p < 0x300 then 13 + (p - 0x240) / 16
  else 13 + (p - 0x300) / 0x20

/-- Every page of the page map, in index order (R35). -/
def allPages : List Nat :=
  [0, 1, 2, 3, 4, 5, 0x10, 0x11, 0x12, 0x13] ++ List.range' 0x20 0x18 ++ List.range' 0x40 0x1A ++ List.range' 0x60 0x24 ++
    [0x88] ++ List.range' 0x200 24 ++ List.range' 0x240 64 ++ List.range' 0x300 11 ++ List.range' 0x320 11 ++
    List.range' 0x340 11 ++ List.range' 0x360 11

/-- The page lies below another in the hierarchy of levels (R18). -/
def isBelow (q p : Nat) : Bool :=
  let a := pageParent q
  let b := pageParent a
  let c := pageParent b
  let d := pageParent c
  q ≠ 0 ∧ (a = p ∨ (a ≠ 0 ∧ a ≠ 0x3FFF ∧ (b = p ∨ (b ≠ 0 ∧ b ≠ 0x3FFF ∧ (c = p ∨ (c ≠ 0 ∧ c ≠ 0x3FFF ∧ d = p))))))

/-- The units of a page absent in a fuse-reduced bin (R3): bin 1 is the PW8820, bin 2 the PW8810. -/
def pageAbsent (bin p : Nat) : Bool :=
  let regions := if bin = 1 then 2 else if bin = 2 then 1 else 4
  let planes := if bin = 1 then 4 else if bin = 2 then 2 else 8
  (0x40 ≤ p && p < 0x48 && decide (planes ≤ p - 0x40)) || (0x10 ≤ p && p < 0x14 && decide (regions ≤ p - 0x10)) ||
  (p = 3 && decide (bin = 1 ∨ bin = 2)) || (0x24 ≤ p && p < 0x2C && decide (regions ≤ (p - 0x24) / 2)) ||
  (0x2C ≤ p && p < 0x34 && decide (regions ≤ (p - 0x2C) / 2)) || (0x34 ≤ p && p < 0x38 && decide (regions ≤ p - 0x34)) ||
  (0x200 ≤ p && p < 0x240 && decide (regions ≤ (p - 0x200) / 6)) || (0x240 ≤ p && p < 0x300 && decide (regions ≤ (p - 0x240) / 16)) ||
  (0x300 ≤ p && p < 0x380 && decide (regions ≤ (p - 0x300) / 0x20))

/-- The sources each chapter defines for a block type, without the common sources 29 to 31 (R428, R429). -/
def ownSources (ty : Nat) : Nat :=
  if ty = 0x00 then 0x3FF else if ty = 0x01 then 3 else if ty = 0x02 ∨ ty = 0x03 ∨ ty = 0x04 then 1
  else if ty = 0x08 then 0x3FFF else if ty = 0x10 then 0x3F else if ty = 0x11 then 0x1FF else if ty = 0x12 then 0x7F
  else if ty = 0x22 then 0xF else if ty = 0x23 then 0xFFF else if ty = 0x24 then 0xFF else if ty = 0x25 then 0xF
  else if ty = 0x26 then 1 else if ty = 0x28 then 1 else if ty = 0x29 then 7 else if ty = 0x2A then 7 else if ty = 0x2B then 0xF
  else if ty = 0x2C then 0x3F else if ty = 0x2D then 1 else if ty = 0x2E then 1 else if ty = 0x30 then 0x3F else if ty = 0x31 then 0x1F
  else if ty = 0x32 then 3 else if ty = 0x33 then 0x7F else if ty = 0x34 then 0x7F else if ty = 0x40 then 0x1FF
  else if ty = 0x41 then 0x3F else if ty = 0x4A then 3 else if ty = 0x4C then 1 else 0

/-- The sources defined for a block type, one bit each. -/
def definedSources (ty : Nat) : Nat := 0xE0000000 + ownSources ty

/-- One row of the table "Sources with defaults other than INFO": type, source, severity, handler STEWARD, fallback, grace in 10 µs. -/
structure ClassRow where
  ty : Nat
  src : Nat
  sev : Nat
  steward : Bool
  fallback : Nat
  grace : Nat
  deriving DecidableEq, Repr

/-- The sources of one type that default to WARN with handler HOST. -/
def warnHost (ty : Nat) (srcs : List Nat) : List ClassRow := srcs.map fun s => ⟨ty, s, 1, false, 0, 1⟩

/-- The table "Sources with defaults other than INFO" (R442), and the WARN sources of the Tally and RTC pages.
Where the table gives no grace the model holds 1 (log 3). Sources 30 and 31 of every page are WARN (see classDefault). -/
def classRows : List ClassRow :=
  [⟨0x02, 0, 2, true, 3, 100⟩, ⟨0x03, 0, 2, true, 3, 100⟩, ⟨0x04, 0, 2, true, 3, 100⟩,
   ⟨0x08, 13, 2, false, 4, 10000⟩, ⟨0x2C, 1, 2, true, 4, 1000⟩, ⟨0x31, 0, 2, false, 4, 10000⟩, ⟨0x31, 2, 2, false, 4, 10000⟩,
   ⟨0x31, 4, 2, true, 4, 100⟩, ⟨0x40, 1, 2, false, 4, 10000⟩, ⟨0x40, 8, 2, false, 4, 10000⟩, ⟨0x4C, 0, 2, false, 4, 10000⟩,
   ⟨0x24, 2, 2, false, 4, 10000⟩, ⟨0x24, 3, 3, true, 5, 10000⟩, ⟨0x2E, 0, 1, true, 0, 1⟩, ⟨0x12, 1, 2, false, 4, 10000⟩,
   ⟨0x12, 3, 3, false, 5, 1⟩, ⟨0x12, 4, 3, false, 5, 1⟩,
   ⟨0x34, 1, 1, true, 0, 1⟩, ⟨0x34, 2, 1, true, 0, 1⟩, ⟨0x34, 3, 1, true, 0, 1⟩, ⟨0x34, 6, 1, true, 0, 1⟩] ++
  warnHost 0x22 [0, 1, 3] ++ warnHost 0x23 [2, 4, 8] ++ warnHost 0x10 [1, 5] ++ warnHost 0x08 [1, 2, 3, 5, 6, 10, 11, 12] ++
  warnHost 0x2C [2, 3, 5] ++ warnHost 0x31 [1, 3] ++ warnHost 0x33 [3, 5, 6] ++ warnHost 0x11 [0, 1, 2, 3, 6, 7, 8] ++
  warnHost 0x41 [1, 2, 3, 4, 5] ++ warnHost 0x40 [2, 3, 5, 6, 7] ++ warnHost 0x25 [0, 1, 2] ++ warnHost 0x24 [1, 4, 7] ++
  warnHost 0x12 [0, 5, 6] ++ warnHost 0x26 [0] ++ warnHost 0x28 [0] ++ warnHost 0x30 [0, 1, 2, 3, 4, 5] ++ warnHost 0x01 [0, 1] ++
  warnHost 0x00 [2, 3, 5, 7, 8, 9] ++ warnHost 0x29 [0, 1, 2] ++ warnHost 0x2A [0, 2] ++ warnHost 0x32 [1]

/-- Default severity and settings of a class (R442). -/
def classDefault (ty src : Nat) : ClassRow :=
  if src = 30 ∨ src = 31 then ⟨ty, src, 1, false, 0, 1⟩
  else (classRows.find? fun r => r.ty = ty ∧ r.src = src).getD ⟨ty, src, 0, false, 0, 1⟩

/-- The default EV_SEVERITY word of a type for 16 sources from a first one. -/
def severityWord (ty first : Nat) : Nat :=
  (List.range 16).foldl (fun a i => a + (classDefault ty (first + i)).sev * 4 ^ i) 0

/-- A writable field of a block register: type, first offset, stride, count, bits, least and greatest value accepted. -/
structure RwField where
  ty : Nat
  off : Nat
  stride : Nat
  count : Nat
  hi : Nat
  lo : Nat
  min : Nat
  max : Nat
  deriving DecidableEq, Repr

/-- A block register with a reset value other than 0: type, first offset, stride, count, value. -/
structure ResetRow where
  ty : Nat
  off : Nat
  stride : Nat
  count : Nat
  value : Nat
  deriving DecidableEq, Repr

/-- An offset is one of a run of registers. -/
def inRun (first stride count off : Nat) : Bool :=
  if stride = 0 then off = first else first ≤ off && (off - first) % stride = 0 && decide ((off - first) / stride < count)

/-- The writable fields of the block registers whose writes have no behaviour of their own, with their ranges (part 1). -/
def rwFields1 : List RwField := [
  ⟨0x22, 0x040, 0, 1, 31, 0, 0, 4294967295⟩,
  ⟨0x22, 0x044, 0, 1, 31, 0, 0, 4294967295⟩,
  ⟨0x22, 0x048, 0, 1, 31, 0, 0, 4294967295⟩,
  ⟨0x22, 0x04C, 0, 1, 31, 0, 0, 4294967295⟩,
  ⟨0x10, 0x040, 0, 1, 17, 17, 0, 1⟩,
  ⟨0x10, 0x040, 0, 1, 16, 16, 0, 1⟩,
  ⟨0x10, 0x040, 0, 1, 15, 0, 1024, 65535⟩,
  ⟨0x10, 0x044, 0, 1, 17, 17, 0, 1⟩,
  ⟨0x10, 0x044, 0, 1, 16, 16, 0, 1⟩,
  ⟨0x10, 0x044, 0, 1, 13, 8, 0, 63⟩,
  ⟨0x10, 0x044, 0, 1, 5, 0, 0, 63⟩,
  ⟨0x10, 0x080, 32, 8, 31, 31, 0, 1⟩,
  ⟨0x10, 0x080, 32, 8, 30, 28, 0, 7⟩,
  ⟨0x10, 0x080, 32, 8, 13, 13, 0, 1⟩,
  ⟨0x10, 0x080, 32, 8, 11, 0, 0, 4095⟩,
  ⟨0x10, 0x180, 0, 1, 19, 0, 100, 1000000⟩,
  ⟨0x10, 0x184, 0, 1, 19, 16, 1, 15⟩,
  ⟨0x10, 0x184, 0, 1, 15, 0, 60, 65535⟩,
  ⟨0x23, 0x100, 0, 1, 31, 31, 0, 1⟩,
  ⟨0x23, 0x100, 0, 1, 27, 24, 2, 8⟩,
  ⟨0x23, 0x100, 0, 1, 5, 0, 1, 63⟩,
  ⟨0x23, 0x104, 0, 1, 15, 8, 1, 255⟩,
  ⟨0x23, 0x104, 0, 1, 7, 0, 1, 255⟩,
  ⟨0x23, 0x108, 0, 1, 25, 16, 1, 800⟩,
  ⟨0x23, 0x108, 0, 1, 9, 0, 1, 800⟩,
  ⟨0x08, 0x040, 0, 1, 31, 31, 0, 1⟩]

/-- The writable fields of the block registers whose writes have no behaviour of their own, with their ranges (part 2). -/
def rwFields2 : List RwField := [
  ⟨0x08, 0x040, 0, 1, 23, 16, 0, 255⟩,
  ⟨0x08, 0x040, 0, 1, 15, 8, 5, 100⟩,
  ⟨0x08, 0x040, 0, 1, 7, 0, 1, 60⟩,
  ⟨0x08, 0x044, 0, 1, 15, 8, 80, 99⟩,
  ⟨0x08, 0x044, 0, 1, 7, 0, 10, 100⟩,
  ⟨0x08, 0x068, 0, 1, 31, 0, 0, 25⟩,
  ⟨0x23, 0x180, 0, 1, 31, 16, 1, 65535⟩,
  ⟨0x23, 0x180, 0, 1, 15, 0, 1, 10000⟩,
  ⟨0x23, 0x184, 0, 1, 23, 0, 1000, 10000000⟩,
  ⟨0x2C, 0x068, 0, 1, 31, 16, 400, 2000⟩,
  ⟨0x2C, 0x068, 0, 1, 15, 0, 100, 3000⟩,
  ⟨0x2C, 0x070, 0, 1, 4, 0, 5, 20⟩,
  ⟨0x31, 0x040, 0, 1, 31, 16, 100, 1000⟩,
  ⟨0x31, 0x040, 0, 1, 15, 0, 4000, 6000⟩,
  ⟨0x33, 0x040, 0, 1, 15, 0, 500, 50000⟩,
  ⟨0x33, 0x068, 0, 1, 11, 0, 0, 3600⟩,
  ⟨0x11, 0x050, 0, 1, 31, 31, 0, 1⟩,
  ⟨0x11, 0x050, 0, 1, 9, 0, 2, 1000⟩,
  ⟨0x11, 0x0B0, 0, 1, 15, 0, 256, 65535⟩,
  ⟨0x41, 0x048, 0, 1, 15, 8, 8, 200⟩,
  ⟨0x08, 0x0C0, 0, 1, 23, 16, 1, 100⟩,
  ⟨0x08, 0x0C0, 0, 1, 15, 8, 5, 100⟩,
  ⟨0x08, 0x0C0, 0, 1, 2, 0, 0, 7⟩,
  ⟨0x4D, 0x040, 0, 1, 31, 31, 0, 1⟩,
  ⟨0x4D, 0x040, 0, 1, 23, 16, 1, 255⟩,
  ⟨0x4D, 0x040, 0, 1, 13, 8, 1, 32⟩]

/-- The writable fields of the block registers whose writes have no behaviour of their own, with their ranges (part 3). -/
def rwFields3 : List RwField := [
  ⟨0x4D, 0x040, 0, 1, 5, 0, 1, 32⟩,
  ⟨0x4D, 0x044, 0, 1, 15, 0, 0, 60000⟩,
  ⟨0x40, 0x040, 0, 1, 23, 16, 1, 100⟩,
  ⟨0x40, 0x040, 0, 1, 15, 8, 0, 255⟩,
  ⟨0x40, 0x040, 0, 1, 7, 0, 0, 255⟩,
  ⟨0x40, 0x044, 0, 1, 31, 16, 64, 8192⟩,
  ⟨0x40, 0x044, 0, 1, 15, 8, 1, 255⟩,
  ⟨0x40, 0x044, 0, 1, 7, 0, 1, 255⟩,
  ⟨0x08, 0x140, 0, 1, 30, 30, 0, 1⟩,
  ⟨0x08, 0x140, 0, 1, 25, 24, 0, 2⟩,
  ⟨0x08, 0x140, 0, 1, 23, 16, 2, 40⟩,
  ⟨0x08, 0x140, 0, 1, 15, 0, 0, 8760⟩,
  ⟨0x08, 0x144, 0, 1, 31, 0, 1, 1000000⟩,
  ⟨0x08, 0x15C, 0, 1, 13, 0, 1, 10000⟩,
  ⟨0x08, 0x180, 0, 1, 3, 0, 2, 8⟩,
  ⟨0x25, 0x040, 0, 1, 5, 4, 0, 3⟩,
  ⟨0x25, 0x040, 0, 1, 1, 0, 0, 3⟩,
  ⟨0x25, 0x044, 0, 1, 31, 0, 0, 4294967295⟩,
  ⟨0x25, 0x048, 0, 1, 31, 0, 0, 4294967295⟩,
  ⟨0x25, 0x04C, 0, 1, 31, 0, 1, 4294967295⟩,
  ⟨0x4A, 0x040, 0, 1, 31, 31, 0, 1⟩,
  ⟨0x4A, 0x040, 0, 1, 30, 30, 0, 1⟩,
  ⟨0x4A, 0x040, 0, 1, 23, 16, 1, 255⟩,
  ⟨0x4A, 0x040, 0, 1, 7, 0, 1, 168⟩,
  ⟨0x12, 0x064, 0, 1, 31, 0, 10, 1000⟩,
  ⟨0x34, 0x040, 0, 1, 31, 31, 0, 1⟩]

/-- The writable fields of the block registers whose writes have no behaviour of their own, with their ranges (part 4). -/
def rwFields4 : List RwField := [
  ⟨0x34, 0x040, 0, 1, 3, 0, 1, 8⟩,
  ⟨0x30, 0x040, 0, 1, 27, 24, 0, 15⟩,
  ⟨0x30, 0x040, 0, 1, 15, 0, 50, 10000⟩,
  ⟨0x30, 0x044, 0, 1, 31, 16, 1, 1000⟩,
  ⟨0x30, 0x044, 0, 1, 15, 0, 1, 1000⟩,
  ⟨0x30, 0x048, 0, 1, 31, 16, 0, 65535⟩,
  ⟨0x30, 0x048, 0, 1, 15, 0, 0, 1000⟩,
  ⟨0x00, 0x10C, 0, 1, 31, 24, 0, 23⟩,
  ⟨0x00, 0x10C, 0, 1, 23, 16, 1, 12⟩,
  ⟨0x00, 0x10C, 0, 1, 15, 8, 1, 10⟩,
  ⟨0x00, 0x10C, 0, 1, 7, 0, 5, 30⟩,
  ⟨0x00, 0x110, 0, 1, 31, 16, 1, 1000⟩,
  ⟨0x00, 0x110, 0, 1, 15, 0, 5, 200⟩,
  ⟨0x00, 0x184, 0, 1, 31, 24, 2, 100⟩,
  ⟨0x00, 0x184, 0, 1, 23, 16, 1, 100⟩,
  ⟨0x00, 0x184, 0, 1, 15, 8, 2, 100⟩,
  ⟨0x00, 0x184, 0, 1, 7, 0, 1, 100⟩,
  ⟨0x29, 0x040, 0, 1, 15, 8, 0, 255⟩,
  ⟨0x29, 0x040, 0, 1, 4, 0, 0, 31⟩,
  ⟨0x2B, 0x040, 0, 1, 4, 0, 1, 24⟩,
  ⟨0x2A, 0x054, 0, 1, 7, 0, 50, 95⟩,
  ⟨0x32, 0x048, 0, 1, 31, 0, 0, 4294967295⟩,
  ⟨0x32, 0x04C, 0, 1, 25, 16, 0, 1023⟩,
  ⟨0x32, 0x04C, 0, 1, 7, 0, 0, 255⟩]

/-- The writable fields of the block registers whose writes have no behaviour of their own, with their ranges. -/
def rwFields : List RwField := rwFields1 ++ rwFields2 ++ rwFields3 ++ rwFields4

/-- The block registers whose reset value is not 0; values the spec does not give are in log entry 3 (part 1). -/
def resetRows1 : List ResetRow := [
  ⟨0x00, 0x044, 0, 1, 0x1⟩,
  ⟨0x00, 0x10C, 0, 1, 0x204050A⟩,
  ⟨0x00, 0x110, 0, 1, 0xA0014⟩,
  ⟨0x00, 0x120, 4, 4, 0x3E8⟩,
  ⟨0x00, 0x130, 4, 4, 0x640⟩,
  ⟨0x00, 0x184, 0, 1, 0xC081810⟩,
  ⟨0x08, 0x040, 0, 1, 0x8000190A⟩,
  ⟨0x08, 0x044, 0, 1, 0x5F32⟩,
  ⟨0x08, 0x058, 0, 1, 0x3A98⟩,
  ⟨0x08, 0x060, 0, 1, 0x2490⟩,
  ⟨0x08, 0x064, 0, 1, 0x924000⟩,
  ⟨0x08, 0x068, 0, 1, 0xA⟩,
  ⟨0x08, 0x0C0, 0, 1, 0xA1402⟩,
  ⟨0x08, 0x0C8, 0, 1, 0xAA⟩,
  ⟨0x08, 0x140, 0, 1, 0xA0018⟩,
  ⟨0x08, 0x144, 0, 1, 0x3E8⟩,
  ⟨0x08, 0x15C, 0, 1, 0x64⟩,
  ⟨0x08, 0x180, 0, 1, 0x3⟩,
  ⟨0x08, 0x184, 0, 1, 0x100⟩,
  ⟨0x10, 0x040, 0, 1, 0x3B9A0⟩,
  ⟨0x10, 0x044, 0, 1, 0x10000⟩,
  ⟨0x10, 0x080, 32, 8, 0x2000⟩,
  ⟨0x10, 0x180, 0, 1, 0x2710⟩,
  ⟨0x10, 0x184, 0, 1, 0x30064⟩,
  ⟨0x11, 0x040, 0, 1, 0xF⟩,
  ⟨0x11, 0x050, 0, 1, 0x4⟩]

/-- The block registers whose reset value is not 0; values the spec does not give are in log entry 3 (part 2). -/
def resetRows2 : List ResetRow := [
  ⟨0x11, 0x064, 0, 1, 0x1⟩,
  ⟨0x11, 0x06C, 0, 1, 0x1⟩,
  ⟨0x11, 0x088, 0, 1, 0x0⟩,
  ⟨0x11, 0x0B0, 0, 1, 0x1000⟩,
  ⟨0x12, 0x040, 0, 1, 0x24⟩,
  ⟨0x12, 0x064, 0, 1, 0x64⟩,
  ⟨0x23, 0x040, 0, 1, 0x2F⟩,
  ⟨0x23, 0x100, 0, 1, 0x84000020⟩,
  ⟨0x23, 0x104, 0, 1, 0xA01⟩,
  ⟨0x23, 0x108, 0, 1, 0x3200001⟩,
  ⟨0x23, 0x140, 4, 8, 0x320⟩,
  ⟨0x23, 0x180, 0, 1, 0x14000A⟩,
  ⟨0x23, 0x184, 0, 1, 0x186A0⟩,
  ⟨0x26, 0x040, 0, 1, 0x1⟩,
  ⟨0x2A, 0x050, 0, 1, 0x1FC000⟩,
  ⟨0x2A, 0x054, 0, 1, 0x4B⟩,
  ⟨0x2B, 0x040, 0, 1, 0x1⟩,
  ⟨0x2B, 0x044, 0, 1, 0x1⟩,
  ⟨0x2C, 0x040, 0, 1, 0x1001⟩,
  ⟨0x2C, 0x058, 0, 1, 0x3⟩,
  ⟨0x2C, 0x05C, 0, 1, 0x2BC⟩,
  ⟨0x2C, 0x060, 0, 1, 0x1130⟩,
  ⟨0x2C, 0x064, 0, 1, 0x3AC⟩,
  ⟨0x2C, 0x068, 0, 1, 0x38404B0⟩,
  ⟨0x2C, 0x06C, 0, 1, 0x280C06⟩,
  ⟨0x2C, 0x070, 0, 1, 0x14⟩,
  ⟨0x2C, 0x0A0, 4, 4, 0x200000⟩]

/-- The block registers whose reset value is not 0; values the spec does not give are in log entry 3 (part 3). -/
def resetRows3 : List ResetRow := [
  ⟨0x2C, 0x0B0, 4, 4, 0xC350⟩,
  ⟨0x30, 0x040, 0, 1, 0x20000C8⟩,
  ⟨0x30, 0x044, 0, 1, 0xA0014⟩,
  ⟨0x30, 0x048, 0, 1, 0x3E80014⟩,
  ⟨0x31, 0x040, 0, 1, 0x2581388⟩,
  ⟨0x31, 0x054, 0, 1, 0x9C40⟩,
  ⟨0x31, 0x058, 0, 1, 0x2EE0⟩,
  ⟨0x33, 0x040, 0, 1, 0x7D0⟩,
  ⟨0x33, 0x068, 0, 1, 0x3C⟩,
  ⟨0x34, 0x040, 0, 1, 0x6⟩,
  ⟨0x34, 0x044, 0, 1, 0x80⟩,
  ⟨0x24, 0x044, 0, 1, 0xFFFFFFFF⟩,
  ⟨0x34, 0x06C, 0, 1, 0x68⟩,
  ⟨0x40, 0x040, 0, 1, 0x140A10⟩,
  ⟨0x40, 0x044, 0, 1, 0x2000A0A⟩,
  ⟨0x40, 0x140, 0, 1, 0x3E80000⟩,
  ⟨0x41, 0x048, 0, 1, 0x3C00⟩,
  ⟨0x4A, 0x040, 0, 1, 0xC01E0018⟩,
  ⟨0x4D, 0x040, 0, 1, 0x80400420⟩,
  ⟨0x4D, 0x044, 0, 1, 0x3E8⟩]

/-- The block registers whose reset value is not 0; values the spec does not give are in log entry 3. -/
def resetRows : List ResetRow := resetRows1 ++ resetRows2 ++ resetRows3

/-- Nominal clock of an island in MHz (table "Clock islands"). -/
def islandNominal (k : Nat) : Nat :=
  if k < 9 then 1600 else if k = 9 then 1000 else if k = 10 then 2000 else if k = 11 then 1500 else if k = 12 then 2000
  else if k < 17 then 1800 else 100

/-- Reset value of a block register (offset 0x040 on) of a type and an index within the type. -/
def blockReset (ty inst off : Nat) : Nat :=
  if ty = 0x01 ∧ inRun 0x100 8 18 off then islandNominal ((off - 0x100) / 8)
  else if ty = 0x26 ∧ off = 0x040 then inst * 2 ^ 30 + 1
  else ((resetRows.find? fun r => r.ty = ty ∧ inRun r.off r.stride r.count off).map (·.value)).getD 0

/-- Reset value of the register of a page at an offset: the header of R36 to R40, then the block registers. -/
def resetWord (page off : Nat) : Word :=
  match pageType page with
  | none => 0
  | some ty =>
    BitVec.ofNat 32 (
      if off = 0x000 then if page = 0 then 0x80574E4D else pageLevel page * 2 ^ 29 + ty * 2 ^ 16 + pageInstance page
      else if off = 0x004 then 0xB1010100
      else if off = 0x014 then definedSources ty
      else if off = 0x020 then severityWord ty 0
      else if off = 0x024 then severityWord ty 16
      else if off = 0x030 then pageIsland page
      else if off = 0x034 then pageParent page
      else if off < 0x040 then 0
      else blockReset ty (pageInstance page) off)

/-- Reset value of the register that a key of the register file names. -/
def resetAt (k : Nat) : Word := resetWord (k / 4096) (k % 4096)

end Sys2Proof.Machine
end

