-- ==== Sys2Proof/Machine/Counters.lean ====
section
/-!
DEFINITION. Which block registers are block counter registers (R491) and which are saved, measured or fused values, by block type.
-/

namespace Sys2Proof.Machine

/-- Offsets of the block counter registers of a block type: those its chapter says clear only at power-on reset or by CLEAR_COUNTS
(R491; on the sequencer page only at a cold start, R408). -/
def blockCounters (ty : Nat) : List Nat :=
  if ty = 0x00 then [0x118]
  else if ty = 0x01 then [0x044]
  else if ty = 0x08 then [0x06C, 0x070, 0x074, 0x078, 0x07C, 0x0CC, 0x0D0, 0x0D4, 0x0D8, 0x0DC, 0x0E0, 0x0E4, 0x0E8, 0x0F0,
    0x14C, 0x154, 0x188, 0x18C, 0x190, 0x194]
  else if ty = 0x10 then [0x048, 0x04C, 0x050, 0x084, 0x088, 0x08C, 0x090, 0x094, 0x098, 0x09C, 0x0A4, 0x0A8, 0x0AC, 0x0B0,
    0x0B4, 0x0B8, 0x0BC, 0x0C4, 0x0C8, 0x0CC, 0x0D0, 0x0D4, 0x0D8, 0x0DC, 0x0E4, 0x0E8, 0x0EC, 0x0F0, 0x0F4, 0x0F8, 0x0FC,
    0x104, 0x108, 0x10C, 0x110, 0x114, 0x118, 0x11C, 0x124, 0x128, 0x12C, 0x130, 0x134, 0x138, 0x13C, 0x144, 0x148, 0x14C,
    0x150, 0x154, 0x158, 0x15C, 0x164, 0x168, 0x16C, 0x170, 0x174, 0x178, 0x17C, 0x18C, 0x190, 0x194, 0x1C0, 0x1C4, 0x1C8,
    0x1CC, 0x1D0, 0x1D4, 0x1D8, 0x1DC, 0x1E0, 0x1E4, 0x1E8, 0x1EC, 0x1F0, 0x1F4, 0x1F8, 0x1FC]
  else if ty = 0x11 then [0x074, 0x078]
  else if ty = 0x12 then [0x04C]
  else if ty = 0x20 then [0x054]
  else if ty = 0x21 then [0x044, 0x048, 0x04C, 0x050, 0x114]
  else if ty = 0x23 then [0x080, 0x084, 0x088, 0x08C, 0x094, 0x098, 0x0A0, 0x0A4, 0x0C0, 0x0C4, 0x0C8, 0x0CC, 0x0D0, 0x0D4,
    0x0D8, 0x0DC, 0x10C, 0x110, 0x114, 0x118, 0x188, 0x18C]
  else if ty = 0x24 then [0x04C, 0x050, 0x054, 0x058, 0x05C, 0x060]
  else if ty = 0x25 then [0x068, 0x06C, 0x070, 0x074, 0x078]
  else if ty = 0x27 then [0x044, 0x048, 0x04C]
  else if ty = 0x28 then [0x040]
  else if ty = 0x29 then [0x06C, 0x070, 0x074, 0x078]
  else if ty = 0x2A then [0x058, 0x05C]
  else if ty = 0x2B then [0x054, 0x058, 0x068]
  else if ty = 0x2C then [0x07C, 0x084, 0x098]
  else if ty = 0x2D then [0x044, 0x048, 0x054, 0x058, 0x064, 0x068, 0x074, 0x078, 0x084, 0x088, 0x094, 0x098, 0x0A4, 0x0A8,
    0x0B4, 0x0B8, 0x0C4, 0x0C8]
  else if ty = 0x2E then [0x040, 0x044, 0x048, 0x050]
  else if ty = 0x30 then [0x060, 0x064, 0x068, 0x06C, 0x070]
  else if ty = 0x31 then [0x060]
  else if ty = 0x33 then [0x048, 0x04C]
  else if ty = 0x34 then [0x048, 0x04C, 0x050, 0x054, 0x058, 0x05C, 0x060, 0x064]
  else if ty = 0x40 then [0x04C, 0x050, 0x054, 0x058, 0x05C, 0x060, 0x064, 0x068, 0x06C, 0x088, 0x08C, 0x104, 0x108, 0x10C,
    0x114, 0x11C]
  else if ty = 0x41 then [0x04C, 0x050, 0x054, 0x058, 0x05C]
  else if ty = 0x4A then [0x054, 0x060]
  else if ty = 0x4C then [0x044, 0x048, 0x04C]
  else if ty = 0x4D then [0x050, 0x054, 0x058, 0x05C, 0x060]
  else []

/-- Offsets of the registers whose reset value the tables call saved, measured, plan, fused, strap, cold, per part, per board or per core:
a block reset leaves them. -/
def savedRegs (ty : Nat) : List Nat :=
  if ty = 0x00 then [0x040, 0x044, 0x048, 0x058, 0x100, 0x104, 0x108, 0x11C, 0x140, 0x144, 0x148, 0x14C, 0x150, 0x154, 0x158,
    0x15C, 0x160, 0x164, 0x168, 0x16C, 0x170, 0x174, 0x178, 0x17C, 0x180]
  else if ty = 0x01 then [0x198]
  else if ty = 0x08 then [0x058, 0x060, 0x064, 0x0C8, 0x184]
  else if ty = 0x11 then [0x040, 0x048, 0x088]
  else if ty = 0x12 then [0x040, 0x048]
  else if ty = 0x20 then [0x050]
  else if ty = 0x21 then [0x110]
  else if ty = 0x23 then [0x040]
  else if ty = 0x26 then [0x040, 0x050]
  else if ty = 0x29 then [0x07C]
  else if ty = 0x2A then [0x060]
  else if ty = 0x2B then [0x044, 0x048, 0x04C, 0x050, 0x060, 0x064]
  else if ty = 0x2C then [0x040, 0x05C, 0x064, 0x0A0, 0x0A4, 0x0A8, 0x0AC]
  else if ty = 0x2E then [0x04C]
  else if ty = 0x30 then [0x040, 0x054, 0x058, 0x074]
  else if ty = 0x32 then [0x040, 0x044, 0x050]
  else if ty = 0x33 then [0x044, 0x050, 0x054, 0x058, 0x05C, 0x060, 0x064]
  else if ty = 0x34 then [0x068, 0x06C]
  else if ty = 0x40 then [0x084, 0x100, 0x118, 0x140]
  else if ty = 0x41 then [0x044, 0x048, 0x060, 0x070, 0x074]
  else if ty = 0x4A then [0x044, 0x048, 0x04C, 0x058, 0x05C]
  else []

end Sys2Proof.Machine
end

