-- ==== Sys2Proof/Config.lean ====
section
/-!
DEFINITION. What the spec leaves open: free values, and the cryptographic functions, which stay uninterpreted.
Nothing here has a body, so no proof can rest on a value.
-/

namespace Sys2Proof.Config

/-- DESIGN CHOICE (log 2). The n-th free value of a run: random numbers and values the spec leaves open. -/
opaque freeValue : Nat → BitVec 64

/-- DESIGN CHOICE (log 6). HMAC-SHA-256 of a message under the key named by a number (R50). -/
opaque hmacSha256 : Nat → List Byte → BitVec 256

/-- DESIGN CHOICE (log 6). AES-256-GCM tag check: key, nonce, associated data, ciphertext, tag. -/
opaque gcmOk : Nat → List Byte → List Byte → List Byte → List Byte → Bool

/-- DESIGN CHOICE (log 6). AES-256-GCM decryption: key, nonce, ciphertext. -/
opaque gcmOpen : Nat → List Byte → List Byte → List Byte

/-- DESIGN CHOICE (log 6). AES-256-GCM encryption and tag: key, nonce, associated data, plaintext. -/
opaque gcmSeal : Nat → List Byte → List Byte → List Byte → List Byte × List Byte

/-- DESIGN CHOICE (log 6). RFC 3394 key unwrap: KEK, wrapped block; none where the check fails. -/
opaque unwrap3394 : Nat → List Byte → Option Nat

/-- DESIGN CHOICE (log 6). ECDH P-384 with the one-step key derivation of R333: static key, peer public key, FixedInfo. -/
opaque ecdhKek : Nat → List Byte → List Byte → Nat

/-- DESIGN CHOICE (log 6). Whether a point lies on P-384 and is not the point at infinity (R333). -/
opaque onCurve : List Byte → Bool

/-- DESIGN CHOICE (log 6). AES-256 of a zero block under a key: its first three bytes (R335). -/
opaque kcv : Nat → BitVec 24

/-- DESIGN CHOICE (log 6). SHA-384. -/
opaque sha384 : List Byte → List Byte

/-- DESIGN CHOICE (log 6). ECDSA P-384: public key, message, signature. -/
opaque ecdsaOk : List Byte → List Byte → List Byte → Bool

/-- DESIGN CHOICE (log 6). The fused digest of the firmware public key (R370). -/
opaque fusedDigest : List Byte

/-- DESIGN CHOICE (log 6). The fused security-version floor (R370). -/
opaque fusedFloor : Nat

/-- DESIGN CHOICE (log 17). Repair rows that the mode registers of a DRAM device report free for a bank group, before any repair: keyed by the place (R311). -/
opaque repairRows : Nat → Nat

/-- DESIGN CHOICE (log 37). RTC seconds of the manufacture date in the Attic identity records (R411). -/
opaque manufactured : Nat

/-- DESIGN CHOICE (log 37). TLC general-area blocks of a region that are spare (R418). -/
opaque spareBlocks : Nat → Nat

end Sys2Proof.Config
end

