-- ==== Sys2Proof/Machine/PartsA.lean ====
section
/-!
DEFINITION. The parts of the state that belong to the pages, islands, regions and admin queues, the Steward complex,
the Attic, the sequencer and the Fault Collector (chapters 01, 02, 14, 15 and 17). Registers are not here: they are in
the register file.
-/

namespace Sys2Proof.Machine

/-- The hub end of a die link, keyed by the page of the far die: failed retries of the current flit, and whether the link is down (R11). -/
structure DieLink where
  retries : Nat := 0
  down : Bool := false
  deriving DecidableEq, Repr

/-- A clock island: in reset; clock gated for a frequency change; the frequency that change goes to (R16, R17, R402). -/
structure Island where
  inReset : Bool := true
  gated : Bool := false
  target : Option Nat := none
  deriving DecidableEq, Repr

/-- What a page holds beside its registers: its drain timeout has expired in this DRAINING; until when its logic is held in reset;
when its last reset took effect; its start-up is one after a reset; the longest outage of that reset's level, in ns (R22, R25). -/
structure PageInfo where
  drainExpired : Bool := false
  heldUntil : Nat := 0
  resetAt : Nat := 0
  afterReset : Bool := false
  outage : Nat := 5000000
  deriving DecidableEq, Repr

/-- Why a region is in BYPASS (R22, R26, R286, R291, R293). -/
inductive BypassKind where
  | runtime
  | retrain
  | speed
  | repair
  deriving DecidableEq, Repr

/-- A region's BYPASS and region write buffer: the BYPASS in force and when it began; a runtime request held while a
sequence runs (R289); an end of the runtime BYPASS asked for while an operation runs within it (R26); an operation runs;
the bytes queued in the region write buffer, by DPA (R14, R24); a reset that waits for the end of a hard-repair step (R290), with its cause and the operations
it completes. -/
structure RegionState where
  bypass : Option BypassKind := none
  since : Nat := 0
  request : Bool := false
  ending : Bool := false
  opRuns : Bool := false
  buffer : KMap Byte := []
  resetDue : Option (Nat × List Nat) := none
  deriving DecidableEq, Repr

/-- A command the device has fetched (R45, R47): its opcode and fields; started, that is, its journal entry ENTERED is written (R34);
its effect has begun; its operation identifier; SQ_HEAD after its fetch; its CQE is to be discarded (R34, R493). -/
structure Outstanding where
  op : Nat
  cmd : AdminCmd
  started : Bool
  running : Bool
  opId : Nat
  sqHead : Nat
  discard : Bool
  deriving DecidableEq, Repr

/-- A completion waiting to be written to its queue (table "Completion queue entry"). -/
structure Cqe where
  cid : Nat
  sqHead : Nat
  sqId : Nat
  status : Nat
  result0 : Nat
  result1 : Nat
  opId : Nat
  deriving DecidableEq, Repr

/-- An admin queue pair (R44 to R48): bases, entries, indices, phase; running; halted; vector and coalescing; entries not yet
signalled; held completions. -/
structure AdminQ where
  sqBase : Nat
  cqBase : Nat
  sqSize : Nat
  cqSize : Nat
  sqHead : Nat := 0
  sqTail : Nat := 0
  cqHead : Nat := 0
  cqTail : Nat := 0
  phase : Bool := true
  halted : Bool := false
  vector : Nat
  coalUs : Nat := 0
  coalN : Nat := 0
  unsignalled : Nat := 0
  held : List Cqe := []
  deriving DecidableEq, Repr

/-- An entry of the command journal (R364). -/
structure JournalEntry where
  jseq : Nat
  fn : Nat
  op : Nat
  sq : Nat
  cid : Nat
  state : Nat
  step : Nat
  target : Nat
  status : Nat
  result0 : Nat
  result1 : Nat
  opId : Nat
  time : Nat
  deriving DecidableEq, Repr

/-- A challenge issued and not used: its value, its function, when it was issued (R50). -/
structure Challenge where
  value : BitVec 64
  fn : Fn
  at_ : Nat
  deriving DecidableEq, Repr

/-- The host side (chapter 02): queue pairs by number, one map a function; outstanding commands, oldest first; the journal, newest
first; the next journal sequence and operation identifier; challenges; injection grants by page (R440); MSI-X table dwords and
pending bits by function (BAR4); pages routed to a vector (R52); result records waiting, by register key of their header (R43);
sources routed to the Fault Collector and not yet arrived (R427); when a rate-limited source last fired. -/
structure HostSide where
  qps0 : KMap AdminQ := []
  qps1 : KMap AdminQ := []
  cmds : List Outstanding := []
  journal : List JournalEntry := []
  nextJseq : Nat := 1
  nextOp : Nat := 1
  challenges : List Challenge := []
  grants : KMap Nat := []
  msix0 : KMap Word := []
  msix1 : KMap Word := []
  msixPend0 : List Nat := []
  msixPend1 : List Nat := []
  vectors0 : KMap Nat := []
  vectors1 : KMap Nat := []
  results : KMap (List (List Nat)) := []
  overflow : List Nat := []
  routed : List (Nat × Nat × Nat) := []
  limits : KMap Nat := []
  bistRuns : KMap Nat := []
  deriving DecidableEq, Repr

/-- The Steward complex beside its registers (R357 to R369): times of the transients of the last hour; checkpoint sequence; which
halves are valid and their checkpoint sequences; bytes in the current replay log; the undo records of the current half (line
address and old bytes, newest first); input records in it; outputs released since the checkpoint; the suppressed-output count
reached and the count to reach in a replay; when the outage began; the watchdog last written; NMI held; the core that failed
BIST in RECOVERING; the swap or live activation in progress with its operation; SRAM contents. -/
structure StewardState where
  transients : List Nat := []
  ckSeq : Nat := 0
  valid0 : Bool := false
  valid1 : Bool := false
  seq0 : Nat := 0
  seq1 : Nat := 0
  logBytes : Nat := 0
  undo : List (Nat × List Byte) := []
  inputs : Nat := 0
  released : Nat := 0
  replaySeen : Nat := 0
  replayTo : Option Nat := none
  outageAt : Option Nat := none
  wdogAt : Nat := 0
  nmiHeld : Bool := false
  failing : Option Nat := none
  live : Option (Nat × Nat) := none
  raiseFloor : Bool := false
  swap : Option (Nat × Nat × Bool) := none
  transientSwap : Bool := false
  previousBank : Option Nat := none
  nextBank : Option Nat := none
  bootBack : Bool := false
  serviceS : KMap Nat := []
  sram : KMap Byte := []
  deriving DecidableEq, Repr

/-- An Attic operation in progress (R380): a page program with its buffer, or a block erase. -/
inductive AtticOp where
  | program (page : Nat) (data : KMap Byte)
  | erase (block : Nat)
  deriving DecidableEq, Repr

/-- A reset that waits for the Attic (R383): the page it resets, its cause, since when it waits, the operation it completes (0 none). -/
structure DeferredReset where
  page : Nat
  cause : Nat
  since : Nat
  op : Nat
  deriving DecidableEq, Repr

/-- A block of the Attic: bytes that are not 0xFF, by offset in the block; pages programmed since its erase (ERASED_MARK). -/
structure AtticBlock where
  data : KMap Byte := []
  marks : List Nat := []
  deriving DecidableEq, Repr

/-- A command sequence being entered into the Attic window (R380, R381): cycles seen and when the first came; after the command
byte, the command; the target page; the page buffer. -/
structure AtticSeq where
  cycles : Nat := 0
  since : Nat := 0
  command : Option Nat := none
  target : Option Nat := none
  buffer : KMap Byte := []
  deriving DecidableEq, Repr

/-- The Attic (R379 to R388): blocks; erase counts by block; retired blocks; blocks left by an abandoned erase; the sequence being entered; status mode and a return to
array reads waiting; the operation in progress; resets deferred; the open page registers, prefetch buffer and branch cache
(newest first), by page or line number; spare blocks in use; ATTIC_RDSTAT; records read with EARLY_WARN and when; configuration records with their sequence;
banks whose image is invalid. -/
structure AtticState where
  blocks : KMap AtticBlock := []
  erases : KMap Nat := []
  retired : List Nat := []
  abandoned : List Nat := []
  seq : AtticSeq := {}
  statusMode : Bool := false
  readModeWaits : Bool := false
  op : Option AtticOp := none
  deferred : List DeferredReset := []
  openPages : List Nat := []
  buffer : List Nat := []
  branch : List Nat := []
  used : List Nat := []
  rdstat : Nat := 0
  rewrites : List (Nat × Nat) := []
  records : KMap (Nat × List Byte) := []
  invalidBanks : List Nat := []
  deriving DecidableEq, Repr

/-- The sequencer beside its registers (R390 to R400): the device holds SEQ_SYNC; when the current state began; rails whose PG filter
has passed; rails discharged or timed out in this state; the state's work is done; a flush must close before state 14 going down ends;
the cascade's down wait has passed; stay down until the detector trips and recovers; the off time in ms; when state 0 was entered; the last power-up
followed a fault; the cause to record at the next power-up; references present; power-loss detector recovered; state 13 clocks stopped; local stepping after a stall. -/
structure SeqState where
  holding : Bool := true
  since : Nat := 0
  stable : List Nat := []
  discharged : List Nat := []
  released : Bool := false
  flushWait : Bool := false
  cascWait : Bool := false
  seqOutAt : Nat := 0
  stayDown : Bool := false
  offMs : Nat := 0
  zeroAt : Nat := 0
  upAt : Nat := 0
  afterFault : Bool := false
  nextCause : Nat := 0
  localStep : Bool := false
  tripSeen : Bool := false
  deriving DecidableEq, Repr

/-- A fault class (R428, R432): its settings; while pending the settings in force, the highest step taken and the last one; the page and severity of the
firing that started a running grace timer, and whether that page has received the fallback. -/
structure FaultClass where
  steward : Bool
  fallback : Nat
  grace : Nat
  pending : Bool := false
  step : Nat := 0
  last : Nat := 0
  useFallback : Nat := 0
  useSteward : Bool := false
  timer : Option (Nat × Nat) := none
  timerStepped : Bool := false
  deriving DecidableEq, Repr

/-- The Fault Collector beside its registers: classes by 32 × BLOCK_TYPE + source that differ from their defaults. -/
structure FcState where
  classes : KMap FaultClass := []
  deriving DecidableEq, Repr

/-- A chip reset requested that has not taken effect (R405): the cause R407 records, and the words of the fault record of step 5 (R438), 0 for another cause. -/
structure ChipDue where
  cause : Nat
  w0 : Nat
  w1 : Nat
  w2 : Nat
  deriving DecidableEq, Repr

/-- Chapter 01: die links, islands, pages, regions; internal operations to reissue when an island's units reach SERVICE (R17);
pages recorded FENCED or FAILED (R20) and pages the Attic configuration lists as in service (R37);
a chip reset requested. -/
structure ArchState where
  links : KMap DieLink := []
  islands : KMap Island := []
  pages : KMap PageInfo := []
  regions : KMap RegionState := []
  reissue : List (Nat × Handshake) := []
  recorded : List Nat := []
  inService : List Nat := allPages
  chipDue : Option ChipDue := none
  deriving DecidableEq, Repr

end Sys2Proof.Machine
end

