-- ==== Sys2Proof/Machine/PartsB.lean ====
section
/-!
DEFINITION. The parts of the state that belong to tenants, windows, objects and the two tiers (chapter 03).
-/

namespace Sys2Proof.Machine

/-- A tenant (R58, R59): window quota (0 none); current STORAGE key slot; made by a mirror (TENANT_IMPLIED);
being erased; weight and cap of its share (R153). -/
structure Tenant where
  quota : Nat := 0
  slot : Nat := 0
  implied : Bool := false
  erasing : Bool := false
  weight : Nat := 16
  cap : Nat := 0
  deriving DecidableEq, Repr

/-- A window descriptor (table "Window descriptor"). -/
structure Window where
  valid : Bool := false
  revoking : Bool := false
  write : Bool := false
  read : Bool := false
  pinSet : Bool := false
  gen : Nat := 0
  tenant : Nat := 0
  object : Nat := 0
  firstPage : Nat := 0
  sizePages : Nat := 0
  pinFirst : Nat := 0
  pinCount : Nat := 0
  deriving DecidableEq, Repr

/-- An object table entry (table "Object table entry"), and whether WINDOW_CREATE made it (R76). -/
structure Object where
  valid : Bool := false
  readOnly : Bool := false
  gather : Bool := false
  destroying : Bool := false
  homeSide : Nat := 0
  owner : Nat := 0
  sizePages : Nat := 0
  pageList : Nat := 0
  aliasCount : Nat := 0
  keySlot : Nat := 0
  single : Bool := false
  deriving DecidableEq, Repr

/-- States of a page in the Cellar map (table "Cellar-map states"). -/
inductive MapState where
  | free
  | mapped
  | empty
  | gather
  | scrubbing
  | poisoned
  | retired
  deriving DecidableEq, Repr

/-- A Cellar-map entry (table "Cellar-map entry"): state; location, bits 36:3; retry hint; and the object page that claims it. -/
structure MapEntry where
  state : MapState := .free
  loc : Nat := 0
  hint : Nat := 0
  object : Nat := 0
  index : Nat := 0
  deriving DecidableEq, Repr

/-- A window-cache entry (R69): the window index and whether it is locked. -/
structure CachedWindow where
  idx : Nat
  locked : Bool
  deriving DecidableEq, Repr

/-- A PRELOAD fill in flight (R71): the window and generation it was asked for, stale, reissues so far, the command's operation. -/
structure WindowFill where
  idx : Nat
  gen : Nat
  stale : Bool
  tries : Nat
  op : Nat
  deriving DecidableEq, Repr

/-- A translation-cache fill in flight: object, object page, stale (R71). -/
structure TransFill where
  object : Nat
  page : Nat
  stale : Bool
  deriving DecidableEq, Repr

/-- What a fence serves (R74, R76, R78): a window's revocation, the withdrawal of rights or size by WINDOW_MODIFY. -/
inductive FenceKind where
  | revoke
  | modify (write read : Bool) (size : Nat)
  deriving DecidableEq, Repr

/-- A fence in progress (R74): window; what it serves; its operation (0: part of a larger one); when it began; messages abandoned;
REVOKE_LATE already raised. -/
structure Fence where
  idx : Nat
  kind : FenceKind
  op : Nat
  since : Nat
  abandoned : Nat
  late : Bool
  deriving DecidableEq, Repr

/-- A withdrawal in progress: windows still to fence, in order; objects to destroy then; the tenant a TENANT_ERASE removes; the operation it serves;
messages abandoned, windows revoked, pages released and slots zeroised so far; the Attic erase of a TENANT_ERASE is awaited (R76, R344). -/
structure Withdraw where
  windows : List Nat
  objects : List Nat
  tenant : Option Nat
  op : Nat
  abandoned : Nat := 0
  revoked : Nat := 0
  released : Nat := 0
  zeroised : Nat := 0
  erasing : Bool := false
  deriving DecidableEq, Repr

/-- Where the work on one page of a MIGRATE stands (R82): it waits for room in the budget, it copies, it is stalled, its switch is on its way. -/
inductive MigPhase where
  | claim
  | copy
  | recopy (round : Nat)
  | stalled
  | switching
  deriving DecidableEq, Repr

/-- A MIGRATE in progress (R80 to R85): operation, function whose command it is, object, direction; the work left as pairs of object page and destination page
with whether it is a retry; the phase of the first; the source page; lines the running pass copies, none for all; lines written in it meanwhile; its writes are stalled; the MSEQ of the record of its switch; counts. -/
structure Migration where
  op : Nat
  object : Nat
  demote : Bool
  work : List (Nat × Nat × Bool)
  phase : MigPhase
  source : Nat
  todo : List Nat := []
  lines : List Nat := []
  stalled : Bool := false
  switchMseq : Nat := 0
  switched : Nat := 0
  rounds : Nat := 0
  stalls : Nat := 0
  deriving DecidableEq, Repr

/-- Chapter 03: tenants; window table; object table; indices and object IDs released, oldest first; page map by DPA bits 48:14;
Cellar page count; window cache, most recently used first; fills; translation cache, most recently installed first; fences;
withdrawals in progress; migration locks by object page with the operation that holds each; migrations. -/
structure WinState where
  tenants : KMap Tenant := []
  windows : KMap Window := []
  objects : KMap Object := []
  freeWindows : List Nat := []
  freeObjects : List Nat := []
  map : KMap MapEntry := []
  cellarPages : Nat := 5410794700
  cache : List CachedWindow := []
  fills : List WindowFill := []
  trans : List (Nat × Nat) := []
  transFills : List TransFill := []
  fences : List Fence := []
  withdraws : List Withdraw := []
  locks : KMap Nat := []
  migrations : List Migration := []
  deriving DecidableEq, Repr

end Sys2Proof.Machine
end

