-- ==== Sys2Proof/Machine/PartsC.lean ====
section
/-!
DEFINITION. The parts of the state that belong to the fabric and the twin: queue pairs, trackers, caches, planes, rates,
dirty accounting and the harvest, mirroring, leases and logs (chapters 04, 05, 06, 07 and 09).
-/

namespace Sys2Proof.Machine

/-- States of a queue pair (table "QP states"). -/
inductive QpState where
  | free
  | init
  | ready
  | error
  | closing
  deriving DecidableEq, Repr

/-- The packet an acknowledgement names: its number among the arrivals, plane, UDP source port, PSN, TX_COUNT (R128, R129). -/
structure Trigger where
  arrival : Nat
  plane : Nat
  udpSrc : Nat
  psn : Nat
  txCount : Nat
  deriving DecidableEq, Repr

/-- A reply owed to a peer that waits for packets ahead of it on its path (R129): its trigger, and the NAK's syndrome,
DETAIL and RETRY_AFTER. -/
structure Owed where
  trig : Trigger
  nak : Option (Nat × Nat × Nat)
  deriving DecidableEq, Repr

/-- A queue pair: the fields of its context (table "QP context"); then its receipt state (R122, R123): PSNs received above CUM_PSN,
new packets above it not yet received or refused, whether it holds a receive-window slot; packets received since the last ACK, the
trigger of the running ACK delay and when it began, the last packet received (R128); the plane of its previous response (R152);
when CMSN + 1 last had an arrival (R127); replies owed (R129). -/
structure Qp where
  state : QpState := .free
  sealReq : Bool := false
  txKeySel : Bool := false
  peer : Nat := 0
  tenant : Nat := 0
  respPlanes : Nat := 0
  peerQpn : Nat := 0
  cumPsn : Nat := 0
  cmsn : Nat := 0
  respPsn : Nat := 0
  failMsn : Nat := 0
  ackDelay : Nat := 0
  ackEvery : Nat := 0
  entropyBase : Nat := 0
  rxKey0 : Nat := 0
  rxKey1 : Nat := 0
  txKey0 : Nat := 0
  txKey1 : Nat := 0
  timeout : Nat := 0
  openMsgs : Nat := 0
  failCause : Nat := 0
  rxPkts : Nat := 0
  rxBytes : Nat := 0
  txRespBytes : Nat := 0
  dupPkts : Nat := 0
  naks : Nat := 0
  holds : Nat := 0
  lastActivity : Nat := 0
  received : List Nat := []
  fresh : List Nat := []
  slot : Bool := false
  sinceAck : Nat := 0
  delay : Option (Trigger × Nat) := none
  lastRx : Option Trigger := none
  lastPlane : Nat := 7
  headArrival : Nat := 0
  owed : List Owed := []
  deriving DecidableEq, Repr

/-- States of a message tracker (table "Write message tracker"). -/
inductive TrackState where
  | open_
  | placed
  | mirrored
  deriving DecidableEq, Repr

/-- A message tracker (table "Message tracker contents"): for a WRITE, or for a READ; all its bytes came in one packet (series 9 of R448). -/
structure Tracker where
  read : Bool
  handle : Nat
  offset : Nat
  msgLen : Nat
  placed : Nat := 0
  mirrored : Nat := 0
  lastArrival : Nat
  trigger : Option Trigger := none
  state : TrackState := .open_
  single : Bool := false
  deriving DecidableEq, Repr

/-- An admitted WRITE packet on its way to its placement point (R105): queue pair, trigger, MSN, handle, window offset of its first byte;
the object and the pieces (object page, offset in the page, length); object pages it made dirty; the pages' owner; PLACE_FOLD carried; poison map; sealed
with the slot, nonce, additional data and KEY_SEL; tag; payload; ACK_REQ. -/
structure Placement where
  qpn : Nat
  trig : Trigger
  msn : Nat
  handle : Nat
  woff : Nat
  object : Nat
  pieces : List (Nat × Nat × Nat)
  newPages : List Nat
  owner : Nat
  fold : Nat
  poison : Nat
  sealing : Option (Nat × List Byte × List Byte × Nat)
  tag : List Byte
  payload : List Byte
  ackReq : Bool
  deriving DecidableEq, Repr

/-- A read message being answered (R135): the number of its packet among the arrivals, queue pair, MSN, RESEND, handle, OFFSET of the message, object and first object page of its window; pieces of the
message left to build (message offset and length); the pieces flash or the twin has supplied, by message offset, with their bytes and poison map; the pages the
twin has been asked for. -/
structure ReadJob where
  arrival : Nat
  qpn : Nat
  msn : Nat
  resend : Bool
  handle : Nat
  offset : Nat
  msgLen : Nat
  object : Nat
  firstPage : Nat
  left : List (Nat × Nat)
  got : List (Nat × List Byte × Nat) := []
  asked : List Nat := []
  deriving DecidableEq, Repr

/-- A READ_RESP queued to a plane: queue pair, tenant, peer, MSN, RESEND, handle, read OFFSET, MSG_LEN, MSG_OFFSET, poison map, data, last of its message. -/
structure Response where
  qpn : Nat
  tenant : Nat
  peer : Nat
  msn : Nat
  resend : Bool
  handle : Nat
  offset : Nat
  msgLen : Nat
  msgOff : Nat
  poison : Nat
  data : List Byte
  last : Bool
  deriving DecidableEq, Repr

/-- A packet the device sends on the fabric: plane, 802.1Q tag (PCP × 4,096 + VID), destination address, UDP source port, ECN and DSCP, header fields, extension bytes,
payload bytes (with the tag when sealed), PLACE_FOLD. -/
structure PxtOut where
  plane : Nat
  tag : Option Nat
  dstIp : Nat
  udpSrc : Nat
  ecn : Nat
  dscp : Nat
  opcode : Nat
  flags : Nat
  dqpn : Nat
  psn : Nat
  msn : Nat
  txCount : Nat
  ext : List Byte
  payloadLen : Nat
  payload : List Byte
  fold : Nat
  deriving DecidableEq, Repr

/-- An entry of the QP context cache (R115, R117): dirty; chosen as victim; its write-back issued. -/
structure QpcEntry where
  qpn : Nat
  dirty : Bool
  victim : Bool := false
  issued : Bool := false
  deriving DecidableEq, Repr

/-- A context fetch: its QPN, the way is free and the fetch issued, stale (R117). -/
structure QpcFetch where
  qpn : Nat
  issued : Bool
  stale : Bool
  deriving DecidableEq, Repr

/-- A packet waiting in a miss queue (R116): its QPN, the frame, the delay a PROBE_REPLY to it reports, when it arrived. -/
structure Waiting where
  qpn : Nat
  frame : Frame
  delay : Nat
  since : Nat
  deriving DecidableEq, Repr

/-- A peer entry (table "Peer entry"). -/
structure Peer where
  addr : List Nat
  nextHop : List Nat
  planeEn : Nat
  probeLocal : Nat
  probePeer : Nat
  deriving DecidableEq, Repr

/-- The state of one peer on one plane: UP, last arrival, unanswered PROBEs, the PROBE outstanding and when it was sent (R120); RATE, ALPHA, CLEAN and
echo inputs (R147, R148); MARKED and SEEN (R144); token bucket in 1/256 B and when it was filled (R151); silent batches and responses
since the last batch (R158). -/
structure PeerPlane where
  up : Bool := true
  lastArrival : Nat := 0
  unanswered : Nat := 0
  probeId : Option Nat := none
  probeAt : Nat := 0
  rate : Nat := 0
  alpha : Nat := 0xFFFF
  clean : Nat := 0
  echoCe : Nat := 0
  echoTotal : Nat := 0
  marked : Nat := 0
  seen : Nat := 0
  bucket : Nat := 0
  bucketAt : Nat := 0
  silent : Nat := 0
  sent : Bool := false
  deriving DecidableEq, Repr

/-- A fabric plane: its port address; being taken out, with the operation; out of service by command; its port being trained to return, with the operation; queued responses; the tenant
the scheduler serves and the deficits (R154); the queue pair each tenant served last; when the power ceiling next lets a response go (R156);
queued exception frames, those admitted in the current second and that second (R88). -/
structure Plane where
  ip4 : Nat := 0
  ip6 : Nat := 0
  draining : Option Nat := none
  out : Bool := false
  returning : Option Nat := none
  queue : List Response := []
  current : Nat := 0
  deficits : KMap Nat := []
  lastQp : KMap Nat := []
  ceilingAt : Nat := 0
  exceptions : List ExceptionKind := []
  admitted : Nat := 0
  second : Nat := 0
  deriving DecidableEq, Repr

/-- Chapters 04 to 06: contexts as they stand and as last written back; trackers by QPN × 2^32 + MSN; placements and reads in progress; the
context cache by set, fetches, miss queues by plane; peers; peer-planes by 8 × peer + plane; planes; cap buckets by tenant in 1/8 B and when
they were filled (R155); PROBE_ID to use next; packets arrived so far. -/
structure FabricState where
  qps : KMap Qp := []
  saved : KMap Qp := []
  trackers : KMap Tracker := []
  placements : List Placement := []
  reads : List ReadJob := []
  cache : KMap (List QpcEntry) := []
  fetches : List QpcFetch := []
  missq : KMap (List Waiting) := []
  peers : KMap Peer := []
  peerPlanes : KMap PeerPlane := []
  planes : KMap Plane := []
  capBuckets : KMap (Nat × Nat) := []
  nextProbe : Nat := 1
  arrivals : Nat := 0
  deriving DecidableEq, Repr

/-- A dirty Loft page (R170, R175): its owner; the period of its last admitted write; written after the harvest snapshot (R176). -/
structure DirtyPage where
  owner : Nat
  period : Nat
  redirty : Bool := false
  deriving DecidableEq, Repr

/-- A write-gather page in use (R179 to R181): the Cellar page it holds, the tenant charged, the flash location its missing lines are filled from,
the lines present, the period of its last admitted write, and REDIRTY. -/
structure GatherPage where
  cellar : Nat
  tenant : Nat
  source : Option Nat
  present : List Nat
  period : Nat
  redirty : Bool := false
  deriving DecidableEq, Repr

/-- A harvest in progress (R176): the Loft page; its snapshot, by offset in the page; poisoned lines of the snapshot; MSEQ at the snapshot; the flash location its program has
ended at, while its sheaf is not sealed (R251). -/
structure Harvest where
  page : Nat
  data : KMap Byte
  poison : List Nat
  mseq : Nat
  programmed : Option Nat := none
  deriving DecidableEq, Repr

/-- A region's dirty accounting (R170 to R189): dirty pages by Loft page; HOLD and hold list; bytes newly charged in this period;
harvest rate in B/s, and what is left of it from earlier periods, in 1/100 B; wear bucket in 1/(86,400 × 10^9) B, full where nothing is saved
(DESIGN CHOICE, log 3), and when it was filled; gather pages free; gather pages in use; harvests; pages whose
budget is reserved for the twin's credits (R227). -/
structure Dirty where
  pages : KMap DirtyPage := []
  hold : Bool := false
  holdList : List Nat := []
  newBytes : Nat := 0
  rate : Nat := 0
  carry : Nat := 0
  credit : Int := 868339308036096000000000000
  creditAt : Nat := 0
  gatherFree : List Nat := []
  gather : KMap GatherPage := []
  harvests : List Harvest := []
  reserved : Nat := 0
  deriving DecidableEq, Repr

/-- Chapter 07: the regions' accounting; BAR2 writes waiting for room in the budget, DPA and bytes (R186); BAR2 writes admitted and posted to the Loft once the twin has
applied their frame, MSEQ, DPA and bytes (R54); wear buckets saved, with the RTC time in seconds (R188). -/
structure DurableState where
  regions : KMap Dirty := []
  waiting : List (Nat × List Byte) := []
  posts : List (Nat × Nat × List Byte) := []
  wearSaved : KMap (Int × Nat) := []
  deriving DecidableEq, Repr

/-- A sequenced frame sent and not yet applied at the twin (R222 to R224): the frame as last sent; when first and last sent; the write bytes
it carries for trackers, as QPN, MSN and count; pages it names; not yet sent for want of room among the 8,192 unapplied. -/
structure SentFrame where
  frame : TwinFrame
  firstAt : Nat
  lastAt : Nat
  bytes : List (Nat × Nat × Nat)
  pages : List Nat
  queued : Bool
  deriving DecidableEq, Repr

/-- What waits for a READ_DATA (R238): a fabric read's piece, the recovery of the page at a flash location, or of a Loft line, a page left behind. -/
inductive ReadWaiter where
  | job (qpn msn : Nat) (resend : Bool)
  | cellar (loc : Nat)
  | line (dpa : Nat)
  | leftBehind (page : Nat)
  deriving DecidableEq, Repr

/-- A READ_REQ outstanding: identifier, DPA, length, AFTER_SEQ, PURPOSE, resent already, who waits (R238). -/
structure ReadReq where
  id : Nat
  dpa : Nat
  len : Nat
  after : Nat
  purpose : Nat
  resent : Bool
  waiter : ReadWaiter
  deriving DecidableEq, Repr

/-- A resync or resume in progress (R235, R236): the operation (0 where it is not a command of this side), this side sends, it is a resume; FULL; the twin's log has arrived whole; extents left
as (Cellar, number); the extent now open; extents copied. -/
structure Resync where
  op : Nat
  sender : Bool
  resume : Bool
  full : Bool
  logIn : Bool
  left : List (Bool × Nat)
  copied : Nat
  deriving DecidableEq, Repr

/-- A ROLE_SWAP in progress (R239): operation, index range; its ROLE record is sequenced, and its MSEQ. -/
structure RoleSwap where
  op : Nat
  first : Nat
  last : Nat
  sentAt : Option Nat
  deriving DecidableEq, Repr

/-- An audit in progress (R240): operation, pages left, REPAIR, the AUDIT_IDs outstanding with their page, own digest and poison map, counts. -/
structure Audit where
  op : Nat
  left : List Nat
  repair : Bool
  rate : Nat
  open_ : List (Nat × Nat × List Byte × Nat) := []
  nextId : Nat := 1
  compared : Nat := 0
  mismatches : Nat := 0
  repaired : Nat := 0
  deriving DecidableEq, Repr

/-- Chapter 09: home map by window index (the SIDE); when the lease ends, LEASEs sent and not yet granted, last LEASE_GRANT received and sent,
next LEASE_ID; a SURVIVE or YIELD verdict taken in this SUSPECT; sequenced frames sent and unapplied; frames received out of order; by port: frames
received since the last MACK and the last frame received (MSEQ, TX_COUNT); the twin's last status word; log bitmaps as lists of extents, logging on;
READ_REQs and next REQ_ID; resync, role swap, audit; a READ_REQ of PURPOSE 1 failed since the last grant (R495); HARVESTED records applied, by page,
with their MSEQ, and the MSEQ of the last frame that wrote a page (R226); copies of a frame refused by their check, by MSEQ (R320); READ_REQs of the twin that wait for
their AFTER_SEQ: identifier, DPA, length, AFTER_SEQ; the twin's log has arrived whole since the last HELLO, the twin's LOG_VALID, the joiner's epoch was lower by more than 1 (R235), a HELLO has come in this pair state; RTTVAR by port, ns (R224); answers of commands
that wait until the mirror has applied their frames: MSEQ, operation, status, RESULT0, RESULT1 (R57). -/
structure TwinState where
  homes : KMap Nat := []
  leaseUntil : Nat := 0
  leases : KMap Nat := []
  grantRx : Nat := 0
  grantTx : Nat := 0
  nextLease : Nat := 1
  survive : Bool := false
  yielded : Bool := false
  sent : List SentFrame := []
  reorder : List TwinFrame := []
  rxSince : KMap Nat := []
  lastRx : KMap (Nat × Nat) := []
  twinStatus : Nat := 0
  logLoft : List Nat := []
  logCellar : List Nat := []
  logging : Bool := false
  reqs : List ReadReq := []
  nextReq : Nat := 1
  resync : Option Resync := none
  swap : Option RoleSwap := none
  audit : Option Audit := none
  readFailed : Bool := false
  harvested : KMap Nat := []
  written : KMap Nat := []
  checkFails : List Nat := []
  asks : List (Nat × Nat × Nat × Nat) := []
  peerLog : Bool := false
  peerLogValid : Bool := false
  epochGap : Bool := false
  seen : Bool := false
  rttvar : KMap Nat := []
  waits : List (Nat × Nat × Nat × Nat × Nat) := []
  deriving DecidableEq, Repr

end Sys2Proof.Machine
end

