-- ==== Sys2Proof/Machine/PartsD.lean ====
section
/-!
DEFINITION. The parts of the state that belong to energy, flash, DRAM, integrity, keys, ageing, records and counters
(chapters 08, 10, 11, 12, 13, 16, 18 and 19).
-/

namespace Sys2Proof.Machine

/-- States of a key slot (R330). -/
inductive SlotState where
  | empty
  | active
  | shadowed
  deriving DecidableEq, Repr

/-- A key slot of the Larder (R330 to R342): state; KIND; owner; key; the shadow; salt and counter (R336); latest programmed MARK and whether
a mark record is being programmed (R338); packets that had arrived when its rewrite was accepted (R340); the operation of the rewrite. -/
structure Slot where
  state : SlotState := .empty
  kind : Nat := 0
  owner : Nat := 0
  key : Nat := 0
  shadow : Option Nat := none
  salt : Nat := 0
  counter : Nat := 0
  mark : Nat := 0
  marking : Bool := false
  preRewrite : Nat := 0
  rewriteOp : Nat := 0
  deriving DecidableEq, Repr

/-- A request to the Larder (table "Request descriptor"): its fields; it was accepted before the rewrite of its slot that runs (R340); how often it was suspended and
since when it waits suspended (R348); the engine it mismatched on (R347). -/
structure LarderReq where
  op : Nat
  prio : Nat
  slot : Nat
  client : Nat
  tag : Nat
  aadLen : Nat
  len : Nat
  salt : Nat
  counter : Nat
  dataRef : Nat
  pre : Bool := false
  suspended : Nat := 0
  since : Nat := 0
  failedOn : Option Nat := none
  deriving DecidableEq, Repr

/-- A STREAM_OPEN in progress (R352 to R355): operation, slot, salt and counter of its nonce, additional data, tag; object, first object page, ciphertext length; ciphertext
taken so far. -/
structure Stream where
  op : Nat
  slot : Nat
  salt : Nat
  counter : Nat
  aad : List Byte
  tag : List Byte
  object : Nat
  first : Nat
  ctLen : Nat
  ct : List Byte := []
  deriving DecidableEq, Repr

/-- Chapter 13: slots; requests waiting, in order of arrival; units running, by engine; units suspended; when an engine last mismatched (R347); times of the last second's failed
health-test samples (R350); streams; slots whose Attic record is superseded and not yet erased (R349); the slots as the Attic keeps them while a class D alarm has erased their
volatile form (R350, R351). -/
structure LarderState where
  slots : KMap Slot := []
  queue : List LarderReq := []
  engines : KMap LarderReq := []
  paused : List LarderReq := []
  mismatchAt : KMap Nat := []
  healthFails : List Nat := []
  streams : List Stream := []
  tombs : List Nat := []
  stash : KMap Slot := []
  deriving DecidableEq, Repr

/-- Chapters 11 and 12: Loft bytes that are not 0, by DPA (what nothing has written reads as 0, DESIGN CHOICE, log 4); poisoned lines by line number
(DPA / 64); pages whose content is still only in their Cellar shadow (R216); lines under recovery with the step that runs, 0 where the line waits for an entry, and whether the Gleaner found it (R307, R308); parts of such lines
written meanwhile, oldest first; BAR2 reads that wait for a recovery: function, DPA, length. -/
structure LoftState where
  bytes : KMap Byte := []
  poison : KMap Bool := []
  away : KMap Bool := []
  recov : KMap (Nat × Bool) := []
  merges : List (Nat × List Byte) := []
  reads : List (Fn × Nat × Nat) := []
  deriving DecidableEq, Repr

/-- A programmed flash page (table "Stored page layout"): KIND, page number, key slot with salt and counter of its seal, lines stored as
poisoned, and the plaintext bytes that are not 0, by offset. -/
structure FlashPage where
  kind : Nat
  page : Nat
  slot : Nat
  salt : Nat
  ctr : Nat
  poison : List Nat := []
  data : KMap Byte := []
  deriving DecidableEq, Repr

/-- Who waits for a flash read (R255): a piece of a fabric READ, the fill of a gather page, the load of a non-resident Loft page (R216), a READ_REQ of the twin with its range (R238), the recovery of a
Loft line (R307), the Gleaner (R325). -/
inductive Parked where
  | job (qpn msn : Nat) (resend : Bool)
  | fill (gather : Nat)
  | load (page : Nat)
  | twin (id dpa len : Nat)
  | line (dpa : Nat)
  | glean
  deriving DecidableEq, Repr

/-- A miss entry of a region (R255, R256): flash location, page number (bits 48:14 of its DPA), the ladder step being run and the retry-table step at step 2,
the tenant of the first parked requester, who is parked. -/
structure Miss where
  loc : Nat
  page : Nat
  step : Nat
  sub : Nat := 0
  tenant : Nat
  parked : List Parked
  deriving DecidableEq, Repr

/-- A read that waits for a miss entry: location, page, tenant, who waits. -/
structure MissWait where
  loc : Nat
  page : Nat
  tenant : Nat
  who : Parked
  deriving DecidableEq, Repr

/-- A staged page (R262, R263): its page number, held by a hint until a time, read since it was staged. -/
structure Staged where
  page : Nat
  holdUntil : Nat
  used : Bool
  deriving DecidableEq, Repr

/-- A staging read in flight: its page, stale, and the hint it serves (0 none). -/
structure StageFill where
  page : Nat
  stale : Bool
  op : Nat
  deriving DecidableEq, Repr

/-- A READAHEAD hint in progress: operation, pages not yet settled, pages staged. -/
structure HintRun where
  op : Nat
  left : List Nat
  staged : Nat
  deriving DecidableEq, Repr

/-- A stride tracker of a region (R261): QP, handle, latest page, latest difference and how often it repeated, stride recognised, depth. -/
structure Stride where
  qpn : Nat
  handle : Nat
  last : Nat
  diff : Int := 0
  streaming : Bool := false
  depth : Nat := 0
  deriving DecidableEq, Repr

/-- A band being filled (R250, R251): its LUN and block, the NPAGE offset of the sheaf being filled, the channels used in it. -/
structure OpenBand where
  lun : Nat
  block : Nat
  page : Nat := 0
  used : List Nat := []
  deriving DecidableEq, Repr

/-- Chapter 10: flash pages by location; bands being filled by 66 × region + key (0 to 63 the pairs of LUN and plane, 64 relocation, 65 the reserve log); bands
written since their erase; the open band a region takes next; miss entries and reads
waiting for one; staged pages by region, most recently used first; staging reads; hints; stride trackers by region, most recently used first; P/E
counts and warning counts by band; regions that relocate, and bands chosen for relocation; bands being erased; blocks retired, by location of their first page;
pages to relocate one by one; grown bad blocks by LUN. -/
structure CellarState where
  flash : KMap FlashPage := []
  open_ : KMap OpenBand := []
  used : KMap Bool := []
  rotor : KMap Nat := []
  misses : List Miss := []
  missWaits : List MissWait := []
  staged : KMap (List Staged) := []
  stageFills : List StageFill := []
  hints : List HintRun := []
  strides : KMap (List Stride) := []
  pe : KMap Nat := []
  warns : KMap Nat := []
  relocating : List Nat := []
  victims : List Nat := []
  erasing : List Nat := []
  bad : List Nat := []
  rewrites : List Nat := []
  grown : KMap Nat := []
  deriving DecidableEq, Repr

/-- A rank of a channel (R278, R279, R294): refresh debt; intervals refreshed since its trackers were cleared; in precharge power-down. -/
structure Rank where
  debt : Int := 0
  intervals : Nat := 0
  powerDown : Bool := false
  deriving DecidableEq, Repr

/-- An entry of an activation tracker (R281). -/
structure ActEntry where
  row : Nat
  count : Nat
  tenant : Nat
  mixed : Bool
  deriving DecidableEq, Repr

/-- A bank: its open row and its activation tracker, by entry number (R277, R281). -/
structure Bank where
  row : Option Nat := none
  entries : List ActEntry := []
  deriving DecidableEq, Repr

/-- A tenant's throttle in a region: when it ends and k (R283). -/
structure Throttle where
  until_ : Nat
  k : Nat
  deriving DecidableEq, Repr

/-- Kinds of training sequence (R286, R291, R293). -/
inductive TrainKind where
  | retrain
  | speed
  | repair
  deriving DecidableEq, Repr

/-- Phases of a sequence (table "In-service training sequence"), with the repair step and the steps of a speed change before its verify. -/
inductive TrainPhase where
  | quiesce
  | zq
  | csCa
  | read
  | writeLevel
  | writeCentre
  | dfe
  | repairStep
  | switch
  | verify
  deriving DecidableEq, Repr

/-- A sequence running in a region: kind, phase, step within it, channels (bits), speed it goes to, run under R289 without a BYPASS; for a repair the
channel, rank and row under repair. -/
structure Train where
  kind : TrainKind
  phase : TrainPhase
  step : Nat
  channels : Nat
  speed : Nat
  stalled : Bool
  repair : Nat × Nat × Nat := (0, 0, 0)
  deriving DecidableEq, Repr

/-- A channel's training bookkeeping: DIMM temperature at the last committed training; sensor unreadable since; correctable errors of the past hours that
count for R287, with their times; hard repairs due, as rank and row. -/
structure ChannelInfo where
  trainedAt : Int := 0
  unreadable : Bool := false
  errors : List Nat := []
  repairs : List (Nat × Nat) := []
  deriving DecidableEq, Repr

/-- Chapter 11: ranks by 4 × channel + rank; banks; throttles by 4,096 × region + tenant; sequences by region; committed sets by 3 × channel + speed and
working sets by channel, each named by the number of the sequence that made it; channels' bookkeeping; regions whose request waits for a healthy twin with the time
it was first refused; the ephemeral Loft key and whether it is loaded. -/
structure DramState where
  ranks : KMap Rank := []
  banks : KMap Bank := []
  throttles : KMap Throttle := []
  trains : KMap Train := []
  committed : KMap Nat := []
  working : KMap Nat := []
  channels : KMap ChannelInfo := []
  deferred : KMap Nat := []
  nextSet : Nat := 1
  key1 : Nat := 0
  key2 : Nat := 0
  keyed : Bool := false
  deriving DecidableEq, Repr

/-- A place in the DRAM: channel, subchannel, rank, bank group after hashing, bank, row, line column. -/
structure LinePlace where
  channel : Nat
  sub : Nat
  rank : Nat
  group : Nat
  bank : Nat
  row : Nat
  column : Nat
  deriving DecidableEq, Repr

/-- An entry of the correction memory (R309): the line; the RTC times in seconds of its last two corrections, the later last; the devices of its corrections, newest first; the most symbols corrected in one device. -/
structure CorrEntry where
  line : LinePlace
  older : Option Nat := none
  newer : Nat
  devs : List (List Nat)
  most : Nat
  deriving DecidableEq, Repr

/-- A line classified hard on a device: RTC time in seconds, place, device. -/
structure HardLine where
  time : Nat
  line : LinePlace
  device : Nat
  deriving DecidableEq, Repr

/-- A soft repair of a row (R311): its place (column 0) and the devices it is applied to; it runs. -/
structure SoftRepair where
  row : LinePlace
  devs : List Nat
  running : Bool := true
  deriving DecidableEq, Repr

/-- A pass of the Gleaner under way (R327): the fields of its summary. -/
structure GleanPass where
  start : Nat := 0
  units : Nat := 0
  corrected : Nat := 0
  recovered : Nat := 0
  found : Nat := 0
  poisoned : Nat := 0
  hard : Nat := 0
  cut : Nat := 0
  most : Nat := 0
  deriving DecidableEq, Repr

/-- A scan that runs (R322): what it reads, from where, how much, its polynomial. -/
structure Scan where
  source : Nat
  addr : Nat
  len : Nat
  poly : Nat
  deriving DecidableEq, Repr

/-- Chapter 12: correction memory by region; lines classified hard in the last day; soft repairs recorded; repair rows used, by bank group of a device; pages being retired; the remap table, spare number by page; Gleaner passes by
2 × region + (0 Loft, 1 Cellar), and the positions the Attic holds (Loft, Cellar); the scan. -/
structure IntegState where
  corr : KMap (List CorrEntry) := []
  hard : List HardLine := []
  soft : List SoftRepair := []
  used : KMap Nat := []
  retiring : List Nat := []
  remap : KMap Nat := []
  passes : KMap GleanPass := []
  positions : KMap (Nat × Nat) := []
  scan : Option Scan := none
  deriving DecidableEq, Repr

/-- A page of an image (table "Flush-zone page record"): region; kind, 1 a dirty page, 2 a gather page; the Loft page; the Cellar page, lines present and flash source of a gather
page; poisoned lines; its bytes that are not 0, by offset; its owner and the period of its last write, as the device's working area keeps them (R213). -/
structure ZonePage where
  region : Nat
  kind : Nat
  page : Nat
  cellar : Nat := 0
  present : List Nat := []
  source : Option Nat := none
  poison : List Nat
  data : KMap Byte
  owner : Nat
  period : Nat
  deriving DecidableEq, Repr

/-- The record FLUSH_CLOSE (table "Flush journal records"): time; stop cause; by region the last SEQ, the dirty pages not written, and the wear-bucket level in MiB. -/
structure FlushClose where
  time : Nat
  cause : Nat
  lastSeq : List Nat
  unwritten : List Nat
  wear : List Nat
  deriving DecidableEq, Repr

/-- An image (R207 to R210): the fields of its FLUSH_OPEN; its write-buffer contents; the Loft pages its dirty bitmaps mark; its pages in flush order; its FLUSH_CLOSE. -/
structure Image where
  id : Nat
  base : Nat
  time : Nat
  policy : Nat
  pointers : List Nat
  dirty : List Nat
  key1 : Nat
  key2 : Nat
  budget : Nat
  buffers : KMap Byte
  bitmap : List Nat
  pages : List ZonePage
  close : Option FlushClose := none
  deriving DecidableEq, Repr

/-- Chapter 08: the power-loss detector has tripped and not recovered; the charger is stopped for an overvoltage; b_base and b_zone of the last period, in bytes; Ledger periods for which
the conditions of R200 have held; consecutive periods with P_IN below 95 % of the cap; when the recovery count began (R211); when the flush started and when it closed; how a region's flush stopped early, and how many pages it planned;
images held, newest first; restore steps that have ended (R212), and when the restore, or the chip reset of R211, began; pages with the RESTORE_WRITTEN mark; pages left behind and not settled; MiB of released zone blocks
not erased yet, by region; where the zone pointer of a region stands; destinations of migrations that a flush abandoned (R84). -/
structure PowerState where
  tripped : Bool := false
  overVolt : Bool := false
  base : Nat := 0
  zone : Nat := 0
  tcSince : Option Nat := none
  below : Nat := 0
  countAt : Option Nat := none
  flushAt : Nat := 0
  closedAt : Option Nat := none
  stops : KMap Nat := []
  images : List Image := []
  steps : List Nat := []
  restoreAt : Nat := 0
  marked : KMap Bool := []
  leftBehind : List Nat := []
  planned : KMap Nat := []
  toErase : KMap Nat := []
  pointers : KMap Nat := []
  abandoned : List Nat := []
  deriving DecidableEq, Repr

end Sys2Proof.Machine
end

