-- ==== Sys2Proof/Machine/PartsE.lean ====
section
/-!
DEFINITION. The parts of the state that belong to ageing, time, records, meters and counters (chapters 16, 18 and 19).
-/

namespace Sys2Proof.Machine

/-! ### The RTC (R444 to R446) -/

/-- The RTC: its value in 1/1024 s at an instant of `now`; the difference a slew still had to absorb then, in 1/1024 s; VALID; running from K17's oscillator. -/
structure Clock where
  base : Nat := 0
  anchor : Nat := 0
  slew : Int := 0
  valid : Bool := false
  onOsc : Bool := false
  deriving DecidableEq, Repr

/-! ### The History Recorder (R447 to R457) -/

/-- A series of a summary (table "Series block"): count, bins that are not 0, extremes with their RTC seconds, sum, SATURATED. -/
structure Series where
  count : Nat := 0
  bins : KMap Nat := []
  min : Int := 0
  minAt : Nat := 0
  max : Int := 0
  maxAt : Nat := 0
  sum : Int := 0
  sat : Bool := false
  deriving DecidableEq, Repr

/-- A set of accumulators (R449, R450): RTC time it opened at; FOLDED, RTC_INVALID, TIME_STEP, GAP; series by SERIES_ID. -/
structure Accum where
  start : Nat := 0
  folded : Bool := false
  invalid : Bool := false
  step : Bool := false
  gap : Bool := false
  series : KMap Series := []
  deriving DecidableEq, Repr

/-- An entry of the tail (table "Event entry"): class, severity of the latest firing, a firing came from a page in DRILL, COUNT and whether it saturated, RTC seconds
of the first and latest firing. -/
structure TailEntry where
  ty : Nat
  src : Nat
  sev : Nat
  drill : Bool
  count : Nat
  sat : Bool
  first : Nat
  last : Nat
  deriving DecidableEq, Repr

/-- The tail (R451): RTC time it opened at; RTC_INVALID, TIME_STEP, GAP; entries in order of taking. -/
structure Tail where
  start : Nat := 0
  invalid : Bool := false
  step : Bool := false
  gap : Bool := false
  entries : List TailEntry := []
  deriving DecidableEq, Repr

/-- A record in the write queue (table "History record frame"): TYPE, INDEX, FLAGS, START, END, body. -/
structure HistRec where
  ty : Nat
  index : Nat
  flags : Nat
  start : Nat
  end_ : Nat
  body : List Byte
  deriving DecidableEq, Repr

/-- A HISTORY_READ in progress (R455, R456): its operation and command; the RSEQ to copy next and the first not to copy; records copied and skipped. -/
structure HistRead where
  op : Nat
  cmd : AdminCmd
  next : Nat
  limit : Nat
  copied : Nat := 0
  skipped : Nat := 0
  deriving DecidableEq, Repr

/-- Chapter 18, History: live accumulators; the frozen set while its group is not programmed, and its records not yet in the queue; write queue; tail; the last boundary
counted, in RTC seconds; the copy in the retained section; the head scan has ended; Attic blocks of the ring in order; records held, as RSEQ and slot of the ring, oldest first;
HISTORY_READs; the ring block whose erase a read defers; single-packet writes and step-1 codewords seen, of which one in 1,024 is sampled (series 9 and 14); requests admitted, HOLD NAKs sent and corrected decodes since the last samples of
series 8, 12 and 13. -/
structure HistState where
  live : Accum := { invalid := true, gap := true }
  frozen : Option Accum := none
  waiting : List HistRec := []
  queue : List HistRec := []
  tail : Tail := { invalid := true, gap := true }
  last : Nat := 0
  kept : Option Accum := none
  scanned : Bool := false
  ring : List Nat := List.range' 128 96
  slots : List (Nat × Nat) := []
  reads : List HistRead := []
  deferred : Option Nat := none
  writes : Nat := 0
  codewords : Nat := 0
  admitted : Nat := 0
  holds : Nat := 0
  corrected : Nat := 0
  deriving DecidableEq, Repr

/-! ### The Tally (R458 to R463) -/

/-- A Tally record (table "Tally record"), without its ring phase. -/
structure TallyRec where
  minute : Nat
  tenant : Nat
  first : Bool
  last : Bool
  step : Bool
  invalid : Bool
  fold : Nat
  outage : Bool
  sat : Bool
  counts : List Nat
  deriving DecidableEq, Repr

/-- A function's Tally ring (R463): enabled, host address, log2 of its entries, RING_HEAD, RING_TAIL, phase, the places of the staged record to deliver next and of the
first the function has not consumed. -/
structure TallyRing where
  on : Bool := false
  base : Nat := 0
  log2 : Nat := 0
  head : Nat := 0
  tail : Nat := 0
  phase : Bool := true
  next : Nat := 0
  consumed : Nat := 0
  deriving DecidableEq, Repr

/-- Chapter 18, Tally: counters on chip and as staging holds them, the snapshot of the last completed close, the counters frozen at a boundary with its RTC seconds; the last
boundary counted; minutes abandoned since the last completed close; tenants whose record carries FIRST; TIME_STEP, RTC_INVALID, OUTAGE within the span; until when, in ns, held time is counted (R187); staged records by their place in
the order of staging; the next place; LAST records that wait for a free slot; the rings. -/
structure TallyState where
  counters : KMap (List Nat) := []
  saved : KMap (List Nat) := []
  closed : KMap (List Nat) := []
  frozen : Option (Nat × KMap (List Nat)) := none
  last : Nat := 0
  folds : Nat := 0
  firsts : List Nat := []
  step : Bool := false
  invalid : Bool := true
  outage : Bool := false
  heldAt : Nat := 0
  staged : List (Nat × TallyRec) := []
  next : Nat := 0
  lasts : List TallyRec := []
  ring0 : TallyRing := {}
  ring1 : TallyRing := {}
  deriving DecidableEq, Repr

/-! ### Performance counters and samplers (R466 to R476) -/

/-- A counter of a page (table "Counter n"): SELECT, value, OVERFLOW, and VALUE_HI as the last read of VALUE_LO latched it. -/
structure PerfCounter where
  sel : Word := 0
  value : Nat := 0
  overflow : Bool := false
  hi : Nat := 0
  deriving DecidableEq, Repr

/-- A sampled packet whose record is open (R472, R474): its number among the arrivals; opcode, flags, TX_COUNT, plane, QPN, tenant, payload length, handle, PSN, MSN; RTC time at
arrival. -/
structure OpenSample where
  arrival : Nat
  opcode : Nat
  flags : Nat
  txCount : Nat
  plane : Nat
  qpn : Nat
  tenant : Nat
  len : Nat
  handle : Nat
  psn : Nat
  msn : Nat
  time : Nat
  deriving DecidableEq, Repr

/-- A sampler (R472 to R476): ENABLE, N, JITTER, WRAP, tenant filter, opcode mask, MIN_LAT; matching packets left before the next is sampled; open samples; the buffer, head first; the
last SEQ. -/
structure Sampler where
  enable : Bool := false
  n : Nat := 0
  jitter : Bool := false
  wrap : Bool := false
  tenantEn : Bool := false
  tenant : Nat := 0
  mask : Nat := 0
  minLat : Nat := 0
  left : Nat := 0
  open_ : List OpenSample := []
  buffer : List (List Byte) := []
  seq : Nat := 0
  deriving DecidableEq, Repr

/-- Chapter 19: counters by 16 × page + n; samplers. -/
structure PerfState where
  counters : KMap PerfCounter := []
  samplers : KMap Sampler := []
  deriving DecidableEq, Repr

/-! ### Ageing (R409 to R424) -/

/-- Measurement 1 in progress (R412, R413): VBANK at its start, mV; when it began; the operation of AGEING_RUN, 0 none. -/
structure BankRun where
  start : Nat
  since : Nat
  op : Nat
  deriving DecidableEq, Repr

/-- A change record (table "Change record"), without its CRC. -/
structure ChangeRec where
  seq : Nat
  time : Nat
  item : Nat
  index : Nat
  old : Int
  new : Int
  cause : Nat
  deriving DecidableEq, Repr

/-- A lane of a SerDes port: its page and its number in the port. -/
structure Lane where
  page : Nat
  lane : Nat
  deriving DecidableEq, Repr

/-- Chapter 16: the window is open; measurements it has still to complete, as 1, 200 + region, 400 + channel, and those that run; measurement 1; AGEING_RUNs of probes with what they wait for; bank figures
held under R415, by figure (0 C, 1 ESR, 2 η, 3 e_flush, 4 + r flush rate); accepted results, newest first, by figure; the energy of the last real flush, mJ/GiB, and its
RTC seconds; chosen retry tables by channel; channels probed since the plan; sense margins at the probe; EARLY_WARNs by region (100 the Attic) and reads (4 + r TLC programs, 8 + r harvest programs, 100 the Attic) as counted at the last daily plan; least slack of the day by island; PLAN_SEQ of each
item's last change by 256 × item + index; change log, newest first; eyes of the past 24 h by lane, as RTC time, height, width; lanes retraining, lanes that wait, RTC time of a lane's last retrain; TLC programs and harvest programs by region at the end
on each of the last 30 days, newest first; regions whose TLC programs have slowed; channels whose DRAM retrain trigger is raised; highest FREQ_REQ of capped islands;
changes not yet recorded in the History, oldest first. -/
structure AgeState where
  window : Bool := false
  due : List Nat := []
  running : List Nat := []
  bank : Option BankRun := none
  runs : List (Nat × Nat × List Nat) := []
  held : KMap Nat := []
  results : KMap (List Nat) := []
  fresh : List Nat := []
  realFlush : Option (Nat × Nat) := none
  tables : KMap Nat := []
  probed : List Nat := []
  warns : KMap Nat := []
  reads : KMap Nat := []
  slack : KMap Int := []
  items : KMap Nat := []
  log : List ChangeRec := []
  eyes : KMap (List (Nat × Nat × Nat)) := []
  retraining : List Lane := []
  queue : List Lane := []
  retrained : KMap Nat := []
  programs : KMap (List (Nat × Nat)) := []
  slow : List Nat := []
  triggers : List Nat := []
  caps : KMap Nat := []
  batch : List ChangeRec := []
  deriving DecidableEq, Repr

end Sys2Proof.Machine
end

