-- ==== Sys2Proof/Machine/State.lean ====
section
/-!
DEFINITION. The state of the block, as plain data, and the state right after a cold start.
-/

namespace Sys2Proof.Machine

/-- What the device sends or drives, newest first in the state: completion of a register read; a BAR2 read completion, EP set for a poisoned line (R53);
a CQE with its phase (R45); an MSI-X message (R52); the Steward NMI (R430); a write to host memory; the contents IDENTIFY writes to
a buffer, whose layout the spec does not give (R490); a packet on a fabric port; an exception frame answered by
the Steward (R88); a twin frame; a response of the Larder (R346); a handshake completed (R16) or completed with the abort marker (R17); an internal operation reissued; the level of an output pin; the
data of an Attic read (R386); a device configuration record copied to a buffer, whose layout the spec does not give (R388). -/
inductive Output where
  | readData (value : Nat)
  | bar2Data (fn : Fn) (poisoned : Bool) (data : List Byte)
  | cqe (fn : Fn) (addr : Nat) (entry : Cqe) (phase : Bool)
  | msix (fn : Fn) (vector : Nat)
  | nmi
  | hostWrite (fn : Fn) (addr : Nat) (data : List Byte)
  | identity (fn : Fn) (addr len serial bin loftBytes cellarPages version : Nat)
  | fabric (p : PxtOut)
  | exception (plane : Nat) (kind : ExceptionKind)
  | twin (f : TwinFrame)
  | larder (client tag status salt counter : Nat)
  | handshake (h : Handshake) (aborted : Bool)
  | reissued (h : Handshake)
  | pin (name : String) (high : Bool)
  | attic (data : List Byte)
  | record (fn : Fn) (addr len id : Nat)
  deriving DecidableEq, Repr

/-- The state of the block. -/
structure State where
  /-- Commands waiting, first in, first out (the row's form). -/
  pending : List Instr := []
  /-- Nanoseconds since reset (DESIGN CHOICE, log 1). -/
  now : Nat := 0
  /-- Free values taken so far (DESIGN CHOICE, log 2). -/
  free : Nat := 0
  /-- What the device sent, newest first (DESIGN CHOICE, log 5). -/
  out : List Output := []
  /-- Registers that differ from their reset value, by 4096 × page + offset. -/
  regs : KMap Word := []
  arch : ArchState := {}
  host : HostSide := {}
  stw : StewardState := {}
  attic : AtticState := {}
  seq : SeqState := {}
  fc : FcState := {}
  win : WinState := {}
  fab : FabricState := {}
  dur : DurableState := {}
  twin : TwinState := {}
  larder : LarderState := {}
  loft : LoftState := {}
  cellar : CellarState := {}
  dram : DramState := {}
  power : PowerState := {}
  integ : IntegState := {}
  clock : Clock := {}
  hist : HistState := {}
  tally : TallyState := {}
  perf : PerfState := {}
  age : AgeState := {}
  deriving DecidableEq, Repr

/-- The reasons to stop with a fault: none. No rule of the spec makes a command stop the block; errors are events, statuses and syndromes. -/
inductive Fault where
  deriving DecidableEq, Repr

/-- Why a command has no meaning. -/
inductive Refusal where
  /-- The command named is not modelled yet: raised by an arm of exec. Safe. -/
  | notModelled (mnemonic : String)
  deriving DecidableEq, Repr

/-- The block right after a cold start (R390, R404): the sequencer in state 0, every page OFF, every register at its reset value. -/
def State.reset : State := {}

/-- What a meaning answers. -/
abbrev Res := Host.Outcome State Fault Refusal

end Sys2Proof.Machine
end

