-- ==== Sys2Proof/Machine/Ops.lean ====
section
/-!
DEFINITION. The operations every chapter shares: registers, pages, events, result registers, interrupts, free values.
-/

namespace Sys2Proof.Machine

/-- A value inserted into a rising list without repeats. -/
def insertSorted (x : Nat) : List Nat → List Nat
  | [] => [x]
  | y :: l => if x < y then x :: y :: l else if x = y then y :: l else y :: insertSorted x l

/-! ### Registers -/

/-- The value of the register of a page at an offset: the reset value where the register file lists none. -/
def State.reg (s : State) (page off : Nat) : Word :=
  KM.getD (resetAt (regKey page off)) s.regs (regKey page off)

/-- A register set to a value. -/
def State.setReg (s : State) (page off : Nat) (w : Word) : State :=
  { s with regs := KM.putD (resetAt (regKey page off)) s.regs (regKey page off) w }

/-- A field of a register, as a number. -/
def State.fld (s : State) (page off hi lo : Nat) : Nat := bits (s.reg page off) hi lo

/-- A field of a register set. -/
def State.setFld (s : State) (page off hi lo v : Nat) : State :=
  s.setReg page off (setBits (s.reg page off) hi lo v)

/-- A register set to a number, modulo 2^32. -/
def State.setNum (s : State) (page off v : Nat) : State := s.setReg page off (BitVec.ofNat 32 v)

/-- A register as a number. -/
def State.num (s : State) (page off : Nat) : Nat := (s.reg page off).toNat

/-- The 64-bit value of two registers. -/
def State.reg64 (s : State) (page lo hi : Nat) : Nat := s.num page lo + 2 ^ 32 * s.num page hi

/-- A 64-bit value kept in two registers. -/
def State.set64 (s : State) (page lo hi v : Nat) : State := (s.setNum page lo (v % 2 ^ 32)).setNum page hi (v / 2 ^ 32)

/-- A counter of a page takes n events of a code (R467, R468): it is enabled, selects the code, and filters neither tenant nor pipeline, which the codes counted here do not
carry (DESIGN CHOICE, log 21). -/
def countEvent (key code n : Nat) (i : Nat) (c : PerfCounter) : PerfCounter :=
  if i / 16 = key ∧ bit c.sel 31 ∧ bits c.sel 7 0 = code ∧ bit c.sel 30 = false ∧ (bit c.sel 15 = false ∨ key ≠ 0x4D) then
    { c with value := (c.value + n) % 2 ^ 48, overflow := c.overflow || decide (2 ^ 48 ≤ c.value + n) }
  else c

/-- The page as the counters name it: one PX page for both functions. -/
def counterPage (page : Nat) : Nat := if page = 0x404C then 0x4C else page

/-- A page's counters count: STARTING, SERVICE, DRAINING, DRILL or BYPASS (R466). -/
def State.counting (s : State) (page : Nat) : Bool :=
  let v := s.fld (counterPage page) 0x00C 3 0
  decide (v = 1 ∨ v = 2 ∨ v = 3 ∨ v = 4 ∨ v = 7)

/-- Events of a code on a page counted by the page's counters (R466 to R468). -/
def State.perfCount (s : State) (page code n : Nat) : State :=
  if s.perf.counters = [] ∨ s.counting page = false then s
  else { s with perf.counters := KM.mapV (countEvent (counterPage page) code n) s.perf.counters }

/-- A 32-bit saturating counter raised by n; the page's counters that select it count it without saturation (R468). -/
def State.bump (s : State) (page off : Nat) (n : Nat := 1) : State :=
  (s.setReg page off (satAdd (s.reg page off) n)).perfCount page (0x40 + (off - 0x040) / 4) n

/-- A value kept as a high-water mark. -/
def State.setMax (s : State) (page off v : Nat) : State :=
  if s.num page off < v then s.setNum page off v else s

/-! ### The pages with names of their own -/

/-- The package page. -/
def pPKG : Nat := 0x0000
/-- The hub die page. -/
def pHD : Nat := 0x0001
/-- The fabric port cluster page. -/
def pFPC : Nat := 0x0020
/-- The twin port cluster page. -/
def pTWC : Nat := 0x0021
/-- The Steward complex page. -/
def pSTW : Nat := 0x0022
/-- The Transport Core page. -/
def pTC : Nat := 0x004D
/-- The Larder page. -/
def pLD : Nat := 0x004E
/-- The Check Engine page. -/
def pCHK : Nat := 0x004F
/-- The checkpoint store page. -/
def pCKP : Nat := 0x0053
/-- The Steward fence page. -/
def pFEN : Nat := 0x0054
/-- The Fault Collector page. -/
def pFC : Nat := 0x0055
/-- The Tally page. -/
def pTLY : Nat := 0x0056
/-- The History Recorder page. -/
def pHR : Nat := 0x0057
/-- The Ledger page. -/
def pLG : Nat := 0x0058
/-- The sampling units page. -/
def pSMP : Nat := 0x0059
/-- The sequencer page. -/
def pSEQ : Nat := 0x0080
/-- The Granary page. -/
def pGRN : Nat := 0x0081
/-- The RTC page. -/
def pRTC : Nat := 0x0082
/-- The power-loss detector page. -/
def pPLD : Nat := 0x0083
/-- The Attic controller page. -/
def pAC : Nat := 0x0088
/-- The page of region r. -/
def pRG (r : Nat) : Nat := 0x0010 + r
/-- The page of DRAM channel c. -/
def pDC (c : Nat) : Nat := 0x0200 + c
/-- The page of NAND channel c. -/
def pNC (c : Nat) : Nat := 0x0240 + c
/-- The PX page as a function decodes it (R44). -/
def pPX : Fn → Nat
  | .pf0 => 0x004C
  | .pf1 => 0x404C

/-! ### Bins, regions, outputs, free values -/

/-- The bin the part was fused to: 0 PW8840, 1 PW8820, 2 PW8810 (R491's table, R3). -/
def State.bin (s : State) : Nat := s.fld pPKG 0x040 1 0

/-- The page is absent in this bin (R3). -/
def State.absent (s : State) (page : Nat) : Bool := pageAbsent s.bin page

/-- Regions present: n_r of R171. -/
def State.regions (s : State) : Nat := if s.bin = 1 then 2 else if s.bin = 2 then 1 else 4

/-- Fabric planes present. -/
def State.planes (s : State) : Nat := if s.bin = 1 then 4 else if s.bin = 2 then 2 else 8

/-- An output appended. -/
def State.emit (s : State) (o : Output) : State := { s with out := o :: s.out }

/-- A free value (log 2), and the state that has taken it. -/
def State.fresh (s : State) : BitVec 64 × State := (Config.freeValue s.free, { s with free := s.free + 1 })

/-- 1/1024 s that have passed on the RTC since its anchor, before any slew (R444). -/
def State.rtcElapsed (s : State) : Nat := (s.now - s.clock.anchor) * 1024 / 1000000000

/-- What a slew has absorbed since the anchor: 1,000 ppm of the time, at most its difference (R446). -/
def State.slewed (s : State) : Int :=
  let a := min s.clock.slew.natAbs ((s.now - s.clock.anchor) * 1024 / 1000000000000)
  if s.clock.slew < 0 then -(a : Int) else a

/-- RTC time as the records carry it: seconds × 1024 + fraction (R445). -/
def State.rtc (s : State) : Nat := ((s.clock.base + s.rtcElapsed : Nat) + s.slewed).toNat

/-- RTC seconds. -/
def State.rtcSeconds (s : State) : Nat := s.rtc / 1024

/-- The DRBG has stopped under a class C alarm (R350). -/
def State.drbgStopped (s : State) : Bool := bit (s.reg pLD 0x048) 2

/-- A class D alarm is in force (R350). -/
def State.classD (s : State) : Bool := bit (s.reg pLD 0x048) 3

/-! ### Pages -/

/-- Code of a service state in PG_STATE (R37's table). -/
inductive Service where
  | off
  | starting
  | service
  | draining
  | drill
  | fenced
  | failed
  | bypass
  deriving DecidableEq, Repr

/-- The code of a service state. -/
def Service.code : Service → Nat
  | .off => 0
  | .starting => 1
  | .service => 2
  | .draining => 3
  | .drill => 4
  | .fenced => 5
  | .failed => 6
  | .bypass => 7

/-- The service state a page's PG_STATE shows. -/
def State.pg (s : State) (page : Nat) : Service :=
  match s.fld page 0x00C 3 0 with
  | 1 => .starting
  | 2 => .service
  | 3 => .draining
  | 4 => .drill
  | 5 => .fenced
  | 6 => .failed
  | 7 => .bypass
  | _ => .off

/-- What a page holds beside its registers. -/
def State.pageInfo (s : State) (page : Nat) : PageInfo := KM.getD {} s.arch.pages page

/-- A page's logic is held in reset. -/
def State.held (s : State) (page : Nat) : Bool := decide (s.now < (s.pageInfo page).heldUntil)

/-- That information changed. -/
def State.setPageInfo (s : State) (page : Nat) (v : PageInfo) : State :=
  { s with arch.pages := KM.putD {} s.arch.pages page v }

/-- Probes of a region that enters BYPASS, a reset or start-up are abandoned, and tried again (R425). -/
def State.dropProbes (s : State) (r : Nat) : State :=
  { s with age.running := s.age.running.filter fun m => !decide (m = 200 + r ∨ (400 ≤ m ∧ (m - 400) / 6 = r)) }

/-- LARDER.ENGINES_IN_SERVICE follows the state of a seal engine page (R356); a start-up leaves the bit until it ends. -/
def State.showEngine (s : State) (page : Nat) (v : Service) : State :=
  if 0x0060 ≤ page ∧ page < 0x0080 ∧ v ≠ .off ∧ v ≠ .starting then
    s.setFld pLD 0x044 (page - 0x0060) (page - 0x0060) (if v = .service then 1 else 0)
  else s

/-- PG_STATE set: the state and the cause of the transition. An injection grant ends outside DRILL (R39). A page that enters SERVICE with DRAIN set goes on to DRAINING at once, as
the drain requested in BYPASS does when BYPASS ends (R27; DEDUCED, log 28). -/
def State.setPg (s : State) (page : Nat) (v : Service) (cause : Nat) : State :=
  let s := if v = .drill then s else { s with host.grants := KM.del s.host.grants page }
  let s := if 0x10 ≤ page ∧ page < 0x14 ∧ v ≠ .service ∧ v ≠ .draining ∧ v ≠ .drill then s.dropProbes (page - 0x10) else s
  if v = .service ∧ bit (s.reg page 0x008) 1 then
    ((s.setPageInfo page { s.pageInfo page with drainExpired := false }).setNum page 0x00C (256 + Service.draining.code)).showEngine page .draining
  else (s.setNum page 0x00C (cause * 256 + v.code)).showEngine page v

/-- A region's BYPASS and write buffer. -/
def State.region (s : State) (r : Nat) : RegionState := KM.getD {} s.arch.regions r

/-- That state changed. -/
def State.setRegion (s : State) (r : Nat) (v : RegionState) : State :=
  { s with arch.regions := KM.putD {} s.arch.regions r v }

/-- An island. -/
def State.island (s : State) (k : Nat) : Island := KM.getD {} s.arch.islands k

/-- An island changed. -/
def State.setIsland (s : State) (k : Nat) (v : Island) : State :=
  { s with arch.islands := KM.putD {} s.arch.islands k v }

/-! ### Locks (R41, R42) -/

/-- The code of a requester in PG_LOCK.OWNER. -/
def reqCode : Requester → Nat
  | .pf0 => 1
  | .pf1 => 2
  | .steward => 3

/-- The requester that a function's host is. -/
def fnReq : Fn → Requester
  | .pf0 => .pf0
  | .pf1 => .pf1

/-- The number of a function. -/
def fnNum : Fn → Nat
  | .pf0 => 0
  | .pf1 => 1

/-- The page is locked by another requester. -/
def State.lockedOut (s : State) (req : Requester) (page : Nat) : Bool :=
  bit (s.reg page 0x02C) 31 && decide (s.fld page 0x02C 17 16 ≠ reqCode req)

/-- A write that R42 drops, counted. -/
def State.lockDrop (s : State) : State := s.bump pPKG 0x04C

/-- The page under which a register access of a requester lands: PF1 decodes its own PX registers (R44). -/
def accessPage (req : Requester) (page : Nat) : Nat :=
  if page = 0x004C ∧ req = .pf1 then 0x404C else page

/-- A register write of a requester: dropped where the page is absent (R3) or reserved (R35), dropped and counted where another holds the lock (R42),
else done. -/
def State.guarded (s : State) (req : Requester) (page : Nat) (f : State → State) : State :=
  if (pageType page).isNone ∨ s.absent page then s
  else if s.lockedOut req page then s.lockDrop
  else f s

/-! ### Interrupts (R52) -/

/-- A dword of a function's MSI-X table: masked where nothing has written its vector control (PRESUMED, log 7). -/
def State.msixWord (s : State) (fn : Fn) (i : Nat) : Word :=
  KM.getD (if i % 4 = 3 then 1 else 0) (match fn with | .pf0 => s.host.msix0 | .pf1 => s.host.msix1) i

/-- A dword of the MSI-X table set. -/
def State.setMsixWord (s : State) (fn : Fn) (i : Nat) (w : Word) : State :=
  let d : Word := if i % 4 = 3 then 1 else 0
  match fn with
  | .pf0 => { s with host.msix0 := KM.putD d s.host.msix0 i w }
  | .pf1 => { s with host.msix1 := KM.putD d s.host.msix1 i w }

/-- Vectors pending behind their mask. -/
def State.msixPend (s : State) : Fn → List Nat
  | .pf0 => s.host.msixPend0
  | .pf1 => s.host.msixPend1

/-- Those vectors changed. -/
def State.setMsixPend (s : State) (fn : Fn) (l : List Nat) : State :=
  match fn with
  | .pf0 => { s with host.msixPend0 := l }
  | .pf1 => { s with host.msixPend1 := l }

/-- A vector signalled: the message is sent, or the pending bit set while the vector is masked. -/
def State.signal (s : State) (fn : Fn) (vec : Nat) : State :=
  if bit (s.msixWord fn (4 * vec + 3)) 0 then s.setMsixPend fn (vec :: (s.msixPend fn).filter (· ≠ vec))
  else s.emit (.msix fn vec)

/-- A vector signalled to both functions. -/
def State.signalBoth (s : State) (vec : Nat) : State := (s.signal .pf0 vec).signal .pf1 vec

/-- The vector SET_VECTOR gave a page on a function. -/
def State.vectorOf (s : State) (fn : Fn) (page : Nat) : Option Nat :=
  KM.get (match fn with | .pf0 => s.host.vectors0 | .pf1 => s.host.vectors1) page

/-! ### Events (R38, R427) -/

/-- The lowest source of a mask. -/
def lowestBit (m : Word) : Nat := ((List.range 32).find? fun i => bit m i).getD 0

/-- Number of sources in a mask. -/
def popCount (m : Word) : Nat := ((List.range 32).filter fun i => bit m i).length

/-- Severity that EV_SEVERITY holds for a source. -/
def State.severity (s : State) (page src : Nat) : Nat :=
  if src < 16 then s.fld page 0x020 (2 * src + 1) (2 * src) else s.fld page 0x024 (2 * (src - 16) + 1) (2 * (src - 16))

/-- One source routed to the Fault Collector when its EV_ENABLE bit is 1 (R427), and signalled on vector 36 for the Ledger, Granary and
power-loss detector pages and on the vector SET_VECTOR gave the page (R52). -/
def State.route (s : State) (page src : Nat) : State :=
  if bit (s.reg page 0x014) src then
    let s := { s with host.routed := s.host.routed ++ [(page, src, s.severity page src)] }
    let s := if page = pLG ∨ page = pGRN ∨ page = pPLD then s.signalBoth 36 else s
    let s := match s.vectorOf .pf0 page with | some v => if page = pFC then s else s.signal .pf0 v | none => s
    match s.vectorOf .pf1 page with | some v => if page = pFC then s else s.signal .pf1 v | none => s
  else s

/-- Every source of a list routed, in order. -/
def State.routeAll (s : State) (page : Nat) : List Nat → State
  | [] => s
  | src :: l => (s.route page src).routeAll page l

/-- Firings counted by source (event codes 0x20 to 0x3F). -/
def State.countSources (s : State) (page : Nat) : List Nat → State
  | [] => s
  | i :: l => (s.perfCount page (0x20 + i) 1).countSources page l

/-- Sources of a page fire in one cycle (R38): EV_STATUS, EV_FIRST when it is not valid, EV_COUNT, and routing. Absent pages raise nothing (R3). -/
def State.fireMask (s : State) (page : Nat) (m : Word) : State :=
  if m = 0 ∨ (pageType page).isNone ∨ s.absent page then s
  else
    let s := s.setReg page 0x010 (s.reg page 0x010 ||| m)
    let s := if bit (s.reg page 0x01C) 31 then s else s.setNum page 0x01C (2 ^ 31 + lowestBit m)
    let s := s.setReg page 0x028 (satAdd (s.reg page 0x028) (popCount m))
    let s := s.perfCount page 0x04 (popCount m)
    let s := s.countSources page ((List.range 32).filter fun i => bit m i)
    s.routeAll page ((List.range 32).filter fun i => bit m i)

/-- One source fires. -/
def State.fire (s : State) (page src : Nat) : State := s.fireMask page (BitVec.ofNat 32 (2 ^ src))

/-- One second, in ns. -/
def second : Nat := 1000000000

/-- A source that fires at most once per period: keyed by a number, so that a source limited per port or plane has one limit each. -/
def State.fireLimited (s : State) (page src : Nat) (period : Nat := second) (sub : Nat := 0) : State :=
  let k := (page * 32 + src) * 32768 + sub
  match KM.get s.host.limits k with
  | some t => if s.now < t + period then s else ({ s with host.limits := KM.put s.host.limits k s.now }).fire page src
  | none => ({ s with host.limits := KM.put s.host.limits k s.now }).fire page src

/-! ### Result registers (R43) -/

/-- The sequence after one: 0xFFFF is followed by 1. -/
def nextSeq (n : Nat) : Nat := if n = 0xFFFF then 1 else n + 1

/-- Payload words written after the header. -/
def State.putWords (s : State) (page off : Nat) : List Nat → State
  | [] => s
  | w :: ws => (s.setNum page off w).putWords page (off + 4) ws

/-- The number with a bit set. -/
def withBit (v i : Nat) : Nat := if v.testBit i then v else v + 2 ^ i

/-- Where a result's payload shows that earlier records were dropped: word of the payload and bit (the tables of the result registers). -/
def overflowAt (page off : Nat) : Nat × Nat :=
  if page = pFPC ∧ off = 0x198 then (0, 30)
  else if page = pTC ∧ off = 0x048 then (1, 31)
  else if page = pTWC ∧ off = 0x0B4 then (1, 31)
  else if 0x10 ≤ page ∧ page < 0x14 ∧ off = 0x0F4 then (1, 31)
  else (0, 31)

/-- A bit set in one word of a payload. -/
def markWord (idx b : Nat) : List Nat → List Nat
  | [] => []
  | w :: t => if idx = 0 then withBit w b :: t else w :: markWord (idx - 1) b t

/-- A record published: VALID set, the next SEQ, its payload words; the record after dropped ones shows OVERFLOW. -/
def State.present (s : State) (page off : Nat) (ws : List Nat) : State :=
  let k := regKey page off
  let ws := if k ∈ s.host.overflow then markWord (overflowAt page off).1 (overflowAt page off).2 ws else ws
  let s := { s with host.overflow := s.host.overflow.filter (· ≠ k) }
  (s.setNum page off (2 ^ 31 + nextSeq (s.fld page off 15 0))).putWords page (off + 4) ws

/-- The result register holds a record not yet consumed. -/
def State.resultValid (s : State) (page off : Nat) : Bool := bit (s.reg page off) 31

/-- A record produced: published at once when the last one is consumed, else queued; dropped when the queue is full (R43, R142). -/
def State.publish (s : State) (page off : Nat) (ws : List Nat) (cap : Nat) : State :=
  let k := regKey page off
  let q := KM.getD [] s.host.results k
  if s.resultValid page off = false ∧ q = [] then s.present page off ws
  else if q.length < cap then { s with host.results := KM.putD [] s.host.results k (q ++ [ws]) }
  else { s with host.overflow := k :: s.host.overflow.filter (· ≠ k) }

/-- A record would be dropped. -/
def State.publishFull (s : State) (page off cap : Nat) : Bool :=
  s.resultValid page off && decide (cap ≤ (KM.getD [] s.host.results (regKey page off)).length)

/-- A result consumed: VALID cleared, SEQ kept, the next record published. -/
def State.consume (s : State) (page off : Nat) : State :=
  let k := regKey page off
  let s := s.setReg page off (setBits (s.reg page off) 31 31 0)
  match KM.getD [] s.host.results k with
  | [] => s
  | ws :: q => ({ s with host.results := KM.putD [] s.host.results k q }).present page off ws

/-- A write to an ACK register (R43): consumes the published result it names, else counts. -/
def State.ack (s : State) (page off seq : Nat) : State :=
  if s.resultValid page off ∧ seq = s.fld page off 15 0 then s.consume page off
  else s.bump pPKG 0x054

/-! ### Block resets (R22, R37, R41, R43, R491) -/

/-- The bits of a register that a reset of its page below package level keeps: the event record, PG_LOCK, PG_STATE, which the transition sets, ENABLE, block counters, saved and
measured values; of registers that mix such fields with others, those fields. -/
def keptMask (ty off : Nat) : Word :=
  if off = 0x008 then 1
  else if off = 0x00C ∨ off = 0x010 ∨ off = 0x01C ∨ off = 0x028 ∨ off = 0x02C then 0xFFFFFFFF
  else if ty = 0x12 ∧ off = 0x040 then 0x02000000
  else if ty = 0x11 ∧ off = 0x040 then 0x80000000
  else if ty = 0x2C ∧ off = 0x040 then 0x7FFFFFFF
  else if ty = 0x00 ∧ 0x140 ≤ off ∧ off < 0x180 then 0x0000FFFF
  else if ty = 0x40 ∧ off = 0x140 then 0x00001FFF
  else if ty = 0x08 ∧ off = 0x148 then 0x03C00000
  else if ty = 0x40 ∧ off = 0x048 then 0x0000000C
  else if ty = 0x29 ∧ off = 0x060 then 0xFFFFFFFF
  else if off ∈ blockCounters ty ∨ off ∈ savedRegs ty then 0xFFFFFFFF
  else 0

/-- A register after a reset of its page. -/
def resetEntry (page k : Nat) (w : Word) : Word :=
  if k / 4096 = page then
    let m := keptMask ((pageType page).getD 0xFF) (k % 4096)
    (w &&& m) ||| (resetWord page (k % 4096) &&& ~~~m)
  else w

/-- The counters of a page returned to 0, as a reset of the page does (R466). -/
def State.clearCounters (s : State) (page : Nat) : State :=
  { s with perf.counters := KM.keep (fun k _ => decide (k / 16 ≠ counterPage page)) s.perf.counters }

/-- The registers of a page as a reset leaves them: results not consumed are lost, performance counters return to 0. -/
def State.resetRegs (s : State) (page : Nat) : State :=
  let regs : KMap Word := KM.keep (fun k w => decide (w ≠ resetAt k)) (KM.mapV (resetEntry page) s.regs)
  let results : KMap (List (List Nat)) := KM.keep (fun k _ => decide (k / 4096 ≠ page)) s.host.results
  ({ s with regs, host.results := results, host.overflow := s.host.overflow.filter fun k => k / 4096 ≠ page }).clearCounters page

/-- A page begins its start-up after a reset: longest outage of the reset's level, and how long its logic is held in reset, in ns. -/
def State.restartPage (s : State) (page cause outage hold : Nat) : State :=
  (s.setPageInfo page { drainExpired := false, heldUntil := s.now + hold, resetAt := s.now, afterReset := true, outage }).setPg page .starting cause

/-- A page enters FAILED and is recorded (R20, R22); it is in service no longer. -/
def State.retirePage (s : State) (page cause : Nat) : State :=
  ({ s with arch.recorded := insertSorted page s.arch.recorded, arch.inService := s.arch.inService.filter (· ≠ page) }).setPg page .failed cause

/-! ### Small list helpers -/

/-- The natural numbers below n whose bit is set in a number. -/
def bitList (v n : Nat) : List Nat := (List.range n).filter fun i => v.testBit i

/-- Exclusive or of numbers below 2^64. -/
def xor64 (a b : Nat) : Nat := (BitVec.ofNat 64 a ^^^ BitVec.ofNat 64 b).toNat

end Sys2Proof.Machine
end

