-- ==== Sys2Proof/Machine/Records.lean ====
section
/-!
DEFINITION. What every chapter hands to the Attic's bytes, the History Recorder and the Tally: samples, the tail, the write queue, counts.
-/

namespace Sys2Proof.Machine

/-! ### Attic bytes -/

/-- A block of the Attic. -/
def State.atticBlock (s : State) (b : Nat) : AtticBlock := KM.getD {} s.attic.blocks b

/-- A block changed. -/
def State.setAtticBlock (s : State) (b : Nat) (v : AtticBlock) : State := { s with attic.blocks := KM.putD {} s.attic.blocks b v }

/-- The array byte at a window offset: 0xFF where nothing has been programmed since the erase (R380, R381). -/
def State.atticByte (s : State) (off : Nat) : Byte := KM.getD 0xFF (s.atticBlock (off / 2 ^ 18)).data (off % 2 ^ 18)

/-- Bytes put at a block's offset. -/
def putAttic (m : KMap Byte) (off : Nat) : List Byte → KMap Byte
  | [] => m
  | b :: l => putAttic (KM.putD 0xFF m off b) (off + 1) l

/-- Bytes of the array. -/
def State.atticBytes (s : State) (off n : Nat) : List Byte := (List.range n).map fun i => s.atticByte (off + i)

/-! ### The write queue and the tail (R451, R452) -/

/-- TAIL_ENTRIES and QUEUED shown. -/
def State.showHist (s : State) : State :=
  s.setNum pHR 0x05C (s.hist.tail.entries.length * 256 + s.hist.queue.length)

/-- Records put into the write queue while it has room, in order. -/
def State.fillQueue (s : State) : State :=
  let n := 64 - s.hist.queue.length
  ({ s with hist.queue := s.hist.queue ++ s.hist.waiting.take n, hist.waiting := s.hist.waiting.drop n }).showHist

/-- A record queued, behind those that wait for room. -/
def State.queueRec (s : State) (r : HistRec) : State := ({ s with hist.waiting := s.hist.waiting ++ [r] }).fillQueue

/-- The write queue is full. -/
def State.histFull (s : State) : Bool := decide (64 ≤ s.hist.queue.length) || decide (s.hist.waiting ≠ [])

/-- A Glean summary put into the GLEAN record queued last, where it is the last record queued and holds fewer than seven, else into one of its own (DESIGN CHOICE, log 23). -/
def State.noteGlean (s : State) (start : Nat) (sum : List Byte) : State :=
  match s.hist.queue.reverse with
  | r :: l =>
    if s.hist.waiting = [] ∧ r.ty = 3 ∧ r.body.length < 448 then
      { s with hist.queue := ({ r with body := r.body ++ sum, end_ := s.rtc, start := min r.start start } :: l).reverse }
    else s.queueRec { ty := 3, index := 0, flags := 4 * b2n (!s.clock.valid), start, end_ := s.rtc, body := sum }
  | [] => s.queueRec { ty := 3, index := 0, flags := 4 * b2n (!s.clock.valid), start, end_ := s.rtc, body := sum }

/-- An entry of the tail as bytes. -/
def tailBytes (e : TailEntry) : List Byte :=
  leBytes 1 e.ty ++ leBytes 1 e.src ++ leBytes 1 (e.sev + 4 * b2n e.drill + 8 * b2n e.sat) ++ leBytes 1 0 ++ leBytes 4 e.count ++ leBytes 4 e.first ++ leBytes 4 e.last

/-- The EVENTS record of a tail that ends at a time. -/
def tailRec (t : Tail) (end_ : Nat) : HistRec :=
  { ty := 2, index := 0, start := t.start, end_,
    flags := b2n (t.entries.any fun e => e.sat) + 4 * b2n t.invalid + 8 * b2n t.step + 32 * b2n t.gap,
    body := t.entries.flatMap tailBytes }

/-- The tail closes as an EVENTS record and an empty one opens, unless the write queue is full. An empty tail closes too. -/
def State.closeTail (s : State) : State :=
  if s.histFull then s
  else
    let r := tailRec s.hist.tail s.rtc
    ({ s with hist.tail := { start := s.rtc, invalid := !s.clock.valid } }).queueRec r

/-- A firing counted in an entry. -/
def bumpEntry (sev : Nat) (drill : Bool) (sec : Nat) (e : TailEntry) : TailEntry :=
  { e with sev, drill := e.drill || drill, count := min (e.count + 1) 0xFFFFFFFF, sat := e.sat || decide (0xFFFFFFFF ≤ e.count), last := sec % 2 ^ 32 }

/-- A firing of a class counted in the tail: in its entry, in a free one, in the tail that follows where all thirty are taken, or in OTHER where the write queue is full (R452; DEDUCED,
log 22: entry 29 is kept for OTHER while the queue is full). -/
def State.noteEvent (s : State) (ty src sev : Nat) (drill : Bool) : State :=
  let sec := s.rtcSeconds
  let l := s.hist.tail.entries
  let new : TailEntry := { ty, src, sev, drill, count := 1, sat := false, first := sec % 2 ^ 32, last := sec % 2 ^ 32 }
  if l.any fun e => decide (e.ty = ty ∧ e.src = src) then
    { s with hist.tail.entries := l.map fun (e : TailEntry) => if e.ty = ty ∧ e.src = src then bumpEntry sev drill sec e else e }
  else if l.length < (if s.histFull then 29 else 30) then ({ s with hist.tail.entries := l ++ [new] }).showHist
  else if s.histFull = false then
    let s := s.closeTail
    ({ s with hist.tail.entries := [new] }).showHist
  else
    let o : TailEntry := match l.drop 29 with
      | e :: _ => { bumpEntry sev drill sec e with ty := 0xFF, src := 0xFF }
      | [] => { new with ty := 0xFF, src := 0xFF }
    ({ s with hist.tail.entries := l.take 29 ++ [o] }).showHist

/-- A source of the sequencer page fires: the tail counts it at once, in K17 (R451). -/
def State.seqFire (s : State) (src : Nat) : State := (s.noteEvent 0x30 src (s.severity pSEQ src) false).fire pSEQ src

/-! ### Samples (R448) -/

/-- LO and WIDTH of a series (table "History series"). -/
def seriesRange (id : Nat) : Int × Int :=
  match id with
  | 1 => (0, 6)
  | 2 => (360, 20)
  | 3 => (200, 25)
  | 4 => (0, 250)
  | 5 => (0, 512)
  | 6 => (0, 70)
  | 7 => (20, 5)
  | 8 => (0, 56)
  | 9 => (0, 250)
  | 10 => (0, 25)
  | 11 => (0, 500)
  | 12 => (0, 6250)
  | 13 => (0, 64)
  | 14 => (0, 8)
  | _ => (-40, 10)

/-- The bin of a sample. -/
def binOf (id : Nat) (v : Int) : Nat := min 15 ((v - (seriesRange id).1) / (seriesRange id).2).toNat

/-- A sum held between the extremes of 64 bits. -/
def clampSum (x : Int) : Int := max (-(2 ^ 63)) (min (2 ^ 63 - 1) x)

/-- A sample taken into a series, at RTC seconds. -/
def takeSample (id : Nat) (v : Int) (sec : Nat) (x : Series) : Series :=
  let b := KM.getD 0 x.bins (binOf id v)
  { count := min (x.count + 1) 0xFFFFFFFF,
    bins := KM.put x.bins (binOf id v) (min (b + 1) 0xFFFFFFFF),
    min := if x.count = 0 ∨ v < x.min then v else x.min,
    minAt := if x.count = 0 ∨ v < x.min then sec % 2 ^ 32 else x.minAt,
    max := if x.count = 0 ∨ x.max < v then v else x.max,
    maxAt := if x.count = 0 ∨ x.max < v then sec % 2 ^ 32 else x.maxAt,
    sum := clampSum (x.sum + v),
    sat := x.sat || decide (0xFFFFFFFF ≤ x.count ∨ 0xFFFFFFFF ≤ b ∨ clampSum (x.sum + v) ≠ x.sum + v) }

/-- A sample of a series goes into the live set. -/
def State.sample (s : State) (id : Nat) (v : Int) : State :=
  { s with hist.live.series := KM.put s.hist.live.series id (takeSample id v s.rtcSeconds (KM.getD {} s.hist.live.series id)) }

/-! ### Service days (R411) -/

/-- SERVICE_DAYS: calendar days since the manufacture date, while the RTC is valid. -/
def State.showDays (s : State) : State :=
  if s.clock.valid then s.setNum pPKG 0x108 (s.rtcSeconds / 86400 - Config.manufactured / 86400) else s

/-! ### Tally counts (R458) -/

/-- A tenant's eight counters. -/
def State.tallyOf (s : State) (t : Nat) : List Nat := KM.getD (List.replicate 8 0) s.tally.counters t

/-- Element k of a list raised, modulo 2^64. -/
def addAt (k n : Nat) : List Nat → List Nat
  | [] => []
  | x :: l => if k = 0 then (x + n) % 2 ^ 64 :: l else x :: addAt (k - 1) n l

/-- A tenant's counter k advances by n. -/
def State.tallyAdd (s : State) (t k n : Nat) : State :=
  { s with tally.counters := KM.put s.tally.counters t (addAt k n (s.tallyOf t)) }

/-- Records staging holds (R461). -/
def stagingSize : Nat := 2080768

/-- STAGED and STAGING_FREE shown. -/
def State.showTally (s : State) : State :=
  (s.setNum pTLY 0x04C s.tally.staged.length).setNum pTLY 0x050 (stagingSize - s.tally.staged.length)

/-- A counter field: the count since the last completed close, held at 2^56 - 1. -/
def tallyField (now then_ : Nat) : Nat := min ((now + 2 ^ 64 - then_) % 2 ^ 64) (2 ^ 56 - 1)

/-- A count since the last completed close is too great for its field. -/
def tallyOver (now then_ : Nat) : Bool := decide (2 ^ 56 ≤ (now + 2 ^ 64 - then_) % 2 ^ 64)

/-- A tenant's record: the counters given, less those of the last completed close (table "Tally record"). -/
def State.tallyRecord (s : State) (t minute : Nat) (last : Bool) (c : List Nat) : TallyRec :=
  let z := KM.getD (List.replicate 8 0) s.tally.closed t
  { minute := minute % 2 ^ 32, tenant := t, first := decide (t ∈ s.tally.firsts), last, step := s.tally.step, invalid := s.tally.invalid,
    fold := min s.tally.folds 255, outage := s.tally.outage, sat := (List.zipWith tallyOver c z).any id, counts := List.zipWith tallyField c z }

/-- Records put into staging, in order; TALLY_SATURATED where one sets SATURATED. -/
def State.stageAll (s : State) : List TallyRec → State
  | [] => s
  | r :: l =>
    let s := { s with tally.staged := s.tally.staged ++ [(s.tally.next, r)], tally.next := s.tally.next + 1 }
    (if r.sat then s.fire pTLY 2 else s).stageAll l

/-- What an erased tenant leaves: its counters, closed values and FIRST mark are gone, unless the tenant exists again (R460). -/
def State.dropTally (s : State) (t : Nat) : State :=
  if (KM.get s.win.tenants t).isSome then s
  else { s with tally.counters := KM.del s.tally.counters t, tally.closed := KM.del s.tally.closed t, tally.saved := KM.del s.tally.saved t }

/-- LAST records reach staging while it has free slots, and the counters they close are cleared (R460). -/
def State.stageLasts (s : State) : List TallyRec → State
  | [] => s
  | r :: l =>
    if stagingSize ≤ s.tally.staged.length then s
    else
      let s := (s.stageAll [r]).dropTally r.tenant
      ({ s with tally.lasts := s.tally.lasts.drop 1 }).stageLasts l

/-- A tenant is erased: its counters are frozen and its LAST record written, outside the minute rhythm (R460). -/
def State.tallyEnd (s : State) (t : Nat) : State :=
  let r := s.tallyRecord t (s.rtcSeconds / 60) true (s.tallyOf t)
  let s := { s with tally.lasts := s.tally.lasts ++ [r], tally.firsts := s.tally.firsts.filter (· ≠ t) }
  (s.stageLasts s.tally.lasts).showTally

/-- A tenant is made: its counters start at 0, and its first record carries FIRST (R460). -/
def State.tallyStart (s : State) (t : Nat) : State :=
  { s with tally.counters := KM.put s.tally.counters t (List.replicate 8 0), tally.closed := KM.del s.tally.closed t,
           tally.saved := KM.del s.tally.saved t, tally.firsts := insertSorted t s.tally.firsts }

end Sys2Proof.Machine
end

