-- ==== Sys2Proof/Machine/Admin.lean ====
section
/-!
DEFINITION. The admin queues (chapter 02): queue pairs, doorbells, the fetch of a command, its checks, its journal entry and its
completion; and the commands that chapter 02 settles.
-/

namespace Sys2Proof.Machine

/-! ### Status codes (table "Command status codes") -/

/-- SUCCESS. -/
def stSUCCESS : Nat := 0x0000
/-- INVALID_OPCODE. -/
def stINVALID_OPCODE : Nat := 0x0001
/-- INVALID_FIELD. -/
def stINVALID_FIELD : Nat := 0x0002
/-- DATA_XFER_ERROR. -/
def stDATA_XFER_ERROR : Nat := 0x0003
/-- AUTH_FAIL. -/
def stAUTH_FAIL : Nat := 0x0004
/-- NOT_PERMITTED. -/
def stNOT_PERMITTED : Nat := 0x0005
/-- ABORTED. -/
def stABORTED : Nat := 0x0006
/-- STATE_CONFLICT. -/
def stSTATE_CONFLICT : Nat := 0x0007
/-- NO_RESOURCE. -/
def stNO_RESOURCE : Nat := 0x0008
/-- BUSY_RETRY. -/
def stBUSY_RETRY : Nat := 0x0009
/-- CONTENDED. -/
def stCONTENDED : Nat := 0x0010
/-- STALE_GENERATION. -/
def stSTALE_GENERATION : Nat := 0x0011
/-- KEY_LOST. -/
def stKEY_LOST : Nat := 0x0012
/-- TAG_FAIL. -/
def stTAG_FAIL : Nat := 0x0013
/-- NOT_ERASED. -/
def stNOT_ERASED : Nat := 0x0014
/-- POISONED. -/
def stPOISONED : Nat := 0x0015
/-- TWIN_UNAVAILABLE. -/
def stTWIN_UNAVAILABLE : Nat := 0x0016
/-- SIGNATURE_FAIL. -/
def stSIGNATURE_FAIL : Nat := 0x0017

/-! ### Queue pairs -/

/-- An admin queue pair of a function. -/
def State.aq (s : State) (fn : Fn) (q : Nat) : Option AdminQ :=
  KM.get (match fn with | .pf0 => s.host.qps0 | .pf1 => s.host.qps1) q

/-- A queue pair set. -/
def State.setAq (s : State) (fn : Fn) (q : Nat) (v : AdminQ) : State :=
  match fn with
  | .pf0 => { s with host.qps0 := KM.put s.host.qps0 q v }
  | .pf1 => { s with host.qps1 := KM.put s.host.qps1 q v }

/-- A queue pair deleted. -/
def State.delAq (s : State) (fn : Fn) (q : Nat) : State :=
  match fn with
  | .pf0 => { s with host.qps0 := KM.del s.host.qps0 q }
  | .pf1 => { s with host.qps1 := KM.del s.host.qps1 q }

/-- A completion queue is full (R46): the index after the next one to write equals CQ_HEAD. -/
def AdminQ.full (a : AdminQ) : Bool := decide ((a.cqTail + 1) % a.cqSize = a.cqHead)

/-- A queue pair halted (R48), and QUEUE_HALTED raised; queue pair 0 shows AQ_HALTED. -/
def State.haltAq (s : State) (fn : Fn) (q : Nat) (a : AdminQ) : State :=
  let s := s.setAq fn q { a with halted := true }
  let s := if q = 0 then s.setFld (pPX fn) 0x054 1 1 1 else s
  s.fire 0x004C 1

/-- Commands of a queue pair that were fetched and not started are removed; those started lose their CQE (R34, R493). -/
def dropQueue (fn : Fn) (q : Nat) : List Outstanding → List Outstanding
  | [] => []
  | o :: l =>
    if o.cmd.fn = fn ∧ o.cmd.sq = q then
      if o.started then { o with discard := true } :: dropQueue fn q l else dropQueue fn q l
    else o :: dropQueue fn q l

/-- A completion held for its completion queue (R46), unless the queue pair is gone. -/
def State.holdCqe (s : State) (fn : Fn) (q : Nat) (e : Cqe) : State :=
  match s.aq fn q with
  | some a => s.setAq fn q { a with held := a.held ++ [e] }
  | none => s

/-! ### The Steward's state as commands see it -/

/-- STW.STATUS.STATE (R366). -/
def State.stwState (s : State) : Nat := s.fld pSTW 0x040 31 29

/-- The pair, or the one core left, executes: no outage (R367), and start-up is over. -/
def State.pairRuns (s : State) : Bool :=
  s.stw.outageAt.isNone && s.stw.replayTo.isNone && decide (s.stwState = 1 ∨ s.stwState = 4 ∨ s.stwState = 5 ∨ s.stwState = 6)

/-! ### Starting a command -/

/-- The position of a command among those outstanding. -/
def sameCmd (op : Nat) (c : AdminCmd) (o : Outstanding) : Bool := decide (o.op = op ∧ o.cmd = c)

/-- A command may start (R47): every earlier command of its SQ has started, or with FENCE has completed. -/
def mayStart (c : AdminCmd) (before : List Outstanding) : Bool :=
  before.all fun o => decide (¬(o.cmd.fn = c.fn ∧ o.cmd.sq = c.sq)) || (o.started && decide (c.flags % 2 = 0))

/-- A command's journal entry in state ENTERED (R364), with a new operation identifier. -/
def State.enter (s : State) (op : Nat) (c : AdminCmd) : Nat × State :=
  let e : JournalEntry := { jseq := s.host.nextJseq, fn := fnNum c.fn, op, sq := c.sq, cid := c.cid, state := 1, step := 0,
                            target := c.target, status := 0, result0 := 0, result1 := 0, opId := s.host.nextOp, time := s.rtc }
  let s := { s with host.journal := (e :: s.host.journal).take 16384, host.nextJseq := s.host.nextJseq + 1, host.nextOp := s.host.nextOp + 1 }
  (s.host.nextOp - 1, s.set64 pSTW 0x068 0x06C s.host.nextJseq)

/-- An outstanding command replaced, the first that a test names. -/
def replaceFirst (p : Outstanding → Bool) (f : Outstanding → Outstanding) : List Outstanding → List Outstanding
  | [] => []
  | o :: l => if p o then f o :: l else o :: replaceFirst p f l

/-- The journal entry of an operation rewritten in state DONE with its outcome. -/
def closeEntry (opId st r0 r1 shown time state : Nat) : List JournalEntry → List JournalEntry
  | [] => []
  | e :: l =>
    if e.opId = opId ∧ e.state = 1 then
      { e with state, status := st, result0 := r0, result1 := r1, opId := shown, time } :: l
    else e :: closeEntry opId st r0 r1 shown time state l

/-- What a command answers when it completes: status, results, and the operation OP_ID names where it is not its own (CONTENDED). -/
structure Answer where
  status : Nat
  r0 : Nat := 0
  r1 : Nat := 0
  op : Option Nat := none
  deriving DecidableEq, Repr

/-- SUCCESS with results. -/
def good (r0 : Nat := 0) (r1 : Nat := 0) : Option Answer := some { status := stSUCCESS, r0, r1 }

/-- A status other than SUCCESS. -/
def bad (status : Nat) (r0 : Nat := 0) (r1 : Nat := 0) : Option Answer := some { status, r0, r1 }

/-- The command of an operation completes: its journal entry is marked DONE, it leaves the outstanding commands, and its CQE is held
for its queue unless it is to be discarded (R34, R45, R364). -/
def State.complete (s : State) (opId : Nat) (a : Answer) : State :=
  match s.host.cmds.find? fun o => o.started && o.opId == opId with
  | none => s
  | some o =>
    let shown := a.op.getD opId
    let s := { s with host.journal := closeEntry opId a.status a.r0 a.r1 shown s.rtc 2 s.host.journal,
                      host.cmds := s.host.cmds.filter fun x => !(x.started && x.opId == opId) }
    if o.discard then s
    else s.holdCqe o.cmd.fn o.cmd.sq { cid := o.cmd.cid, sqHead := o.sqHead, sqId := o.cmd.sq, status := a.status, result0 := a.r0,
                                       result1 := a.r1, opId := shown }

/-- The step of a long command recorded in its journal entry (R364, R365). -/
def State.journalStep (s : State) (opId step : Nat) : State :=
  { s with host.journal := s.host.journal.map fun e => if e.opId = opId ∧ e.state = 1 then { e with step := step } else e }

/-! ### Checks every command meets -/

/-- Commands marked A (R50). -/
def authOps : List Nat :=
  [0x08, 0x09, 0x0A, 0x11, 0x30, 0x32, 0x40, 0x41, 0x42, 0x43, 0x50, 0x51, 0x52, 0x54, 0x62]

/-- The opcodes of the table "Admin command set". -/
def knownOps : List Nat :=
  List.range 13 ++ List.range' 0x10 10 ++ List.range' 0x20 6 ++ List.range' 0x30 5 ++ List.range' 0x40 5 ++ List.range' 0x50 5 ++
    List.range' 0x60 6

/-- Opcodes accepted in RESCUE (R372). -/
def rescueOk (op : Nat) (c : AdminCmd) : Bool :=
  op ∈ [0x00, 0x05, 0x04, 0x0B, 0x53, 0x50] || (op = 0x51 && c.p0 = 1)

/-- FLAGS.AUTH. -/
def cmdAuth (c : AdminCmd) : Bool := c.flags.testBit 1

/-- The data buffer after the authorisation block (R50). -/
def proper (c : AdminCmd) : List Byte := if cmdAuth c then c.data.drop 48 else c.data

/-- Where the data proper begins, and how long it is. -/
def properAddr (c : AdminCmd) : Nat := if cmdAuth c then c.dataAddr + 48 else c.dataAddr

/-- Length of the data proper. -/
def properLen (c : AdminCmd) : Nat := if cmdAuth c then c.dataLen - 48 else c.dataLen

/-- The SQE as 64 bytes with CID set to 0, as R50 authenticates it (table "Submission queue entry"). -/
def sqeBytes (op : Nat) (c : AdminCmd) : List Byte :=
  leBytes 1 op ++ leBytes 1 c.flags ++ leBytes 2 0 ++ leBytes 4 c.target ++ leBytes 8 c.dataAddr ++ leBytes 4 c.dataLen ++ leBytes 4 0 ++
    leBytes 4 c.p0 ++ leBytes 4 c.p1 ++ leBytes 4 c.p2 ++ leBytes 4 c.p3 ++ leBytes 4 c.p4 ++ leBytes 4 c.p5 ++ leBytes 4 c.p6 ++
    leBytes 4 c.p7 ++ leBytes 4 c.p8 ++ leBytes 4 c.p9

/-- Fields whose reserved encodings every command refuses (R9, R51, table "Submission queue entry"). -/
def badFields (c : AdminCmd) : Bool :=
  decide (c.flags / 4 ≠ 0 ∨ c.dataAddr % 8 ≠ 0 ∨ 1048624 < c.dataLen)

/-- The challenge a command presents, if its function owns it. -/
def State.challenge (s : State) (c : AdminCmd) : Option Challenge :=
  s.host.challenges.find? fun h => decide (h.value.toNat = leNat (c.data.take 8) ∧ h.fn = c.fn)

/-- Challenges left after a command presented one: the owner's use of it is its last (R50). -/
def State.useChallenge (s : State) (c : AdminCmd) : State :=
  { s with host.challenges := s.host.challenges.filter fun h => !decide (h.value.toNat = leNat (c.data.take 8) ∧ h.fn = c.fn) }

/-- The authorisation block of a command is good (R50). -/
def State.authOk (s : State) (op : Nat) (c : AdminCmd) : Bool :=
  match s.challenge c, KM.get s.larder.slots 2 with
  | some h, some k =>
    decide (48 ≤ c.data.length) && decide (s.now ≤ h.at_ + 10 * second) && decide (k.state ≠ .empty) &&
      decide ((Config.hmacSha256 k.key (sqeBytes op c ++ c.data.take 16 ++ c.data.drop 48)).toNat = beNat ((c.data.drop 16).take 32))
  | _, _ => false

/-- The checks of a command in order: field encodings, RESCUE, the transfer of its buffer, authorisation (KEY_IMPORT_ECDH into
an EMPTY slot 2 runs without it, R334). Answers the status that ends it, if
any, and the state after (a challenge used up). -/
def State.checks (s : State) (op : Nat) (c : AdminCmd) : Option Nat × State :=
  if badFields c then (some stINVALID_FIELD, s)
  else if s.stwState = 6 ∧ rescueOk op c = false then (some stSTATE_CONFLICT, s)
  else if c.xferOk = false then (some stDATA_XFER_ERROR, s)
  else if cmdAuth c then
    if s.authOk op c then (none, s.useChallenge c) else (some stAUTH_FAIL, s.useChallenge c)
  else if op ∈ authOps ∧ ¬(op = 0x41 ∧ c.target = 2 ∧ (KM.getD {} s.larder.slots 2).state = .empty) then (some stAUTH_FAIL, s)
  else (none, s)

/-- The outstanding command that a row names, with those fetched before it. -/
def findCmd (op : Nat) (c : AdminCmd) : List Outstanding → List Outstanding → Option (Outstanding × List Outstanding)
  | _, [] => none
  | before, o :: l => if sameCmd op c o && !o.running then some (o, before.reverse) else findCmd op c (o :: before) l

/-- The Steward applies a command it has fetched: the command starts if it has not (its journal entry ENTERED), passes the checks, and has its
effect; a command whose effect ends later completes in a later step. A command not fetched, not allowed to start yet, or met while the pair
does not run leaves the state as it is. -/
def State.adminRun (s : State) (op : Nat) (c : AdminCmd) (body : Nat → State → State × Option Answer) : State :=
  match findCmd op c [] s.host.cmds with
  | none => s
  | some (o, before) =>
    if s.pairRuns && (o.started || mayStart c before) then
      let (opId, s) := if o.started then (o.opId, s) else s.enter op c
      let s := { s with host.cmds := replaceFirst (fun x => sameCmd op c x && !x.running)
                                       (fun x => { x with started := true, running := true, opId }) s.host.cmds }
      match s.checks op c with
      | (some st, s) => s.complete opId { status := st }
      | (none, s) =>
        match body opId s with
        | (s, some a) => s.complete opId a
        | (s, none) => s
    else s

/-- Bytes written to the data buffer of a command, as many as it has room for. -/
def State.toBuffer (s : State) (c : AdminCmd) (bs : List Byte) : State :=
  let bs := bs.take (properLen c)
  if bs = [] ∨ c.dataAddr = 0 then s else s.emit (.hostWrite c.fn (properAddr c) bs)

/-- A page a command of a function may not change, since the other requester holds its lock (R42). -/
def State.cmdLocked (s : State) (c : AdminCmd) (page : Nat) : Bool := s.lockedOut (fnReq c.fn) page

/-- A page index that names a page of this part. -/
def State.realPage (s : State) (page : Nat) : Bool :=
  decide (page < 0x4000) && (pageType page).isSome && !s.absent page

/-! ### Queue pair 0 and the doorbells -/

/-- A write of AQ_CTRL with AQ_ENABLE set (R494). The write's sizes count where AQ_ENABLE was 0, and are ignored where it was 1. -/
def execAqEnableSet (fn : Fn) (data : Word) (s : State) : Res :=
  .next (s.guarded (fnReq fn) 0x004C fun s =>
    let p := pPX fn
    if bit (s.reg p 0x050) 31 then s
    else
      let s := s.setReg p 0x050 (setBits (setBits (setBits 0 31 31 1) 27 16 (bits data 27 16)) 11 0 (bits data 11 0))
      let sq := s.reg64 p 0x040 0x044
      let cq := s.reg64 p 0x048 0x04C
      if bits data 27 16 = 0 ∨ bits data 11 0 = 0 ∨ sq % 4096 ≠ 0 ∨ cq % 4096 ≠ 0 then
        (s.setNum p 0x054 2).fire 0x004C 1
      else
        (s.setNum p 0x054 1).setAq fn 0
          { sqBase := sq, cqBase := cq, sqSize := bits data 11 0 + 1, cqSize := bits data 27 16 + 1, vector := 0 })

/-- A write of AQ_CTRL with AQ_ENABLE clear (R493): queue pair 0 stops at once. -/
def execAqEnableClear (fn : Fn) (data : Word) (s : State) : Res :=
  .next (s.guarded (fnReq fn) 0x004C fun s =>
    let p := pPX fn
    if bit (s.reg p 0x050) 31 then
      let s := s.setFld p 0x050 31 31 0
      let s := (s.setNum p 0x054 0).delAq fn 0
      { s with host.cmds := dropQueue fn 0 s.host.cmds }
    else s.setReg p 0x050 (setBits (setBits 0 27 16 (bits data 27 16)) 11 0 (bits data 11 0)))

/-- A doorbell of a queue pair that does not exist on the function, or of queue pair 0 while AQ_READY is 0 (R48). -/
def State.stray (s : State) (fn : Fn) : State := s.bump (pPX fn) 0x064

/-- A write of SQ_TAIL (R48). A halted queue pair stays as it is. -/
def execSqTailDoorbell (fn : Fn) (q : Nat) (data : Word) (s : State) : Res :=
  .next (if 32 ≤ q then s else s.guarded (fnReq fn) 0x004C fun s =>
    match s.aq fn q with
    | none => s.stray fn
    | some a =>
      let v := bits data 11 0
      if a.halted then s
      else if a.sqSize ≤ v then s.haltAq fn q a
      else s.setAq fn q { a with sqTail := v })

/-- A write of CQ_HEAD (R46, R48). The head of a halted queue pair still moves, so that its outstanding completions can be written. -/
def execCqHeadDoorbell (fn : Fn) (q : Nat) (data : Word) (s : State) : Res :=
  .next (if 32 ≤ q then s else s.guarded (fnReq fn) 0x004C fun s =>
    match s.aq fn q with
    | none => s.stray fn
    | some a =>
      let v := bits data 11 0
      if a.cqSize ≤ v then (if a.halted then s else s.haltAq fn q a)
      else s.setAq fn q { a with cqHead := v })

/-- A CID is outstanding on a submission queue: fetched and its CQE not yet written (R48). -/
def State.cidOutstanding (s : State) (fn : Fn) (q cid : Nat) : Bool :=
  (s.host.cmds.any fun o => decide (o.cmd.fn = fn ∧ o.cmd.sq = q ∧ o.cmd.cid = cid) && !o.discard) ||
  (match s.aq fn q with | some a => a.held.any fun e => e.cid == cid | none => false)

/-- The device fetches the SQE at SQ_HEAD of a running queue pair whose CQ has room (R46, R47); in RESCUE only queue pair 0 runs (R372); during an
outage commands wait unfetched (R367). A repeated CID halts the queue pair and stays at SQ_HEAD (R48). A command that may start at once has its
journal entry ENTERED written (R364). -/
def execSqeFetch (fn : Fn) (q : Nat) (op : Nat) (c : AdminCmd) (s : State) : Res :=
  .next (match s.aq fn q with
    | none => s
    | some a =>
      if a.halted ∨ a.sqHead = a.sqTail ∨ a.full ∨ s.pairRuns = false ∨ (s.stwState = 6 ∧ q ≠ 0) ∨ c.fn ≠ fn ∨ c.sq ≠ q then s
      else if s.cidOutstanding fn q c.cid then s.haltAq fn q a
      else
        let head := (a.sqHead + 1) % a.sqSize
        let s := s.setAq fn q { a with sqHead := head }
        let starts := mayStart c s.host.cmds
        let (opId, s) := if starts then s.enter op c else (0, s)
        { s with host.cmds := s.host.cmds ++ [{ op, cmd := c, started := starts, running := false, opId, sqHead := head, discard := false }] })

/-- The oldest held completion is written to its queue where there is room, with the current phase, and its MSI-X message follows at once or is
coalesced (R45, R46). UNCHECKED shows in bit 31 of RESULT1 (R366). -/
def execCqePost (fn : Fn) (q : Nat) (s : State) : Res :=
  .next (match s.aq fn q with
    | none => s
    | some a =>
      match a.held with
      | [] => s
      | e :: rest =>
        if a.full then s
        else
          let e := if bit (s.reg pSTW 0x040) 28 then { e with result1 := withBit e.result1 31 } else e
          let s := s.emit (.cqe fn (a.cqBase + 32 * a.cqTail) e a.phase)
          let tail := (a.cqTail + 1) % a.cqSize
          let n := a.unsignalled + 1
          let now := a.coalUs = 0 ∨ (a.coalN ≠ 0 ∧ a.coalN ≤ n)
          let s := s.setAq fn q { a with held := rest, cqTail := tail, phase := if tail = 0 then !a.phase else a.phase,
                                         unsignalled := if now then 0 else n }
          if now then s.signal fn a.vector else s)

/-- A CQ has been full for 1 s (R46). -/
def execCqStall (fn : Fn) (q : Nat) (s : State) : Res :=
  .next (match s.aq fn q with
    | none => s
    | some a => if a.full then s.fire 0x004C 0 else s)

/-- The coalescing time of a CQ ends with entries not signalled (R44). -/
def execCqCoalesceExpire (fn : Fn) (q : Nat) (s : State) : Res :=
  .next (match s.aq fn q with
    | none => s
    | some a => if a.unsignalled = 0 then s else (s.setAq fn q { a with unsignalled := 0 }).signal fn a.vector)

/-! ### Commands settled in chapter 02 -/

/-- NOP (R47). -/
def execNop (c : AdminCmd) (s : State) : Res := .next (s.adminRun 0x00 c fun _ s => (s, good))

/-- An opcode not listed (R51). -/
def execInvalidOpcode (op : Nat) (c : AdminCmd) (s : State) : Res :=
  .next (if op ∈ knownOps then s else s.adminRun op c fun _ s => (s, bad stINVALID_OPCODE))

/-- CREATE_QP (R44). DESIGN CHOICE (log 8): PARAM0/1 hold the SQ base, PARAM2/3 the CQ base, PARAM4 the sizes as AQ_CTRL does, PARAM5 the
vector with bit 31 set where one is named, PARAM6 the coalescing time (bits 7:0) and entries (bits 15:8). -/
def execCreateQp (c : AdminCmd) (s : State) : Res :=
  .next (s.adminRun 0x01 c fun _ s =>
    let sq := c.p0 + 2 ^ 32 * c.p1
    let cq := c.p2 + 2 ^ 32 * c.p3
    let n := c.p4 % 4096
    let m := c.p4 / 65536
    let vec := if c.p5.testBit 31 then c.p5 - 2 ^ 31 else c.target
    if c.target = 0 ∨ 31 < c.target ∨ n = 0 ∨ m = 0 ∨ 4095 < m ∨ c.p4 / 4096 % 16 ≠ 0 ∨ sq % 4096 ≠ 0 ∨ cq % 4096 ≠ 0 ∨ 2047 < vec ∨
        65535 < c.p6 ∨ (c.p5.testBit 31 = false ∧ c.p5 ≠ 0) then
      (s, bad stINVALID_FIELD)
    else if (s.aq c.fn c.target).isSome then (s, bad stSTATE_CONFLICT)
    else (s.setAq c.fn c.target { sqBase := sq, cqBase := cq, sqSize := n + 1, cqSize := m + 1, vector := vec, coalUs := c.p6 % 256,
                                  coalN := c.p6 / 256 }, good))

/-- DELETE_QP (R44): its unstarted commands end ABORTED, and with the queue pair go their CQEs. -/
def execDeleteQp (c : AdminCmd) (s : State) : Res :=
  .next (s.adminRun 0x02 c fun _ s =>
    if c.target = 0 ∨ 31 < c.target then (s, bad stINVALID_FIELD)
    else if (s.aq c.fn c.target).isNone then (s, bad stSTATE_CONFLICT)
    else
      let s := s.delAq c.fn c.target
      ({ s with host.cmds := dropQueue c.fn c.target s.host.cmds }, good))

/-- The command of a function that ABORT names: its CID and SQ, not started. -/
def abortable (c : AdminCmd) (o : Outstanding) : Bool :=
  decide (o.cmd.fn = c.fn ∧ o.cmd.sq = c.p1 ∧ o.cmd.cid = c.p0) && !o.started

/-- ABORT (R496). -/
def execAbort (c : AdminCmd) (s : State) : Res :=
  .next (s.adminRun 0x03 c fun _ s =>
    if 31 < c.p1 then (s, bad stINVALID_FIELD)
    else
      match s.host.cmds.find? (abortable c) with
      | none => (s, good 0)
      | some o =>
        let s := { s with host.cmds := s.host.cmds.filter fun x => !abortable c x }
        (s.holdCqe o.cmd.fn o.cmd.sq { cid := o.cmd.cid, sqHead := o.sqHead, sqId := o.cmd.sq, status := stABORTED, result0 := 0, result1 := 0,
                                       opId := 0 }, good 1))

/-- GET_CHALLENGE (R50): a free value, single use, for this function. -/
def execGetChallenge (c : AdminCmd) (s : State) : Res :=
  .next (s.adminRun 0x04 c fun _ s =>
    if s.drbgStopped then (s, bad stBUSY_RETRY 1000000)
    else
      let (v, s) := s.fresh
      ({ s with host.challenges := s.host.challenges ++ [{ value := v, fn := c.fn, at_ := s.now }] }, good v.toNat))

/-- Top of the populated Loft, in bytes: the reserve ends there (R56). The reserve is 256 GiB. -/
def State.loftTop (s : State) : Nat := (s.fld pTC 0x040 10 0 + 1) * 2 ^ 38

/-- IDENTIFY (R490): identity, bin, capacities and map revisions. -/
def execIdentify (c : AdminCmd) (s : State) : Res :=
  .next (s.adminRun 0x05 c fun _ s =>
    (if (properLen c) = 0 ∨ c.dataAddr = 0 then s
     else s.emit (.identity c.fn (properAddr c) (properLen c) (s.reg64 pPKG 0x044 0x048) s.bin s.loftTop s.win.cellarPages (s.num pPKG 0x004)),
     good))

/-- SET_VECTOR (R52). DESIGN CHOICE (log 8): PARAM0 is the vector. On the Fault Collector page it restricts the collector to this function. -/
def execSetVector (c : AdminCmd) (s : State) : Res :=
  .next (s.adminRun 0x06 c fun _ s =>
    if s.realPage c.target = false ∨ c.p0 < 64 ∨ 2047 < c.p0 then (s, bad stINVALID_FIELD)
    else if s.cmdLocked c c.target then (s, bad stNOT_PERMITTED)
    else
      let s := if c.target = pFC then { s with host.vectors0 := KM.del s.host.vectors0 pFC, host.vectors1 := KM.del s.host.vectors1 pFC } else s
      (match c.fn with
       | .pf0 => { s with host.vectors0 := KM.put s.host.vectors0 c.target c.p0 }
       | .pf1 => { s with host.vectors1 := KM.put s.host.vectors1 c.target c.p0 }, good))

/-- The registers of a page at some offsets returned to 0. -/
def State.zeroRegs (s : State) (page : Nat) : List Nat → State
  | [] => s
  | o :: l => (s.setNum page o 0).zeroRegs page l

/-- Counters of a page cleared (CLEAR_COUNTS): EV_COUNT and its block counter registers. -/
def State.clearCounts (s : State) (page : Nat) : State :=
  s.zeroRegs page (0x028 :: blockCounters ((pageType page).getD 0xFF))

/-- CLEAR_COUNTS (R38). TRK_HIGH restarts from the trackers now in use. -/
def execClearCounts (c : AdminCmd) (s : State) : Res :=
  .next (s.adminRun 0x08 c fun _ s =>
    if s.realPage c.target = false then (s, bad stINVALID_FIELD)
    else if s.cmdLocked c c.target then (s, bad stNOT_PERMITTED)
    else
      let s := s.clearCounts c.target
      (if c.target = pTC then s.setNum pTC 0x094 (s.num pTC 0x090) else s, good))

/-- LOCK_BREAK (R41). -/
def execLockBreak (c : AdminCmd) (s : State) : Res :=
  .next (s.adminRun 0x09 c fun _ s =>
    if s.realPage c.target = false then (s, bad stINVALID_FIELD) else (s.setNum c.target 0x02C 0, good))

/-- Pages that never enter DRILL (R440, R441). -/
def neverDrills (page : Nat) : Bool := page = pFC

/-- DRILL_AUTH (R440). -/
def execDrillAuth (c : AdminCmd) (s : State) : Res :=
  .next (s.adminRun 0x0A c fun _ s =>
    if s.realPage c.target = false ∨ neverDrills c.target ∨
        (bitList c.p0 32).any (fun i => !(definedSources ((pageType c.target).getD 0xFF)).testBit i) then
      (s, bad stINVALID_FIELD)
    else if s.cmdLocked c c.target then (s, bad stNOT_PERMITTED)
    else if s.pg c.target ≠ .drill then (s, bad stSTATE_CONFLICT)
    else ({ s with host.grants := KM.put s.host.grants c.target c.p0 }, good))

/-- A journal entry as 64 bytes (table "Journal entry"), all but its CRC, which is computed over them. -/
def journalBytes (e : JournalEntry) : List Byte :=
  leBytes 8 e.jseq ++ leBytes 1 e.fn ++ leBytes 1 e.op ++ leBytes 2 e.sq ++ leBytes 2 e.cid ++ leBytes 1 e.state ++ leBytes 1 e.step ++
    leBytes 4 e.target ++ leBytes 2 e.status ++ leBytes 2 0 ++ leBytes 8 e.result0 ++ leBytes 8 e.result1 ++ leBytes 4 e.opId ++
    leBytes 8 e.time ++ leBytes 8 0

/-- One bit step of the reflected CRC-32C (polynomial 0x1EDC6F41). -/
def crcBit (r : Word) : Word := if r.getLsbD 0 then (r >>> 1) ^^^ 0x82F63B78 else r >>> 1

/-- One byte taken into a CRC-32C. -/
def crcByte (r : Word) (b : Byte) : Word :=
  crcBit (crcBit (crcBit (crcBit (crcBit (crcBit (crcBit (crcBit (r ^^^ b.setWidth 32))))))))

/-- CRC-32C of bytes. -/
def crc32c (bs : List Byte) : Word := (bs.foldl crcByte 0xFFFFFFFF) ^^^ 0xFFFFFFFF

/-- JOURNAL_READ (R364): the newest entries, in ascending JSEQ. -/
def execJournalRead (c : AdminCmd) (s : State) : Res :=
  .next (s.adminRun 0x0B c fun _ s =>
    if (properLen c) < 64 then (s, bad stINVALID_FIELD)
    else
      let es := (s.host.journal.take (min 256 ((properLen c) / 64))).reverse
      (s.toBuffer c (es.flatMap fun e => journalBytes e ++ leBytes 4 (crc32c (journalBytes e)).toNat), good es.length))

end Sys2Proof.Machine
end

