-- ==== Sys2Proof/Machine/Mem.lean ====
section
/-!
DEFINITION. The Loft and its pages: bytes, poisoned lines, region write buffers, the page map, page lists, objects and windows as the
other chapters read them (chapters 03 and 12).
-/

namespace Sys2Proof.Machine

/-! ### Areas of the Loft (R55, R56) -/

/-- The reserve base. -/
def State.reserveBase (s : State) : Nat := s.fld pTC 0x040 10 0 * 2 ^ 38

/-- The staging base: the reserve base less 64 GiB. -/
def State.stagingBase (s : State) : Nat := s.reserveBase - 2 ^ 36

/-- First byte of the page-list area. -/
def State.listBase (s : State) : Nat := s.reserveBase + 0x15C0000000

/-- First page number of the Cellar (DPA bit 48). -/
def cellarBase : Nat := 2 ^ 34

/-- The page number of a DPA: bits 48:14. -/
def pageOf (dpa : Nat) : Nat := dpa / 16384

/-- The page is a Cellar page. -/
def isCellar (page : Nat) : Bool := decide (cellarBase ≤ page)

/-- A page number that names a decoded page of the general area or of the Cellar (R55, R64). -/
def State.bindable (s : State) (page : Nat) : Bool :=
  if isCellar page then decide (page - cellarBase < s.win.cellarPages) else decide (page * 16384 < s.stagingBase)

/-- The region of a page (R13, R249): pages rotate across the regions present. -/
def State.regionOf (s : State) (page : Nat) : Nat := page % s.regions

/-! ### Bytes and poison -/

/-- The byte of the Loft at a DPA. -/
def State.loftByte (s : State) (dpa : Nat) : Byte := KM.getD 0 s.loft.bytes dpa

/-- n bytes of the Loft from a DPA. -/
def State.loftRead (s : State) (dpa n : Nat) : List Byte := (List.range n).map fun i => s.loftByte (dpa + i)

/-- One byte of the Loft set. -/
def State.loftPutByte (s : State) (dpa : Nat) (b : Byte) : State :=
  { s with loft.bytes := KM.putD 0 s.loft.bytes dpa b }

/-- Bytes of the Loft set from a DPA on. -/
def State.loftPut (s : State) (dpa : Nat) : List Byte → State
  | [] => s
  | b :: bs => (s.loftPutByte dpa b).loftPut (dpa + 1) bs

/-- The line of the Loft that holds a DPA is poisoned (R303). -/
def State.poisoned (s : State) (line : Nat) : Bool := KM.getD false s.loft.poison line

/-- A line marked poisoned, or not. -/
def State.setPoison (s : State) (line : Nat) (p : Bool) : State :=
  { s with loft.poison := KM.putD false s.loft.poison line p }

/-- A line stored as poisoned: its data symbols are 0 (R303). -/
def State.poisonLine (s : State) (line : Nat) : State := (s.loftPut (line * 64) (List.replicate 64 0)).setPoison line true

/-- A line is under recovery (R308). -/
def State.recovering (s : State) (line : Nat) : Bool := (KM.get s.loft.recov line).isSome

/-- A write of a whole line ends its recovery (R308). -/
def State.endRecovery (s : State) (line : Nat) : State :=
  { s with loft.recov := KM.del s.loft.recov line, loft.merges := s.loft.merges.filter fun p => decide (p.1 / 64 ≠ line) }

/-- A line of a range is under recovery. -/
def State.recoveringIn (s : State) (dpa n : Nat) : Bool := s.loft.recov.any fun p => decide (dpa < p.1 * 64 + 64 ∧ p.1 * 64 < dpa + n)

/-! ### Where a line lives (R274) -/

/-- The channel, and the 39-bit channel address, of a Loft DPA. A part with fewer regions interleaves over those it has (R3). -/
def State.channelOf (s : State) (dpa : Nat) : Nat × Nat :=
  let r := s.regionOf (pageOf dpa)
  let local_ := pageOf dpa / s.regions * 16384 + dpa % 16384
  let k := local_ / 256
  (6 * r + k % 6, k / 6 * 256 + local_ % 256)

/-- The fields of a channel address: subchannel, rank, bank group after hashing, bank, row, line column. -/
def splitAddress (a : Nat) : Nat × Nat × Nat × Nat × Nat × Nat :=
  let row := a / 2 ^ 21 % 2 ^ 18
  (a / 64 % 2, a / 2 ^ 19 % 4, xor64 (a / 256 % 8) (row % 8), a / 2 ^ 17 % 4, row, a / 2 ^ 11 % 64 * 2 + a / 128 % 2)

/-- The key of a bank. -/
def bankKey (c sub rank group bank : Nat) : Nat := (((c * 2 + sub) * 4 + rank) * 8 + group) * 4 + bank

/-- The page of the XTS engine of a channel. -/
def pXT (c : Nat) : Nat := 0x0300 + 0x20 * (c / 6) + 4 + c % 6

/-- KEY_LOADED of the engines of channels shown. -/
def State.showKeys (s : State) : List Nat → State
  | [] => s
  | c :: l => (s.setFld (pXT c) 0x040 0 0 (b2n s.dram.keyed)).showKeys l

/-- RESTORE_KEY of the engines of channels: the image key in the restore register (R295). -/
def State.showRestoreKey (s : State) (on : Bool) : List Nat → State
  | [] => s
  | c :: l => (s.setFld (pXT c) 0x040 1 1 (b2n on)).showRestoreKey on l

/-- The channels this part has. -/
def State.allChannels (s : State) : List Nat := List.range (6 * s.regions)

/-! ### Accesses counted (R297, tables "DRAM channel page block registers" and "XTS engine page block registers") -/

/-- An access to a line whose row is open counts in ROW_HITS. -/
def State.rowHit (s : State) (dpa : Nat) : State :=
  let (c, a) := s.channelOf dpa
  let (sub, rank, group, bank, row, _) := splitAddress a
  if (KM.getD {} s.dram.banks (bankKey c sub rank group bank)).row = some row then s.bump (pDC c) 0x058 else s

/-- A line written: WRITES; encrypted, LINES_ENC, where it is not stored as poison; of a part of it, RMWS, its read being a read of its own (log 39). -/
def State.countStore (s : State) (dpa : Nat) (poison part : Bool) : State :=
  let c := (s.channelOf dpa).1
  let s := (s.rowHit dpa).bump (pDC c) 0x050
  let s := if poison then s else s.bump (pXT c) 0x044
  if part then s.bump (pDC c) 0x05C else s

/-- Lines of a page that lie in channel j of its region: its 64 blocks of four lines go round the six channels. -/
def State.linesIn (s : State) (page j : Nat) : Nat := 4 * ((List.range 64).filter fun k => decide ((page / s.regions * 64 + k) % 6 = j)).length

/-- The lines of a page that channels of its region write, each channel its share; stored as poison they are not encrypted. -/
def State.countShares (s : State) (page : Nat) (poison : Bool) : List Nat → State
  | [] => s
  | j :: l =>
    let c := 6 * s.regionOf page + j
    let n := s.linesIn page j
    let s := s.bump (pDC c) 0x050 n
    (if poison then s else s.bump (pXT c) 0x044 n).countShares page poison l

/-- The 256 lines of a page written by the device itself. -/
def State.countPage (s : State) (page : Nat) (poison : Bool) : State := s.countShares page poison (List.range 6)

/-- Lines of a write buffer written, each whole or in part. -/
def State.countLines (s : State) (buffer : KMap Byte) : List Nat → State
  | [] => s
  | l :: t => (s.countStore (64 * l) false ((List.range 64).any fun i => (KM.get buffer (64 * l + i)).isNone)).countLines buffer t

/-- One line's share of a write (R308, R315, R316): a write marked poisoned stores poison; a write of all 64 bytes clears it; a write of part of a
poisoned line places no byte; one of part of a line under recovery waits for the outcome. -/
def State.placeLine (s : State) (dpa : Nat) (bs : List Byte) (poison : Bool) : State :=
  let line := dpa / 64
  let s := s.countStore dpa poison (bs.length ≠ 64)
  if poison then (s.endRecovery line).poisonLine line
  else if bs.length = 64 then ((s.endRecovery line).loftPut dpa bs).setPoison line false
  else if s.recovering line then { s with loft.merges := s.loft.merges ++ [(dpa, bs)] }
  else if s.poisoned line then s
  else s.loftPut dpa bs

/-- Every byte and mark of a page cleared. -/
def State.zeroPageBytes (s : State) (page : Nat) : State :=
  { s with loft.bytes := KM.keep (fun a _ => a / 16384 ≠ page) s.loft.bytes, loft.poison := KM.keep (fun l _ => l / 256 ≠ page) s.loft.poison }

/-- Lines of a page poisoned. -/
def State.poisonLines (s : State) (page : Nat) (lines : List Nat) : State :=
  { s with loft.poison := (lines.filter fun i => decide (i < 256)).foldl (fun m i => KM.put m (page * 256 + i) true) s.loft.poison }

/-- Bytes placed in a page, by offset. -/
def State.loadBytes (s : State) (page : Nat) (data : KMap Byte) : State :=
  { s with loft.bytes := (KM.keep (fun i _ => decide (i < 16384)) data).foldl (fun m (p : Nat × Byte) => KM.putD 0 m (page * 16384 + p.1) p.2) s.loft.bytes }

/-- Bytes cut at line boundaries: at most 64 from an address, then whole lines. -/
def cutLines (fuel dpa : Nat) (bs : List Byte) : List (Nat × List Byte) :=
  match fuel with
  | 0 => []
  | fuel + 1 =>
    if bs = [] then []
    else
      let n := 64 - dpa % 64
      (dpa, bs.take n) :: cutLines fuel (dpa + n) (bs.drop n)

/-- Bytes as the lines they touch. -/
def lineShares (dpa : Nat) (bs : List Byte) : List (Nat × List Byte) := cutLines (bs.length + 1) dpa bs

/-- Pieces placed line by line; bit i of the map marks the i-th line touched as poisoned (R103). -/
def State.placeShares (s : State) (map : Nat) : List (Nat × List Byte) → State
  | [] => s
  | (a, bs) :: l => (s.placeLine a bs (map % 2 = 1)).placeShares (map / 2) l

/-- Lines of a range that are poisoned, as a bit map from its first line on. -/
def State.poisonMap (s : State) (dpa n : Nat) : Nat :=
  ((List.range ((dpa + n + 63) / 64 - dpa / 64)).filter fun i => s.poisoned (dpa / 64 + i)).foldl (fun a i => a + 2 ^ i) 0

/-- Bytes of a range with the bytes of poisoned lines as zero (R102, R315). -/
def State.readClean (s : State) (dpa n : Nat) : List Byte :=
  (List.range n).map fun i => if s.poisoned ((dpa + i) / 64) then 0 else s.loftByte (dpa + i)

/-! ### Region write buffers (R14, R24, R169) -/

/-- A region takes writes into its write buffer: in BYPASS, in reset, or in post-reset STARTING. -/
def State.buffering (s : State) (r : Nat) : Bool :=
  s.pg (pRG r) = .bypass || s.pg (pRG r) = .starting || s.held (pRG r)

/-- The bytes of a region write buffer, 32 MiB. -/
def bufferSize : Nat := 33554432

/-- Bytes noted in a region write buffer. -/
def noteBytes (m : KMap Byte) (dpa : Nat) : List Byte → KMap Byte
  | [] => m
  | b :: bs => noteBytes (KM.put m dpa b) (dpa + 1) bs

/-- Bytes placed in the Loft. Where the region buffers them, the buffer holds them until it is written out; a byte accepted into it counts as placed (R14). -/
def State.place (s : State) (dpa : Nat) (bs : List Byte) (map : Nat) : State :=
  let r := s.regionOf (pageOf dpa)
  let s := s.placeShares map (lineShares dpa bs)
  if s.buffering r then s.setRegion r { s.region r with buffer := noteBytes (s.region r).buffer dpa bs } else s

/-- The region writes its buffer to the Loft. -/
def State.drainBuffer (s : State) (r : Nat) : State := s.setRegion r { s.region r with buffer := [] }

/-- Every byte of a line lies in the region write buffer. -/
def State.lineBuffered (s : State) (line : Nat) : Bool :=
  (List.range 64).all fun i => (KM.get (s.region (s.regionOf (line / 256))).buffer (line * 64 + i)).isSome

/-! ### The page map -/

/-- The map entry of a page. -/
def State.mapOf (s : State) (page : Nat) : MapEntry := KM.getD {} s.win.map page

/-- A map entry set. -/
def State.setMap (s : State) (page : Nat) (e : MapEntry) : State :=
  { s with win.map := KM.putD {} s.win.map page e }

/-- The code of a map state (table "Cellar-map states"). -/
def MapState.code : MapState → Nat
  | .free => 0
  | .mapped => 1
  | .empty => 2
  | .gather => 3
  | .scrubbing => 4
  | .poisoned => 5
  | .retired => 6

/-- The map state of a code. -/
def mapStateOf : Nat → MapState
  | 1 => .mapped
  | 2 => .empty
  | 3 => .gather
  | 4 => .scrubbing
  | 5 => .poisoned
  | 6 => .retired
  | _ => .free

/-! ### Objects, windows and page lists -/

/-- An object. -/
def State.object (s : State) (id : Nat) : Object := KM.getD {} s.win.objects id

/-- An object set. -/
def State.setObject (s : State) (id : Nat) (o : Object) : State :=
  { s with win.objects := KM.putD {} s.win.objects id o }

/-- A window descriptor. -/
def State.window (s : State) (idx : Nat) : Window := KM.getD {} s.win.windows idx

/-- A window descriptor set. -/
def State.setWindow (s : State) (idx : Nat) (w : Window) : State :=
  { s with win.windows := KM.putD {} s.win.windows idx w }

/-- Two ranges overlap. -/
def overlap (a n b m : Nat) : Bool := decide (a < b + m ∧ b < a + n)

/-- The range lies in a bound page list. -/
def State.listBound (s : State) (dpa n : Nat) : Bool :=
  s.win.objects.any fun p => (p.2.valid || p.2.destroying) && overlap dpa n p.2.pageList (8 * p.2.sizePages)

/-- The page-list entry at a DPA: the page it backs, none for a hole. -/
def State.entryAt (s : State) (dpa : Nat) : Option Nat :=
  let v := leNat (s.loftRead dpa 8)
  if v.testBit 63 then some (v / 2 ^ 14 % 2 ^ 35) else none

/-- The page that backs an object page (R65). -/
def State.objectPage (s : State) (o : Object) (i : Nat) : Option Nat :=
  if o.sizePages ≤ i then none else s.entryAt (o.pageList + 8 * i)

/-- The key of an object page's migration lock (R80). -/
def lockKey (object i : Nat) : Nat := object * 2 ^ 28 + i

/-- The value of a page-list entry that backs a page. -/
def entryValue (page : Nat) : Nat := 2 ^ 63 + page * 2 ^ 14

/-- The handle of a window (table "Window handle"). -/
def handleOf (idx gen : Nat) : Nat := idx * 256 + gen

/-- The windows that reference an object, in index order. -/
def State.aliases (s : State) (id : Nat) : List (Nat × Window) :=
  s.win.windows.filter fun p => p.2.valid && p.2.object == id

/-- This appliance's SIDE. -/
def State.side (s : State) : Nat := s.fld pTWC 0x040 31 31

/-- The pair state: 0 INIT, 1 PAIRED, 2 SUSPECT, 3 SOLO, 4 YIELDED, 5 JOINING. -/
def State.pair (s : State) : Nat := s.fld pTWC 0x044 2 0

/-- The home of a window, as a SIDE: unlisted indices are home at SIDE 0. -/
def State.homeOf (s : State) (idx : Nat) : Nat := KM.getD 0 s.twin.homes idx

/-- The window's home is this appliance. -/
def State.homeHere (s : State) (idx : Nat) : Bool := s.homeOf idx == s.side

/-- This appliance accepts commands for an object (R77). -/
def State.objectHome (s : State) (id : Nat) : Bool :=
  match s.aliases id with
  | (i, _) :: _ => s.homeHere i
  | [] => (s.object id).homeSide == s.side

/-- A stream writes an object (R353). -/
def State.streaming (s : State) (id : Nat) : Bool := s.larder.streams.any fun x => x.object == id

/-- Object pages of a stream's range. -/
def streamPages (x : Stream) : List Nat := List.range' x.first ((x.ctLen + 16383) / 16384)

/-- A page is PENDING_TAG (R353). -/
def State.pendingTag (s : State) (page : Nat) : Bool :=
  s.larder.streams.any fun x => (streamPages x).any fun i => decide (s.objectPage (s.object x.object) i = some page)

/-- The current STORAGE slot of a tenant (R331). -/
def State.storageSlot (s : State) (t : Nat) : Nat := if t = 0 then 6 else (KM.getD {} s.win.tenants t).slot

end Sys2Proof.Machine
end

