-- ==== Sys2Proof/Machine/Link.lean ====
section
/-!
DEFINITION. Key slots as every chapter uses them (chapter 13), frames sent to the twin and answers that wait for it (chapter 09), the dirty
accounting of a region (chapter 07) and the release of pages (R66).
-/

namespace Sys2Proof.Machine

/-! ### Key slots -/

/-- A key slot. -/
def State.slot (s : State) (n : Nat) : Slot := KM.getD {} s.larder.slots n

/-- A key slot set; SLOTS_ACTIVE follows. -/
def State.setSlot (s : State) (n : Nat) (v : Slot) : State :=
  let m : KMap Slot := KM.putD {} s.larder.slots n v
  ({ s with larder.slots := m }).setFld pLD 0x040 13 0 ((KM.keep (fun _ (x : Slot) => decide (x.state ≠ SlotState.empty)) m).length)

/-- The multiple of 2^24 after a counter (R338). -/
def nextMark (c : Nat) : Nat := (c / 2 ^ 24 + 1) * 2 ^ 24

/-- A counter value lies beyond the latest programmed mark, so that a seal with it waits (R338). -/
def beyondMark (k : Slot) : Bool := decide (k.mark + 2 ^ 24 ≤ k.counter)

/-- A slot whose counter has moved: once it stands 2^23 short of the next mark, the record of that mark is being programmed (R338). -/
def noteMark (k : Slot) : Slot :=
  if nextMark k.counter - 2 ^ 23 ≤ k.counter ∧ k.mark < nextMark k.counter then { k with marking := true } else k

/-- The slot refuses further seals (R339). -/
def exhausted (k : Slot) : Bool := decide (2 ^ 64 - 2 ^ 24 ≤ k.counter)

/-- The seal counter a slot gives, and the slot after it (R336). A seal of the device's own that has to wait for its mark counts its wait, and the mark is programmed within the step
(DESIGN CHOICE, log 15). -/
def State.sealCount (s : State) (n : Nat) : Nat × Nat × State :=
  let k := s.slot n
  if k.state = .empty then (k.salt, k.counter, s)
  else
    let s := if beyondMark k then (s.bump pLD 0x054).fireLimited pLD 5 else s
    let k : Slot := if beyondMark k then { k with mark := k.counter / 2 ^ 24 * 2 ^ 24, marking := false } else k
    (k.salt, k.counter, s.setSlot n (noteMark { k with counter := k.counter + 1 }))

/-- A seal under a slot can be made: it holds a key, and its counter is not exhausted (R339, R346). -/
def State.canSeal (s : State) (n : Nat) : Bool := decide ((s.slot n).state ≠ .empty) && !exhausted (s.slot n)

/-- NONCE_EXHAUSTED raised where a seal is refused for its counter. -/
def State.noteExhausted (s : State) (n : Nat) : State :=
  if (s.slot n).state ≠ .empty ∧ exhausted (s.slot n) then s.fire pLD 4 else s

/-- A salt for a slot (R337): a free value, drawn again while another slot holds it; in LINK slots bit 31 is this appliance's SIDE. -/
def State.drawSalt (s : State) (n kind : Nat) : Nat → Nat × State
  | 0 => let (v, s) := s.fresh; (v.toNat % 2 ^ 32, s)
  | fuel + 1 =>
    let (v, s) := s.fresh
    let x := v.toNat % 2 ^ 32
    let x := if kind = 2 then x % 2 ^ 31 + s.side * 2 ^ 31 else x
    if s.larder.slots.any fun p => decide (p.1 ≠ n ∧ p.2.state ≠ .empty ∧ p.2.salt = x) then s.drawSalt n kind fuel else (x, s)

/-- A 256-bit key from the generator: four free values. -/
def State.drawKey (s : State) : Nat × State :=
  let (a, s) := s.fresh
  let (b, s) := s.fresh
  let (c, s) := s.fresh
  let (d, s) := s.fresh
  (a.toNat + 2 ^ 64 * (b.toNat + 2 ^ 64 * (c.toNat + 2 ^ 64 * d.toNat)), s)

/-- A key loaded into a slot: fresh salt, counter 0 (table "Slot states"). -/
def State.loadSlot (s : State) (n kind owner key : Nat) : State :=
  let (salt, s) := s.drawSalt n kind 3
  s.setSlot n { state := .active, kind, owner, key, salt }

/-- The lowest EMPTY slot from 16 upward (R331). -/
def State.freeSlot (s : State) : Option Nat :=
  (List.range' 16 (s.larder.slots.length + 1)).find? fun n => decide (n < 8192 ∧ (s.slot n).state = .empty)

/-- A slot zeroised: key, shadow, salt and counter go at once, in its volatile form and in the Attic, whose record a tombstone supersedes (R342, R349). -/
def State.zeroSlot (s : State) (n : Nat) : State :=
  let s := s.setSlot n {}
  { s with larder.stash := KM.del s.larder.stash n, larder.tombs := insertSorted n s.larder.tombs }

/-- References to a slot: objects and QP contexts that name it (R330). -/
def State.slotRefs (s : State) (n : Nat) : Nat :=
  (s.win.objects.filter fun p => p.2.valid && p.2.keySlot == n).length +
  (s.fab.qps.filter fun p => decide (p.2.state ≠ .free) &&
    (p.2.rxKey0 == n || p.2.rxKey1 == n || p.2.txKey0 == n || p.2.txKey1 == n)).length

/-- A STORAGE slot that is not current and that nothing names any more is zeroised (table "Slot states"). -/
def State.dropRef (s : State) (n : Nat) : State :=
  let k := s.slot n
  if k.state = .active ∧ k.kind = 3 ∧ s.storageSlot k.owner ≠ n ∧ s.slotRefs n = 0 then s.zeroSlot n else s

/-! ### Frames to the twin -/

/-- The page of twin port p. -/
def pTP (p : Nat) : Nat := 0x0048 + p

/-- Twin ports in service with their link up. -/
def State.twinPorts (s : State) : List Nat :=
  [0, 1, 2, 3].filter fun p => bit (s.reg pTWC 0x040) p && bit (s.reg (pTP p) 0x040) 0 && !bit (s.reg (pTP p) 0x040) 2

/-- The pair epoch. -/
def State.epoch (s : State) : Nat := s.num pTWC 0x048

/-- Sequenced frames are sent: in PAIRED, SUSPECT and JOINING, and by a survivor whose resync runs (R235). -/
def State.mirrors (s : State) : Bool := decide (s.pair = 1 ∨ s.pair = 2 ∨ s.pair = 5) || decide (s.pair = 3) && s.twin.resync.isSome

/-- The link key slot for sending (R221). -/
def State.linkSlot (s : State) : Nat := 3 + s.fld pTWC 0x050 31 31

/-- A frame sent on its port, sealed under the link key; none leaves where the slot gives no seal. -/
def State.sendFrame (s : State) (f : TwinFrame) : State :=
  if s.canSeal s.linkSlot then
    let (_, _, s) := s.sealCount s.linkSlot
    (s.bump (pTP f.port) 0x044).emit (.twin f)
  else s.noteExhausted s.linkSlot

/-- An unsequenced frame of this appliance on a port. -/
def State.plainFrame (s : State) (port : Nat) (b : TwinBody) : TwinFrame :=
  { port, side := s.side, epoch := s.epoch, mseq := 0, txCount := 0, body := b }

/-- An unsequenced frame on every port of a list. -/
def State.sendEach (s : State) (b : TwinBody) : List Nat → State
  | [] => s
  | p :: l => (s.sendFrame (s.plainFrame p b)).sendEach b l

/-- An unsequenced frame on every port in service. -/
def State.sendAll (s : State) (b : TwinBody) : State := s.sendEach b s.twinPorts

/-- An unsequenced frame on one port: the lowest in service (DESIGN CHOICE, log 9). -/
def State.sendOne (s : State) (b : TwinBody) : State :=
  match s.twinPorts with
  | [] => s
  | p :: _ => s.sendFrame (s.plainFrame p b)

/-- The next MSEQ to send. -/
def State.mseqTx (s : State) : Nat := s.reg64 pTWC 0x064 0x068

/-- The lowest MSEQ of the twin not applied. -/
def State.mseqApplied (s : State) : Nat := s.reg64 pTWC 0x06C 0x070

/-- A sequenced frame (R222), with the tracker bytes it carries and the pages it names: numbered, kept until the twin has applied it, and sent on a port
in service, spread by its number over them (DESIGN CHOICE, log 9), unless 8,192 frames are unapplied, when it waits its turn. -/
def State.sendSeq (s : State) (b : TwinBody) (bytes : List (Nat × Nat × Nat)) (pages : List Nat) : State :=
  if s.mirrors = false then s
  else
    let n := s.mseqTx
    let ports := s.twinPorts
    let port := ports.getD (n % ports.length) 0
    let f : TwinFrame := { port, side := s.side, epoch := s.epoch, mseq := n, txCount := 0, body := b }
    let full := decide (8192 ≤ s.twin.sent.length)
    let s := s.set64 pTWC 0x064 0x068 (n + 1)
    let s := { s with twin.sent := s.twin.sent ++ [{ frame := f, firstAt := s.now, lastAt := s.now, bytes, pages, queued := full }] }
    if full ∨ ports = [] then s else s.sendFrame f

/-- Metadata records sent, at most 64 to a frame (DESIGN CHOICE, log 9). -/
def State.sendMeta (fuel : Nat) (s : State) (recs : List MetaRecord) (pages : List Nat) : State :=
  match fuel with
  | 0 => s
  | fuel + 1 => if recs = [] then s else (s.sendSeq (.mirrorMeta (recs.take 64)) [] pages).sendMeta fuel (recs.drop 64) []

/-- Metadata records mirrored (R57). -/
def State.mirrorMeta (s : State) (recs : List MetaRecord) (pages : List Nat := []) : State := s.sendMeta (recs.length + 1) recs pages

/-- The CHECK of a segment (R319, unit 3). -/
def segmentCheck (dpa epoch : Nat) (data : List Byte) : Word := crc32c (leBytes 8 dpa ++ leBytes 4 epoch ++ leBytes 4 3 ++ data)

/-- A segment of mirrored data (table "MIRROR_DATA segment"). -/
def State.segment (s : State) (dpa tenant poison : Nat) (newPage : Bool) (data : List Byte) : Segment :=
  { dpa, newPage, tenant, poison, check := segmentCheck dpa s.epoch data, data }

/-- Data of one page as segments: cut in two at the end of its 64th line where it touches 65 lines (R221's table). -/
def State.segmentsOf (s : State) (dpa tenant poison : Nat) (newPage : Bool) (data : List Byte) : List Segment :=
  let first := 64 * 64 - dpa % 64
  if data.length ≤ first then [s.segment dpa tenant poison newPage data]
  else [s.segment dpa tenant (poison % 2 ^ 64) newPage (data.take first),
        s.segment (dpa + first) tenant (poison / 2 ^ 64) false (data.drop first)]

/-- A command's answer once the mirror has applied every frame sent so far (R57); at once in SOLO, or when nothing is outstanding in a state that mirrors. -/
def State.afterMirror (s : State) (op : Nat) (a : Answer) : State × Option Answer :=
  if s.pair = 3 ∨ (s.mirrors ∧ s.twin.sent = []) then (s, some a)
  else ({ s with twin.waits := s.twin.waits ++ [(if s.mirrors then s.mseqTx else 2 ^ 64, op, a.status, a.r0, a.r1)] }, none)

/-! ### The dirty-page log (R237) -/

/-- A page noted in the log while it runs: the 64 KiB Loft extent or the 1 MiB Cellar extent that holds it. -/
def State.logPage (s : State) (page : Nat) : State :=
  if s.twin.logging then
    if isCellar page then
      let l := insertSorted ((page - cellarBase) / 64) s.twin.logCellar
      ({ s with twin.logCellar := l }).setNum pTWC 0x080 l.length
    else
      let l := insertSorted (page / 4) s.twin.logLoft
      ({ s with twin.logLoft := l }).setNum pTWC 0x07C l.length
  else s

/-- Pages noted in the log. -/
def State.logPages (s : State) : List Nat → State
  | [] => s
  | p :: l => (s.logPage p).logPages l

/-- The readahead page of a region. -/
def pRA (r : Nat) : Nat := 0x0300 + 0x20 * r + 10

/-- Staged pages of a region. -/
def State.staged (s : State) (r : Nat) : List Staged := KM.getD [] s.cellar.staged r

/-- Staged pages of a region set, and their number shown. -/
def State.setStaged (s : State) (r : Nat) (l : List Staged) : State :=
  ({ s with cellar.staged := KM.putD [] s.cellar.staged r l }).setNum (pRA r) 0x04C l.length

/-- The staged copy of a page invalidated (R262), and a staging read of it in flight stale. -/
def State.dropStaged (s : State) (page : Nat) : State :=
  let r := s.regionOf page
  let s := { s with cellar.stageFills := s.cellar.stageFills.map fun (f : StageFill) => if f.page = page then { f with stale := true } else f }
  if (s.staged r).any fun x => x.page == page then s.setStaged r ((s.staged r).filter fun x => x.page ≠ page) else s

/-- A map entry changed: noted in the log, and its staged copy invalidated. -/
def State.changeMap (s : State) (page : Nat) (e : MapEntry) : State := ((s.setMap page e).logPage page).dropStaged page

/-! ### Dirty accounting (R170 to R172) -/

/-- The package dirty budget B, in bytes. -/
def State.budget (s : State) : Nat := s.reg64 pLG 0x044 0x048

/-- The budget of each region, B_r (R171). -/
def State.budgetR (s : State) : Nat := s.budget / s.regions

/-- A region's dirty accounting. -/
def State.dirty (s : State) (r : Nat) : Dirty := KM.getD {} s.dur.regions r

/-- D_r in pages: dirty pages, gather pages in use, and reservations for the twin's credits (R170, R227). -/
def dirtyPages (d : Dirty) : Nat := d.pages.length + d.gather.length + d.reserved

/-- F_r in thousandths, saturating (R171). -/
def State.fill (s : State) (d : Dirty) : Nat :=
  if s.budgetR = 0 then (if dirtyPages d = 0 then 0 else 65535) else min 65535 (dirtyPages d * 16384 * 1000 / s.budgetR)

/-- D_r stands below HOLD_EXIT of the region's budget (R183). -/
def State.belowExit (s : State) (r : Nat) (d : Dirty) : Bool :=
  decide (dirtyPages d * 16384 * 100 < s.fld (pRG r) 0x044 15 8 * s.budgetR)

/-- Tenants on the hold list of some region, each once. -/
def State.heldTenants (s : State) : List Nat :=
  s.dur.regions.foldl (fun l (p : Nat × Dirty) => p.2.holdList.foldl (fun l t => insertSorted t l) l) []

/-- HELD_US counted up to now for the tenants held so far (R187): whole µs, each once whatever the number of regions. -/
def State.countHeld (s : State) : State :=
  let l := s.heldTenants
  let n := (s.now - s.tally.heldAt) / 1000
  if l = [] then { s with tally.heldAt := s.now }
  else
    let c := l.foldl (fun m t => KM.put m t (addAt 7 n (KM.getD (List.replicate 8 0) m t))) s.tally.counters
    { s with tally.counters := c, tally.heldAt := s.tally.heldAt + n * 1000 }

/-- A region's accounting set, with the registers that show it: BUDGET_PAGES, DIRTY_PAGES, GATHER_PAGES, FILL, OVER, HOLD, HOLD_COUNT. A region
in HOLD leaves it, and its list is cleared, once its fill is below HOLD_EXIT (R183). -/
def State.setDirty (s : State) (r : Nat) (d : Dirty) : State :=
  let d := if d.hold && s.belowExit r d then { d with hold := false, holdList := [] } else d
  let s := if (s.dirty r).holdList = d.holdList then s else s.countHeld
  let s := { s with dur.regions := KM.putD {} s.dur.regions r d }
  let p := pRG r
  let s := s.setNum p 0x048 (s.budgetR / 16384)
  let s := s.setNum p 0x04C (dirtyPages d)
  let s := s.setNum p 0x050 d.gather.length
  let w := setBits (setBits (setBits (s.reg p 0x054) 15 0 (s.fill d)) 19 19 (b2n (decide (s.budgetR < dirtyPages d * 16384)))) 18 18 (b2n d.hold)
  (s.setReg p 0x054 w).setNum p 0x080 d.holdList.length

/-- The number of the 10 ms period (R175). -/
def State.period (s : State) : Nat := s.now / 10000000

/-- A Loft page is dirty, as a page of its own or as a gather page in use. -/
def State.isDirty (s : State) (page : Nat) : Bool :=
  let d := s.dirty (s.regionOf page)
  (KM.get d.pages page).isSome || (KM.get d.gather page).isSome

/-- A write to a Loft page admitted (R170, R176): a clean page becomes dirty and is charged to its owner; a dirty page takes the period, and REDIRTY while a
harvest of it runs. -/
def State.chargePage (s : State) (page owner : Nat) : State :=
  let r := s.regionOf page
  let d := s.dirty r
  match KM.get d.pages page with
  | some x =>
    s.setDirty r { d with pages := KM.put d.pages page { x with period := s.period, redirty := x.redirty || d.harvests.any fun h => h.page == page } }
  | none =>
    if (KM.get d.gather page).isSome then s
    else s.setDirty r { d with pages := KM.put d.pages page { owner, period := s.period }, newBytes := d.newBytes + 16384 }

/-- A page leaves the dirty set (R172). -/
def State.uncharge (s : State) (page : Nat) : State :=
  let r := s.regionOf page
  let d := s.dirty r
  s.setDirty r { d with pages := KM.del d.pages page, harvests := d.harvests.filter fun h => h.page ≠ page }

/-- The gather page that holds a Cellar page in state GATHER: its location field names it. -/
def State.gatherOf (s : State) (page : Nat) : Option Nat :=
  let e := s.mapOf page
  if e.state = .gather then some e.loc else none

/-- A gather page returned to its pool. -/
def State.freeGather (s : State) (g : Nat) : State :=
  let r := s.regionOf g
  let d := s.dirty r
  s.setDirty r { d with gather := KM.del d.gather g, gatherFree := d.gatherFree ++ [g], harvests := d.harvests.filter fun h => h.page ≠ g }

/-! ### Releasing pages (R66) -/

/-- A flash page freed: its content is no longer reachable. -/
def State.freeFlash (s : State) (loc : Nat) : State := { s with cellar.flash := KM.del s.cellar.flash loc }

/-- A page released: a Cellar page is FREE at once; a Loft page is SCRUBBING until its region's Mover has zero-filled it. Its shadow and its dirty
share go with it. -/
def State.releasePage (s : State) (page : Nat) : State :=
  let e := s.mapOf page
  let s := { s with loft.away := KM.del s.loft.away page }
  let s := match s.gatherOf page with
    | some g =>
      let s := match KM.get (s.dirty (s.regionOf g)).gather g with
        | some x => (match x.source with | some l => s.freeFlash l | none => s)
        | none => s
      s.freeGather g
    | none => s
  let s := if e.state = .mapped then s.freeFlash e.loc else s
  if isCellar page then s.changeMap page {}
  else (s.uncharge page).changeMap page { state := .scrubbing, object := if (s.object e.object).destroying then e.object else 0 }

/-- Pages released, in order. -/
def State.releasePages (s : State) : List Nat → State
  | [] => s
  | p :: l => (s.releasePage p).releasePages l

/-- The records that mirror the map states of pages. -/
def State.mapRecords (s : State) (pages : List Nat) : List MetaRecord := pages.map fun p => .mapState p (s.mapOf p).state.code

/-- The record that mirrors a window descriptor. -/
def State.windowRecord (s : State) (i : Nat) : MetaRecord :=
  let w := s.window i
  .window i w.valid w.revoking w.write w.read w.pinSet w.gen w.tenant w.object w.firstPage w.sizePages w.pinFirst w.pinCount

/-- The record that mirrors an object entry. -/
def State.objectRecord (s : State) (id : Nat) : MetaRecord :=
  let o := s.object id
  .object id o.valid o.readOnly o.gather o.destroying o.homeSide o.owner o.sizePages o.pageList o.aliasCount o.single

end Sys2Proof.Machine
end

