-- ==== Sys2Proof/Machine/Regs.lean ====
section
/-!
DEFINITION. A write to the writable fields of a block register (R9): each field takes its value when it lies in its range, and keeps it otherwise.
-/

namespace Sys2Proof.Machine

/-- A field of a written word taken into a register when it lies in its range. -/
def takeField (data : Word) (w : Word) (f : RwField) : Word :=
  if f.min ≤ bits data f.hi f.lo ∧ bits data f.hi f.lo ≤ f.max then setBits w f.hi f.lo (bits data f.hi f.lo) else w

/-- The writable fields of a register of a type. -/
def fieldsOf (ty off : Nat) : List RwField := rwFields.filter fun f => f.ty = ty && inRun f.off f.stride f.count off

/-- The relations between fields of one register that the tables state as ranges: MIN_RATE to INIT_RATE, INIT_DEPTH to DEPTH_MAX, and each retire
threshold of an eye to its retrain threshold. -/
def relationOk (ty off : Nat) (w : Word) : Bool :=
  if ty = 0x23 ∧ off = 0x108 then decide (bits w 9 0 ≤ bits w 25 16)
  else if ty = 0x4D ∧ off = 0x040 then decide (bits w 13 8 ≤ bits w 5 0)
  else if ty = 0x00 ∧ off = 0x184 then decide (bits w 23 16 ≤ bits w 31 24 ∧ bits w 7 0 ≤ bits w 15 8)
  else true

/-- A word written to the writable fields of a register. -/
def State.writeFields (s : State) (page off : Nat) (data : Word) : State :=
  match pageType page with
  | none => s
  | some ty =>
    let w := (fieldsOf ty off).foldl (takeField data) (s.reg page off)
    if relationOk ty off w then s.setReg page off w else s

end Sys2Proof.Machine
end

