-- ==== Sys2Proof/Machine/History.lean ====
section
/-!
DEFINITION. The RTC and the History Recorder (chapter 18): setting and reading the time; summaries; the ring; reading and clearing the History.
-/

namespace Sys2Proof.Machine

/-! ### The RTC (R444 to R446) -/

/-- What a slew has left to absorb. -/
def State.slewLeft (s : State) : Int := s.clock.slew - s.slewed

/-- VALID, SLEWING, ON_OSC and SLEW_REMAIN shown. -/
def State.showRtc (s : State) : State :=
  let s := ((s.setFld pRTC 0x044 31 31 (b2n s.clock.valid)).setFld pRTC 0x044 30 30 (b2n (decide (s.slewLeft ≠ 0)))).setFld pRTC 0x044 29 29 (b2n s.clock.onOsc)
  s.setReg pRTC 0x054 (BitVec.ofInt 32 s.slewLeft)

/-- The RTC counts on from a value at this instant, with a difference to absorb. -/
def State.anchorRtc (s : State) (v : Nat) (slew : Int) : State :=
  ({ s with clock.base := v % 2 ^ 50, clock.anchor := s.now, clock.slew := slew }).showRtc

/-- The RTC has counted to an instant (R449, R459; DESIGN CHOICE, log 1: the command that marks a boundary brings the RTC to it). -/
def State.reachRtc (s : State) (seconds : Nat) : State :=
  if s.rtc < seconds * 1024 then s.anchorRtc (seconds * 1024) s.slewLeft else s

/-- A step of the RTC seen by the records that are open. -/
def State.noteStep (s : State) : State :=
  { s with hist.live.step := true, hist.tail.step := true, tally.step := true }

/-- A write of SET_HI: its fields, and with GO the set: a slew for a small difference of a valid time, else a step. -/
def execRtcSetGo (req : Requester) (data : Word) (s : State) : Res :=
  .next (s.guarded req pRTC fun s =>
    let s := s.writeFields pRTC 0x04C data
    if bit data 31 = false then s
    else
      let v : Nat := (s.num pRTC 0x048 + 2 ^ 32 * bits data 7 0) * 1024 + bits data 25 16
      let d : Int := Int.ofNat v - Int.ofNat s.rtc
      if s.clock.valid ∧ d.natAbs ≤ 1024 then s.anchorRtc s.rtc d
      else (((({ s with clock.valid := true }).anchorRtc v 0).setNum pRTC 0x050 ((s.num pRTC 0x050 + 1) % 2 ^ 32)).noteStep).fire pRTC 0)

/-- A slew has absorbed its difference. -/
def execRtcSlewDone (s : State) : Res := .next (if s.slewLeft = 0 ∧ s.clock.slew = 0 then s else s.anchorRtc ((s.rtc + s.slewLeft).toNat) 0)

/-- A read of NOW_LO: the pair reads one instant. -/
def execRtcNowLoRead (s : State) : Res :=
  .next (let sec := s.rtcSeconds
    let s := s.setNum pRTC 0x040 sec
    let s := ((s.setFld pRTC 0x044 25 16 (s.rtc % 1024)).setFld pRTC 0x044 7 0 (sec / 2 ^ 32)).showRtc
    s.emit (.readData (sec % 2 ^ 32)))

/-- XTAL_RTC stops: K17's oscillator counts the time (R444), and the sequencer raises RTC_OSC_FAIL. -/
def execRtcOscFail (s : State) : Res :=
  .next (if s.clock.onOsc then s else (({ s with clock.onOsc := true }).showRtc).seqFire 5)

/-! ### Summaries (R448 to R450) -/

/-- Sixteen bins as bytes. -/
def binBytes (m : KMap Nat) : List Byte := (List.range 16).flatMap fun i => leBytes 4 (KM.getD 0 m i)

/-- A series block. -/
def seriesBytes (id : Nat) (x : Series) : List Byte :=
  leBytes 2 id ++ leBytes 1 (b2n x.sat + 2 * b2n (decide (x.count = 0))) ++ leBytes 1 0 ++ leBytes 4 x.count ++ binBytes x.bins ++
    leBytes 4 (BitVec.ofInt 32 x.min).toNat ++ leBytes 4 x.minAt ++ leBytes 4 (BitVec.ofInt 32 x.max).toNat ++ leBytes 4 x.maxAt ++
    leBytes 8 (BitVec.ofInt 64 x.sum).toNat

/-- A series of a set. -/
def Accum.of (a : Accum) (id : Nat) : Series := KM.getD {} a.series id

/-- The three records of a SUMMARY group that ends at a time. -/
def summaryRecs (a : Accum) (end_ : Nat) : List HistRec :=
  [0, 1, 2].map fun i =>
    let ids := List.range' (5 * i + 1) 5
    { ty := 1, index := i, start := a.start, end_,
      flags := b2n (ids.any fun id => (a.of id).sat) + 2 * b2n a.folded + 4 * b2n a.invalid + 8 * b2n a.step + 32 * b2n a.gap + 64 * b2n (decide (i < 2)),
      body := ids.flatMap fun id => seriesBytes id (a.of id) }

/-- Two sums of bins or counts, saturating. -/
def satSum (a b : Nat) : Nat := min (a + b) 0xFFFFFFFF

/-- A series of an abandoned set merged into the later one: bins, counts and sums added, extremes combined, the earlier of equal ones kept. -/
def mergeSeries (old new : Series) : Series :=
  if old.count = 0 then { new with sat := old.sat || new.sat }
  else if new.count = 0 then { old with sat := old.sat || new.sat }
  else
    let sum := old.sum + new.sum
    { count := satSum old.count new.count,
      bins := old.bins.foldl (fun m p => KM.put m p.1 (satSum p.2 (KM.getD 0 m p.1))) new.bins,
      min := if new.min < old.min then new.min else old.min, minAt := if new.min < old.min then new.minAt else old.minAt,
      max := if old.max < new.max then new.max else old.max, maxAt := if old.max < new.max then new.maxAt else old.maxAt,
      sum := clampSum sum,
      sat := old.sat || new.sat || decide (0xFFFFFFFF < old.count + new.count ∨ clampSum sum ≠ sum) ||
        old.bins.any fun p => decide (0xFFFFFFFF < p.2 + KM.getD 0 new.bins p.1) }

/-- An abandoned set merged into the live one (R450). -/
def mergeAccum (old new : Accum) : Accum :=
  { start := min old.start new.start, folded := true, invalid := old.invalid || new.invalid, step := old.step || new.step, gap := old.gap || new.gap,
    series := old.series.foldl (fun m p => KM.put m p.1 (mergeSeries p.2 (KM.getD {} m p.1))) new.series }

/-- A group not programmed by the next boundary is abandoned: its records leave the queue, its set merges into the live one (R450). -/
def State.abandonGroup (s : State) : State :=
  match s.hist.frozen with
  | none => s
  | some f =>
    let s := { s with hist.frozen := none, hist.live := mergeAccum f s.hist.live,
                      hist.queue := s.hist.queue.filter fun r => r.ty ≠ 1, hist.waiting := s.hist.waiting.filter fun r => r.ty ≠ 1 }
    ((s.bump pHR 0x054).fillQueue).fire pHR 0

/-- An instant is a summary boundary: a multiple of 3,600 × PERIOD from 00:00, or 00:00 (R449). -/
def State.isBoundary (s : State) (seconds : Nat) : Bool := decide (seconds % 86400 % (3600 * s.fld pHR 0x040 4 0) = 0)

/-- A summary boundary, where it is later than the last one counted: the live set is swapped for a fresh one, its group queued, and the tail closes. -/
def execSummaryBoundary (seconds : Nat) (s : State) : Res :=
  .next (if s.isBoundary seconds = false ∨ 2 ^ 40 ≤ seconds then s
    else
      let s := s.reachRtc seconds
      if seconds ≤ s.hist.last then s
      else
        let s := s.abandonGroup
        let a := s.hist.live
        let s := { s with hist.frozen := some a, hist.last := seconds, hist.live := { start := seconds * 1024, invalid := !s.clock.valid },
                          hist.waiting := s.hist.waiting ++ summaryRecs a (seconds * 1024) }
        s.fillQueue.closeTail)

/-! ### The ring (R447, R453) -/

/-- A record as 512 bytes. -/
def recBytes (rseq : Nat) (r : HistRec) : List Byte :=
  let b := leBytes 1 r.ty ++ leBytes 1 r.index ++ leBytes 2 r.flags ++ leBytes 8 rseq ++ leBytes 8 r.start ++ leBytes 8 r.end_ ++
    (r.body ++ List.replicate (480 - r.body.length) 0)
  b ++ leBytes 4 (crc32c b).toNat

/-- RSEQ of the next record. -/
def State.nextRseq (s : State) : Nat := s.reg64 pHR 0x044 0x048

/-- RSEQ of the latest CLEAR record. -/
def State.clearRseq (s : State) : Nat := s.reg64 pHR 0x060 0x064

/-- RECORDS shown: the records held since the last clear. -/
def State.showRecords (s : State) : State := s.setNum pHR 0x050 (s.hist.slots.filter fun p => decide (s.clearRseq ≤ p.1)).length

/-- The Attic block at a place of the ring. -/
def State.ringBlock (s : State) (i : Nat) : Nat := s.hist.ring.getD (i % 96) 0

/-- A ring block lies among the slots of a record. -/
def inRing (i : Nat) (p : Nat × Nat) : Bool := p.2 / 512 == i

/-- A block of the Attic erased. -/
def State.eraseAttic (s : State) (b : Nat) : State :=
  { s with attic.blocks := KM.del s.attic.blocks b, attic.erases := KM.put s.attic.erases b (KM.getD 0 s.attic.erases b + 1),
           attic.abandoned := s.attic.abandoned.filter (· ≠ b) }

/-- The block at a place of the ring is erased, with the records it holds. -/
def State.eraseRing (s : State) (i : Nat) : State :=
  (({ s with hist.slots := s.hist.slots.filter fun p => !inRing i p }).eraseAttic (s.ringBlock i)).showRecords

/-- A HISTORY_READ that runs has yet to copy a record of the block at a place of the ring (R456). -/
def State.readNeeds (s : State) (i : Nat) : Bool :=
  s.hist.reads.any fun h => s.hist.slots.any fun p => inRing i p && decide (h.next ≤ p.1 ∧ p.1 < h.limit)

/-- The block two ahead of the head is erased as the head enters a block, which leaves two erased blocks ahead (R453; DESIGN CHOICE, log 24); a running read defers it. -/
def State.eraseAhead (s : State) (i : Nat) : State :=
  if s.readNeeds i then ({ s with hist.deferred := some i }).bump pHR 0x068 else s.eraseRing i

/-- Records put into the slots of the head page, with their RSEQ. -/
def State.programSlots (s : State) (page slot : Nat) : List HistRec → State
  | [] => s
  | r :: l =>
    let b := s.ringBlock (page / 64)
    let k := s.nextRseq
    let blk := s.atticBlock b
    let s := s.setAtticBlock b { data := putAttic blk.data (page % 64 * 4096 + slot * 512) (recBytes k r), marks := insertSorted (page % 64) blk.marks }
    let s := { s with hist.slots := s.hist.slots ++ [(k, page * 8 + slot)] }
    let s := (s.set64 pHR 0x044 0x048 (k + 1))
    let s := if r.ty = 1 ∧ r.index = 2 then { s with hist.frozen := none } else s
    s.programSlots page (slot + 1) l

/-- Up to eight records programmed into the head page; the head moves on, and an erase goes ahead of it as it enters a block. -/
def State.programPage (s : State) (l : List HistRec) : State :=
  let page := s.fld pHR 0x04C 12 0
  let s := s.programSlots page 0 (l.take 8)
  let next := (page + 1) % 6144
  let s := (s.setNum pHR 0x04C next).showRecords
  if next % 64 = 0 then s.eraseAhead ((next / 64 + 2) % 96) else s

/-- A flush or restore is under way (PHASE 1 to 6). -/
def State.phaseBusy (s : State) : Bool := decide (1 ≤ s.fld pPLD 0x044 2 0 ∧ s.fld pPLD 0x044 2 0 ≤ 6)

/-- Eight records are queued, or 1 s has passed since the first: the head page is programmed, outside a flush or restore and after the scan of the ring. -/
def execHistoryPageProgram (s : State) : Res :=
  .next (if s.hist.queue = [] ∨ s.phaseBusy ∨ s.hist.scanned = false ∨ s.attic.op.isSome then s
    else
      let l := s.hist.queue.take 8
      let s := { s with hist.queue := s.hist.queue.drop 8 }
      s.fillQueue.programPage l)

/-- The head scan ends (R454): the newest record found gives the head and the next RSEQ. -/
def execHistoryHeadScanDone (s : State) : Res :=
  .next (if s.hist.scanned then s
    else
      let s := { s with hist.scanned := true }
      match s.hist.slots.reverse with
      | p :: _ => ((s.set64 pHR 0x044 0x048 (p.1 + 1)).setNum pHR 0x04C ((p.2 / 8 + 1) % 6144)).showRecords
      | [] => s)

/-- The live accumulators copied into the retained section (R454). -/
def State.copyHist (s : State) : State := { s with hist.kept := some s.hist.live }

/-- The recorder resumes after a reset from the copy and from the tail; GAP where power was lost (R454). What the write queue and a frozen set held is lost (DEDUCED, log 24). -/
def State.resumeHist (s : State) (lost : Bool) : State :=
  let a := s.hist.kept.getD s.hist.live
  let t := s.hist.tail
  ({ s with hist.live := { a with gap := a.gap || lost }, hist.tail := { t with gap := t.gap || lost }, hist.frozen := none, hist.waiting := [],
            hist.queue := [], hist.reads := [], hist.deferred := none }).showHist

/-- A second of service of the cores in LEAD and SHADOW: SERVICE_H counts hours. -/
def State.countService (s : State) : List Nat → State
  | [] => s
  | i :: l =>
    (if s.fld (0x0050 + i) 0x040 31 30 ≤ 1 ∧ s.fld (0x0050 + i) 0x00C 3 0 = 2 then
       let n := KM.getD 0 s.stw.serviceS i + 1
       if n = 3600 then ({ s with stw.serviceS := KM.del s.stw.serviceS i }).setReg (0x0050 + i) 0x050 (satAdd (s.reg (0x0050 + i) 0x050) 1)
       else { s with stw.serviceS := KM.put s.stw.serviceS i n }
     else s).countService l

/-- The samples of a second (R448), the hours of service of the cores (DESIGN CHOICE, log 1), and the copy of the live accumulators: the hottest junction sensor, the largest SRTT, HOLD NAKs, corrected decodes, the least slack. -/
def execHistoryStateCopy (junction slack : Int) (s : State) : Res :=
  .next (let s := s.countService [0, 1, 2]
    let srtt := (List.range 4).foldl (fun m p => max m (s.num (pTP p) 0x054)) 0
    let s := ((s.sample 1 junction).sample 11 (srtt : Nat)).sample 12 (s.hist.holds : Nat)
    let s := (s.sample 13 (s.hist.corrected : Nat)).sample 15 slack
    ({ s with hist.holds := 0, hist.corrected := 0 }).copyHist.showRtc.showDays)

/-! ### Reading and clearing (R455 to R457) -/

/-- A HISTORY_READ replaced. -/
def State.setRead (s : State) (h : HistRead) : State :=
  { s with hist.reads := s.hist.reads.map fun x => if x.op = h.op then h else x }

/-- Most records a command copies. -/
def readMax (c : AdminCmd) : Nat := min 2048 (properLen c / 512)

/-- Records copied in order, at most a number of them: those whose CRC fails are skipped and counted (R447). -/
def State.copyRecs (s : State) (h : HistRead) : List (Nat × Nat) → State × HistRead
  | [] => (s, h)
  | p :: l =>
    if readMax h.cmd ≤ h.copied then (s, h)
    else
      let bs := s.atticBytes (s.ringBlock (p.2 / 512) * 2 ^ 18 + p.2 % 512 * 512) 512
      if leNat (bs.drop 508) = (crc32c (bs.take 508)).toNat then
        let s := if h.cmd.dataAddr = 0 then s else s.emit (.hostWrite h.cmd.fn (properAddr h.cmd + 512 * h.copied) bs)
        s.copyRecs { h with next := p.1 + 1, copied := h.copied + 1 } l
      else ((s.bump pHR 0x058).fireLimited pHR 2).copyRecs { h with next := p.1 + 1, skipped := h.skipped + 1 } l

/-- The records a HISTORY_READ has yet to look at. -/
def State.toCopy (s : State) (h : HistRead) : List (Nat × Nat) :=
  s.hist.slots.filter fun p => decide (s.clearRseq ≤ p.1 ∧ h.next ≤ p.1 ∧ p.1 < h.limit)

/-- The open content: the SUMMARY records of the live set, the tail, the queued records, with RSEQ 0 and OPEN (R455). -/
def State.openRecs (s : State) : List Byte :=
  (summaryRecs s.hist.live s.rtc ++ [tailRec s.hist.tail s.rtc] ++ s.hist.queue).flatMap fun r => recBytes 0 { r with flags := r.flags + 16 }

/-- A deferred erase that no read needs any more is done. -/
def State.undefer (s : State) : State :=
  match s.hist.deferred with
  | some i => if s.readNeeds i then s else ({ s with hist.deferred := none }).eraseRing i
  | none => s

/-- A HISTORY_READ goes on for a number of records; it ends when nothing is left or its buffer holds no more. -/
def State.goRead (s : State) (h : HistRead) (part : Nat) : State :=
  let (s, h) := s.copyRecs h ((s.toCopy h).take part)
  let s := s.setRead h
  if s.toCopy h = [] ∨ readMax h.cmd ≤ h.copied then
    let room := properLen h.cmd / 512 - h.copied
    let bs := if h.cmd.p2 = 1 then s.openRecs.take (room * 512) else []
    let s := if bs = [] ∨ h.cmd.dataAddr = 0 then s else s.emit (.hostWrite h.cmd.fn (properAddr h.cmd + 512 * h.copied) bs)
    let s := { s with hist.reads := s.hist.reads.filter fun x => x.op ≠ h.op }
    (s.complete h.op { status := stSUCCESS, r0 := h.copied, r1 := h.skipped % 2 ^ 32 + 2 ^ 32 * (h.next % 2 ^ 32) }).undefer
  else s.undefer

/-- HISTORY_READ: it starts, or goes on where it runs, and copies at most the given number of records. -/
def execHistoryRead (c : AdminCmd) (part : Nat) (s : State) : Res :=
  .next (match s.hist.reads.find? fun h => decide (h.cmd = c) with
    | some h => s.goRead h part
    | none =>
      s.adminRun 0x61 c fun op s =>
        if 1 < c.p2 then (s, bad stINVALID_FIELD)
        else
          let h : HistRead := { op, cmd := c, next := c.p0 + 2 ^ 32 * c.p1, limit := s.nextRseq }
          (({ s with hist.reads := s.hist.reads ++ [h] }).goRead h part, none))

/-- What a read loses with a block that is erased under it. -/
def loseBlock (slots : List (Nat × Nat)) (i : Nat) (h : HistRead) : HistRead :=
  { h with skipped := h.skipped + (slots.filter fun p => inRing i p && decide (h.next ≤ p.1 ∧ p.1 < h.limit)).length }

/-- A deferred erase has waited 100 ms and proceeds: the reads skip that block's records. -/
def execHistoryEraseDeferLimit (s : State) : Res :=
  .next (match s.hist.deferred with
    | none => s
    | some i =>
      let s := { s with hist.deferred := none, hist.reads := s.hist.reads.map (loseBlock s.hist.slots i) }
      (s.eraseRing i).fire pHR 3)

/-- The blocks of the ring that hold discarded records, but for the block of the head, erased one by one. -/
def State.eraseCleared (s : State) : List Nat → State
  | [] => s
  | i :: l =>
    if i ≠ s.fld pHR 0x04C 12 0 / 64 ∧ (s.hist.slots.any (inRing i)) ∧ (s.hist.slots.all fun p => !inRing i p || decide (p.1 < s.clearRseq)) then
      (s.eraseRing i).eraseCleared l
    else s.eraseCleared l

/-- The body of a CLEAR record. -/
def State.clearBody (s : State) (c : AdminCmd) : List Byte :=
  leBytes 8 s.nextRseq ++ leBytes 8 s.clearRseq ++ leBytes 4 (s.num pHR 0x050) ++ leBytes 1 (fnNum c.fn) ++ List.replicate 7 0 ++ c.data.take 8

/-- HISTORY_CLEAR: the CLEAR record is programmed, every older record is absent from then on, and the blocks that held them are erased in the background (here
in the same step, log 24). -/
def execHistoryClear (c : AdminCmd) (s : State) : Res :=
  .next (s.adminRun 0x62 c fun _ s =>
    if s.hist.reads ≠ [] ∨ s.phaseBusy ∨ s.hist.scanned = false then (s, bad stBUSY_RETRY 100000)
    else
      let k := s.nextRseq
      let s := s.programPage [{ ty := 5, index := 0, flags := 4 * b2n (!s.clock.valid), start := s.rtc, end_ := s.rtc, body := s.clearBody c }]
      let s := (s.set64 pHR 0x060 0x064 k).eraseCleared (List.range 96)
      (s.showRecords.fire pHR 1, good))

end Sys2Proof.Machine
end

