-- ==== Sys2Proof/Machine/Attic.lean ====
section
/-!
DEFINITION. The Attic (chapter 14): command sequences, programs and erases, reads, execute in place, and resets that wait for it.
-/

namespace Sys2Proof.Machine

/-- The command address of the first and third cycle (R380). -/
def cycleA : Nat := 0x3C3C0

/-- The command address of the second cycle. -/
def cycleB : Nat := 0x0C3C4

/-- A block in pseudo-SLC mode (table "Attic layout"): blocks 0 to 7 and 24 to 55. The spare pool counts as MLC (DESIGN CHOICE, log 27). -/
def isSlc (b : Nat) : Bool := decide (b < 8) || decide (24 ≤ b ∧ b < 56)

/-- STATUS set. -/
def State.setAtticStatus (s : State) (v : Nat) : State := s.setFld pAC 0x044 7 0 v

/-- A bit of STATUS set. -/
def State.atticFlag (s : State) (b : Nat) : State := s.setFld pAC 0x044 b b 1

/-- A sequence is void: SEQ_ERROR, and nothing else changes. -/
def State.voidSeq (s : State) : State := ((({ s with attic.seq := {} }).atticFlag 1).bump pAC 0x060).fire pAC 4

/-- What a program or erase clears (R387): the prefetch buffer, the branch cache and the page registers of the block. -/
def State.dropXip (s : State) (b : Nat) : State :=
  { s with attic.buffer := [], attic.branch := [], attic.openPages := s.attic.openPages.filter fun p => p / 64 ≠ b }

/-- The first failure of the checks at a confirm (R381), as the bit of STATUS. -/
def State.confirmFault (s : State) (block : Nat) (page : Option Nat) : Option Nat :=
  if block < 8 ∧ bit (s.reg pAC 0x040) 31 = false then some 6
  else
    match page with
    | none => none
    | some p =>
      let m := (s.atticBlock block).marks
      if p ∈ m ∨ block ∈ s.attic.abandoned then some 5
      else if (m.any fun q => decide (p < q)) || (isSlc block && decide (32 ≤ p)) then some 4
      else none

/-- A confirm: refused with its fault, or accepted; from here on every read returns the status byte until 0x0F (R382). -/
def State.confirmAttic (s : State) (block : Nat) (page : Option Nat) (op : AtticOp) : State :=
  let s := { s with attic.seq := {}, attic.statusMode := true }
  match s.confirmFault block page with
  | some b => s.atticFlag b
  | none => ({ s with attic.op := some op }).setAtticStatus 0 |>.dropXip block

/-- A write that follows the three cycles of a command. -/
def State.followWrite (s : State) (c offset : Nat) (data : List Byte) : State :=
  let q := s.attic.seq
  let page := offset / 4096
  if c = 0x62 then
    if data = [0xE6] ∧ offset % 0x40000 = 0 then s.confirmAttic (offset / 0x40000) none (.erase (offset / 0x40000)) else s.voidSeq
  else
    match q.target with
    | none => { s with attic.seq := { q with target := some page, buffer := putAttic [] (offset % 4096) (data.take (4096 - offset % 4096)) } }
    | some t =>
      if page ≠ t ∨ 4096 < offset % 4096 + data.length then s.voidSeq
      else if data = [0xD1] ∧ offset % 4096 = 0 then s.confirmAttic (t / 64) (some (t % 64)) (.program t q.buffer)
      else { s with attic.seq := { q with buffer := putAttic q.buffer (offset % 4096) data } }

/-- The third cycle: a program or erase begins its following writes, or is void while the Attic is busy; status mode and read mode act at once, but for a return to array
reads while busy (R380, R381). -/
def State.atticCommand (s : State) (c : Byte) : State :=
  let s := { s with attic.seq := {} }
  if c = 0x21 ∨ c = 0x62 then
    if s.attic.op.isSome then s.voidSeq else { s with attic.seq := { command := some c.toNat } }
  else if c = 0x74 then { s with attic.statusMode := true }
  else if c = 0x0F then
    if s.attic.op.isSome then { s with attic.readModeWaits := true } else { s with attic.statusMode := false }
  else s.voidSeq

/-- A write into the window. A write that neither begins nor continues a sequence is no sequence and changes nothing (DESIGN CHOICE, log 27). -/
def execAtticCmdWrite (offset : Nat) (data : List Byte) (s : State) : Res :=
  .next (if 2 ^ 26 ≤ offset ∨ data = [] then s
    else
      let q := s.attic.seq
      match q.command with
      | some c => s.followWrite c offset data
      | none =>
        if q.cycles = 0 then
          if offset = cycleA ∧ data = [0xC3] then { s with attic.seq := { cycles := 1, since := s.now } } else s
        else if q.since + 100000 < s.now then s.voidSeq
        else if q.cycles = 1 then
          if offset = cycleB ∧ data = [0x3C] then { s with attic.seq := { q with cycles := 2 } } else s.voidSeq
        else
          match data with
          | [c] => if offset = cycleA then s.atticCommand c else s.voidSeq
          | _ => s.voidSeq)

/-- The three cycles have not come within 100 µs. -/
def execAtticSeqTimeout (s : State) : Res := .next (if s.attic.seq.cycles = 0 then s else s.voidSeq)

/-- Spare blocks of the pool not in use. -/
def State.freeSpares (s : State) : List Nat :=
  (List.range' 56 72 ++ List.range' 224 32).filter fun b => decide (b ∉ s.attic.used ∧ b ∉ s.attic.retired)

/-- A block retired by a failure: a spare takes its place, in the History ring too, and the Steward rewrites its records there (R379, R453). -/
def State.retireAttic (s : State) (b : Nat) : State :=
  let s := { s with attic.retired := insertSorted b s.attic.retired }
  let s := match s.freeSpares with
    | n :: _ =>
      let s := { s with attic.used := insertSorted n s.attic.used, hist.ring := s.hist.ring.map fun x => if x = b then n else x }
      s.setAtticBlock n (s.atticBlock b)
    | [] => s
  let s := s.setFld pAC 0x06C 7 0 s.freeSpares.length
  if s.freeSpares.length < 8 then s.fire pAC 6 else s

/-- A 16-bit half of a counter register raised, saturating. -/
def State.bumpHalf (s : State) (page off lo : Nat) : State :=
  s.setFld page off (lo + 15) lo (min 0xFFFF (s.fld page off (lo + 15) lo + 1))

/-- The erase counts shown: the highest of MLC and of pseudo-SLC blocks. -/
def State.noteErase (s : State) (b : Nat) : State :=
  let n := min 0xFFFF (KM.getD 0 s.attic.erases b)
  let lo := if isSlc b then 0 else 16
  if s.fld pAC 0x068 (lo + 15) lo < n then s.setFld pAC 0x068 (lo + 15) lo n else s

/-- A program or erase ends: READY, with PROG_FAIL or ERASE_FAIL and the block retired where it failed. What a failed program leaves in its page is not stated: the page
counts as programmed and its bytes are free values on a read (log 27). -/
def State.endAttic (s : State) (ok : Bool) : State :=
  match s.attic.op with
  | none => s
  | some op =>
    let s := { s with attic.op := none, attic.statusMode := s.attic.statusMode && !s.attic.readModeWaits, attic.readModeWaits := false }
    let s := s.atticFlag 7
    match op with
    | .program p data =>
      let b := s.atticBlock (p / 64)
      let s := s.bump pAC 0x054
      let d := data.foldl (fun m (x : Nat × Byte) => KM.putD 0xFF m (p % 64 * 4096 + x.1) x.2) b.data
      let s := s.setAtticBlock (p / 64) { data := d, marks := insertSorted (p % 64) b.marks }
      if ok then s else (((s.atticFlag 3).bumpHalf pAC 0x05C 16).fire pAC 2).retireAttic (p / 64)
    | .erase b =>
      let s := s.bump pAC 0x058
      if ok then (s.eraseAttic b).noteErase b
      else (((s.atticFlag 2).bumpHalf pAC 0x05C 0).fire pAC 3).retireAttic b

/-- The operation in progress ends. -/
def execAtticOpDone (ok : Bool) (s : State) : Res := .next (s.endAttic ok)

/-! ### Reads (R386) -/

/-- The bytes of a read: array bytes, 0xFF in the half a pseudo-SLC block does not address; free values where an abandoned erase or a failed program left the block. -/
def State.atticValue (s : State) (off : Nat) : Byte :=
  let b := off / 0x40000
  if b ∈ s.attic.abandoned ∨ b ∈ s.attic.retired then (Config.freeValue (s.free + off)).setWidth 8
  else if isSlc b ∧ 0x20000 ≤ off % 0x40000 then 0xFF
  else s.atticByte off

/-- A page opened in one of the two page registers: a page read. -/
def State.openPage (s : State) (p : Nat) : State :=
  if p ∈ s.attic.openPages then s
  else ({ s with attic.openPages := (p :: s.attic.openPages).take 2 }).bump pAC 0x048

/-- A read of the window, with the largest corrected-bit count of the sectors it touched, 15 for uncorrectable. Between the cycles of a sequence it makes that void; in status mode it
returns the status byte. -/
def execAtticRead (offset len corrected : Nat) (s : State) : Res :=
  .next (if 2 ^ 26 ≤ offset ∨ len = 0 then s
    else
      let s := if s.attic.seq.cycles = 0 then s else s.voidSeq
      if s.attic.statusMode then s.emit (.attic (List.replicate len (BitVec.ofNat 8 (s.fld pAC 0x044 7 0))))
      else
        let s := s.openPage (offset / 4096)
        if 8 < corrected then ({ s with attic.rdstat := 15 }).bump pAC 0x050 |>.fire pAC 1
        else
          let warn := decide (s.fld pAC 0x040 3 0 ≤ corrected)
          let s := { s with attic.rdstat := corrected + 16 * b2n warn }
          let s := if warn then
              (({ s with attic.rewrites := s.attic.rewrites ++ [(offset / 4096, s.rtc)] }).bump pAC 0x04C).fireLimited pAC 0
            else s
          let bytes := (List.range len).map fun i => s.atticValue (offset + i)
          ({ s with free := s.free + 2 ^ 26 }).emit (.attic bytes))

/-- The Steward rewrites a record that was read with EARLY_WARN to a fresh location; its contents stay. -/
def execAtticRecordRewrite (page : Nat) (s : State) : Res :=
  .next { s with attic.rewrites := s.attic.rewrites.filter fun x => x.1 ≠ page }

/-! ### Execute in place (R387) -/

/-- The line and the next three sequential lines in the prefetch buffer; in the last 1 KiB of a page the next page is opened. A fill takes no time (log 27). -/
def State.refill (s : State) (line : Nat) : State :=
  let s := { s with attic.buffer := List.range' line 4 }
  if 48 ≤ (line + 3) % 64 then s.openPage (line / 64 + 1) else s

/-- A fetch in place: from the prefetch buffer or the branch cache, from an open page register, or after a page read. A taken branch outside the buffer installs its line in the
branch cache. -/
def execXipFetch (offset : Nat) (taken : Bool) (s : State) : Res :=
  .next (if 2 ^ 26 ≤ offset ∨ s.attic.statusMode then s
    else
      let line := offset / 64
      if line ∈ s.attic.buffer then s.bump pAC 0x070
      else if taken ∧ line ∈ s.attic.branch then
        ((({ s with attic.branch := line :: s.attic.branch.filter (· ≠ line) }).bump pAC 0x070).openPage (line / 64)).refill line
      else
        let s := if line / 64 ∈ s.attic.openPages then s else s.bump pAC 0x074
        let s := (s.openPage (line / 64)).refill line
        if taken then { s with attic.branch := (line :: s.attic.branch.filter (· ≠ line)).take 32 } else s)

/-! ### Resets that reach the Attic die (R383) -/

/-- A program runs. -/
def State.programming (s : State) : Bool :=
  match s.attic.op with
  | some (.program _ _) => true
  | _ => false

/-- An erase in progress is suspended by a reset and left abandoned. -/
def State.abandonErase (s : State) : State :=
  match s.attic.op with
  | some (.erase b) => (({ s with attic.op := none, attic.abandoned := insertSorted b s.attic.abandoned }).atticFlag 7).atticFlag 0
  | _ => s

/-- A reset that meets a program waits for its end. -/
def State.deferReset (s : State) (page cause op : Nat) : State :=
  (({ s with attic.deferred := s.attic.deferred ++ [({ page, cause, since := s.now, op } : DeferredReset)] }).bumpHalf pAC 0x064 16).fire pAC 5

/-- The Attic's logic after a reset: no sequence, no open page; the erase abandoned. -/
def State.resetAttic (s : State) : State :=
  let s := s.abandonErase
  { s with attic.seq := {}, attic.statusMode := false, attic.readModeWaits := false, attic.openPages := [], attic.buffer := [], attic.branch := [] }

end Sys2Proof.Machine
end

