-- ==== Sys2Proof/Machine/Perf.lean ====
section
/-!
DEFINITION. Performance counters and samplers (chapter 19).
-/

namespace Sys2Proof.Machine

/-! ### Counters (R466 to R468) -/

/-- Counter n of a page. -/
def State.counter (s : State) (page n : Nat) : PerfCounter := KM.getD {} s.perf.counters (16 * counterPage page + n)

/-- A counter set. -/
def State.setCounter (s : State) (page n : Nat) (c : PerfCounter) : State :=
  { s with perf.counters := KM.putD {} s.perf.counters (16 * counterPage page + n) c }

/-- A SELECT word without its reserved bits. -/
def selectWord (data : Word) : Word := setBits (setBits data 29 28 0) 11 8 0

/-- A write of SELECT: a change of EVENT, TENANT_EN, TENANT, SUB_EN or SUB clears the value and OVERFLOW. -/
def execCounterSelectWrite (req : Requester) (page n : Nat) (data : Word) (s : State) : Res :=
  .next (if 16 ≤ n then s else s.guarded req page fun s =>
    let c := s.counter page n
    let w := selectWord data
    if bits c.sel 30 0 = bits w 30 0 then s.setCounter page n { c with sel := w }
    else s.setCounter page n { c with sel := w, value := 0, overflow := false })

/-- A write of CLEAR. -/
def execCounterClearWrite (req : Requester) (page n : Nat) (data : Word) (s : State) : Res :=
  .next (if 16 ≤ n then s else s.guarded req page fun s =>
    if bit data 0 then s.setCounter page n { s.counter page n with value := 0, overflow := false } else s)

/-- A write of 1 to OVERFLOW. -/
def execCounterOverflowClear (req : Requester) (page n : Nat) (data : Word) (s : State) : Res :=
  .next (if 16 ≤ n then s else s.guarded req page fun s =>
    if bit data 31 then s.setCounter page n { s.counter page n with overflow := false } else s)

/-- Codes that count cycles, slots or handshakes, whose number depends on timing the model leaves out (log 26). -/
def timed (ty code : Nat) : Bool :=
  decide (code = 1 ∨ code = 2 ∨ code = 3 ∨ code = 5) || decide (0xC0 ≤ code ∧ code ≤ 0xC4 ∧ (ty = 0x23 ∨ ty = 0x08)) ||
    decide (code = 0xC5 ∧ ty = 0x08) || decide ((code = 0xC6 ∨ code = 0xC7) ∧ (ty = 0x23 ∨ ty = 0x08)) || decide ((code = 0xC8 ∨ code = 0xC9) ∧ ty = 0x23)

/-- A read of VALUE_LO, which latches VALUE_HI. Where the counter counts what depends on timing its value is free (log 26). -/
def execCounterValueLoRead (page n : Nat) (s : State) : Res :=
  .next (if 16 ≤ n ∨ (pageType page).isNone ∨ s.absent page then s.emit (.readData 0)
    else
      let c := s.counter page n
      let (v, s) := if bit c.sel 31 ∧ s.counting page ∧ timed ((pageType page).getD 0xFF) (bits c.sel 7 0) then
          let (f, s) := s.fresh
          (f.toNat % 2 ^ 48, s)
        else (c.value, s)
      (s.setCounter page n { c with value := v, hi := v / 2 ^ 32 }).emit (.readData (v % 2 ^ 32)))

/-! ### Samplers (R472 to R476) -/

/-- A sampler. -/
def State.sampler (s : State) (i : Nat) : Sampler := KM.getD {} s.perf.samplers i

/-- Records a sampler's buffer holds: 4,096, of the instruction sampler 1,024. -/
def samplerSize (i : Nat) : Nat := if i = 8 then 1024 else 4096

/-- Words of a record, 16 or 8. -/
def sampleWords (i : Nat) : Nat := if i = 8 then 8 else 16

/-- Where the head record of a sampler is shown. -/
def headOff (i : Nat) : Nat := if i = 8 then 0x300 else 0x100 + 0x40 * i

/-- The n words of a record. -/
def recordWords : Nat → List Byte → List Nat
  | 0, _ => []
  | n + 1, bs => leNat (bs.take 4) :: recordWords n (bs.drop 4)

/-- A sampler set, with its registers: ENABLED, WRAP, FULL, COUNT and the head record. -/
def State.setSampler (s : State) (i : Nat) (x : Sampler) : State :=
  let s := { s with perf.samplers := KM.putD {} s.perf.samplers i x }
  let n := x.buffer.length
  let s := s.setNum pSMP (0x040 + 16 * i) (2 ^ 31 * b2n x.enable + 2 ^ 30 * b2n x.wrap + 2 ^ 29 * b2n (decide (samplerSize i ≤ n)) + n)
  s.putWords pSMP (headOff i) (recordWords (sampleWords i) (x.buffer.headD []))

/-- An interval: N, or with JITTER a free value between N div 2 and N + N div 2 - 1. -/
def State.interval (s : State) (n : Nat) (jitter : Bool) : Nat × State :=
  if jitter then
    let (f, s) := s.fresh
    (n / 2 + f.toNat % max n 1, s)
  else (n, s)

/-- What both rows of SAMPLER_CONFIG do with a sampler: open samples discarded, the buffer kept unless FLUSH, SEQ continued. -/
def State.configSampler (s : State) (c : AdminCmd) (i : Nat) : State × Option Answer :=
  let n := c.p0 % 2 ^ 24
  if n = 0 ∨ c.p0 / 2 ^ 24 % 128 ≠ 0 ∨ 7 < c.p3 ∨ (i < 8 ∧ (c.p1 / 4096 % 2 ^ 19 ≠ 0 ∨ 7 < c.p2 ∨ (c.p2 = 0 ∧ c.p0.testBit 31))) then (s, bad stINVALID_FIELD)
  else
    let x := s.sampler i
    let (left, s) := s.interval n (c.p3.testBit 0)
    let x : Sampler := { enable := c.p0.testBit 31, n, jitter := c.p3.testBit 0, wrap := c.p3.testBit 1, tenantEn := c.p1.testBit 31, tenant := c.p1 % 4096,
                         mask := c.p2 % 8, minLat := c.p4, left, open_ := [], buffer := if c.p3.testBit 2 then [] else x.buffer, seq := x.seq }
    (s.setSampler i x, good)

/-- SAMPLER_CONFIG with TARGET 0 to 7, and with a TARGET that names no sampler. -/
def execSamplerConfigRequest (c : AdminCmd) (s : State) : Res :=
  .next (if c.target = 8 then s else s.adminRun 0x63 c fun _ s => if 8 < c.target then (s, bad stINVALID_FIELD) else s.configSampler c c.target)

/-- SAMPLER_CONFIG with TARGET 8. -/
def execSamplerConfigInstruction (c : AdminCmd) (s : State) : Res :=
  .next (if c.target ≠ 8 then s else s.adminRun 0x63 c fun _ s => s.configSampler c 8)

/-- A WRITE or READ packet has passed step 5 on a plane: the plane's sampler counts it when it matches, and takes the first after each interval. -/
def State.samplePacket (s : State) (o : OpenSample) : State :=
  let x := s.sampler o.plane
  let kind := if o.opcode = 1 then 0 else if o.flags % 2 = 1 then 2 else 1
  let ph := s.fld pPLD 0x044 2 0
  if x.enable = false ∨ x.mask.testBit kind = false ∨ (x.tenantEn ∧ o.tenant ≠ x.tenant) ∨ (1 ≤ ph ∧ ph ≤ 6) then s
  else if 1 < x.left then s.setSampler o.plane { x with left := x.left - 1 }
  else
    let (left, s) := s.interval x.n x.jitter
    if 64 ≤ x.open_.length then (s.setSampler o.plane { x with left }).bump pSMP (0x048 + 16 * o.plane)
    else s.setSampler o.plane { x with left, open_ := x.open_ ++ [o] }

/-- A record closes into a buffer: where it is full, WRAP decides whether the oldest record goes or the new one, and DROPPED counts either way. -/
def State.closeInto (s : State) (i : Nat) (x : Sampler) (r : List Byte) : State :=
  let x := { x with seq := (x.seq + 1) % 2 ^ 32 }
  if samplerSize i ≤ x.buffer.length then
    (s.setSampler i { x with buffer := if x.wrap then x.buffer.drop 1 ++ [r] else x.buffer }).bump pSMP (0x044 + 16 * i)
  else
    let s := s.setSampler i { x with buffer := x.buffer ++ [r] }
    if x.buffer.length + 1 = samplerSize i then s.fireLimited pSMP 0 second i else s

/-- A latency that was reached. -/
def reached (n : Nat) : Nat := if n = 0xFFFFFFFF then 0 else n

/-- A latency as its field holds it. -/
def latField (n : Nat) : Nat := min n 0xFFFFFFFF

/-- A sampled request reaches its closing point, or an instruction is sampled. No record closes for a request whose total latency is below MIN_LAT; the instruction sampler takes
nothing in an outage, a replay or RESCUE. -/
def execSampleRecordClose (sampler : Nat) (info : SampleInfo) (s : State) : Res :=
  .next (match info with
    | .request arrival outcome syndrome flags dpa ingress memory mirror tail =>
      let x := s.sampler sampler
      match x.open_.find? fun o => o.arrival == arrival with
      | none => s
      | some o =>
        if 8 ≤ sampler then s
        else
          let x := { x with open_ := x.open_.filter fun o => o.arrival ≠ arrival }
          if reached ingress + reached memory + reached mirror + reached tail < x.minLat then s.setSampler sampler x
          else
            s.closeInto sampler x
              (leBytes 1 o.opcode ++ leBytes 1 (o.flags % 4 + flags / 4 % 64 * 4) ++ leBytes 1 outcome ++ leBytes 1 (if outcome = 2 then syndrome else 0) ++
                leBytes 4 (o.txCount % 256 * 2 ^ 24 + o.plane % 8 * 2 ^ 20 + o.qpn % 2 ^ 20) ++ leBytes 2 (o.tenant % 4096) ++ leBytes 2 o.len ++
                leBytes 4 o.handle ++ leBytes 4 o.psn ++ leBytes 4 o.msn ++ leBytes 8 (dpa % 2 ^ 49) ++ leBytes 8 o.time ++
                leBytes 4 (x.seq + 1) ++ leBytes 4 (latField ingress) ++ leBytes 4 (latField memory) ++ leBytes 4 (latField mirror) ++ leBytes 4 (latField tail) ++ leBytes 4 0)
    | .instruction pc insn flags core latency =>
      let x := s.sampler 8
      if sampler ≠ 8 ∨ x.enable = false ∨ s.pairRuns = false ∨ s.stwState = 6 ∨ s.stw.replayTo.isSome then s
      else
        s.closeInto 8 x
          (leBytes 8 pc ++ leBytes 4 insn ++ leBytes 1 (flags % 64) ++ leBytes 1 core ++ leBytes 2 (min latency 0xFFFF) ++ leBytes 8 s.rtc ++ leBytes 4 (x.seq + 1) ++ leBytes 4 0))

/-- A read of POP: the records held before it; the head record goes. -/
def execSamplerPopRead (sampler : Nat) (s : State) : Res :=
  .next (if 8 < sampler then s.emit (.readData 0)
    else
      let x := s.sampler sampler
      (s.setSampler sampler { x with buffer := x.buffer.drop 1 }).emit (.readData x.buffer.length))

/-- The samplers a chip reset leaves: emptied and disabled; SEQ goes on (R472, R473). -/
def State.resetSamplers (s : State) : List Nat → State
  | [] => s
  | i :: l => (s.setSampler i { seq := (s.sampler i).seq }).resetSamplers l

end Sys2Proof.Machine
end

