-- ==== Sys2Proof/Machine/Tally.lean ====
section
/-!
DEFINITION. The Tally meters (chapter 18): closing a minute, staging, delivery to the rings, the probe.
-/

namespace Sys2Proof.Machine

/-! ### Closing a minute (R459, R462) -/

/-- A close given up: its counts stay in the counters and fold into the next completed close (R462). -/
def State.abandonClose (s : State) : State :=
  match s.tally.frozen with
  | none => s
  | some _ => (({ s with tally.frozen := none, tally.folds := s.tally.folds + 1 }).bump pTLY 0x058).fire pTLY 0

/-- A minute boundary, where it is later than the last one counted: all counters are frozen at once. -/
def execMinuteBoundary (seconds : Nat) (s : State) : Res :=
  .next (if seconds % 60 ≠ 0 ∨ 2 ^ 40 ≤ seconds then s
    else
      let s := s.reachRtc seconds
      if seconds ≤ s.tally.last then s
      else
        let s := s.abandonClose.countHeld
        { s with tally.last := seconds, tally.frozen := some (seconds, s.tally.counters) })

/-- The tenants a close writes records for: tenant 0, and those that had counters at the boundary and still exist. -/
def State.closeTenants (s : State) (cs : KMap (List Nat)) : List Nat :=
  0 :: (cs.filter fun p => decide (p.1 ≠ 0) && (KM.get s.win.tenants p.1).isSome).map (·.1)

/-- A function's ring. -/
def State.ring (s : State) : Fn → TallyRing
  | .pf0 => s.tally.ring0
  | .pf1 => s.tally.ring1

/-- The page of a function's ring registers. -/
def pRing : Fn → Nat
  | .pf0 => 0x0056
  | .pf1 => 0x4056

/-- A ring set, with RING_EN, RING_LOG2 and RING_TAIL. -/
def State.setRing (s : State) (fn : Fn) (r : TallyRing) : State :=
  let s := match fn with | .pf0 => { s with tally.ring0 := r } | .pf1 => { s with tally.ring1 := r }
  (s.setNum (pRing fn) 0x040 (if r.on then 2 ^ 31 + r.log2 else 0)).setNum (pRing fn) 0x044 (if r.on then r.tail else 0)

/-- Vector 33 signalled to a function whose ring is enabled. -/
def State.signalRing (s : State) (fn : Fn) : State := if (s.ring fn).on then s.signal fn 33 else s

/-- STAGING_HIGH raised where staging is filled beyond its threshold, at most once per minute. -/
def State.checkStaging (s : State) : State :=
  if s.fld pTLY 0x054 7 0 * stagingSize < 100 * s.tally.staged.length then s.fireLimited pTLY 1 (60 * second) else s

/-- The counts a completed close leaves as its values. -/
def closedValues (cs : KMap (List Nat)) : List Nat → KMap (List Nat) → KMap (List Nat)
  | [], m => m
  | t :: l, m => closedValues cs l (KM.put m t (KM.getD (List.replicate 8 0) cs t))

/-- 100 µs after the boundary: one record per tenant goes into staging, or, without room for all of them, the close is abandoned. -/
def execTallyCloseStart (s : State) : Res :=
  .next (match s.tally.frozen with
    | none => s
    | some (sec, cs) =>
      let ts := s.closeTenants cs
      if stagingSize - s.tally.staged.length < ts.length then s.abandonClose
      else
        let s := s.stageAll (ts.map fun t => s.tallyRecord t (sec / 60 - 1) false (KM.getD (List.replicate 8 0) cs t))
        let s := { s with tally.frozen := none, tally.folds := 0, tally.firsts := s.tally.firsts.filter (· ∉ ts), tally.step := false,
                          tally.invalid := !s.clock.valid, tally.outage := false, tally.closed := closedValues cs ts s.tally.closed }
        let s := (s.bump pTLY 0x05C).setNum pTLY 0x060 (sec / 60 - 1)
        (s.showTally.checkStaging.signalRing .pf0).signalRing .pf1)

/-! ### The copy in staging (R461) and page-seconds -/

/-- Pages claimed by objects this appliance counts for a tenant: Loft (k = 4) or Cellar (k = 5). -/
def State.pageCount (s : State) (t : Nat) (cellar : Bool) : Nat :=
  (s.win.map.filter fun p => decide (p.2.object ≠ 0) && (isCellar p.1 == cellar) && ((s.object p.2.object).owner == t) &&
    (decide (s.pair = 3) || s.objectHome p.2.object)).length

/-- A second of page-seconds counted for every tenant. -/
def State.countPages (s : State) : List Nat → State
  | [] => s
  | t :: l => ((s.tallyAdd t 4 (s.pageCount t false)).tallyAdd t 5 (s.pageCount t true)).countPages l

/-- The counters written to staging. -/
def State.copyTally (s : State) : State :=
  let s := s.countHeld
  { s with tally.saved := s.tally.counters }

/-- Every RTC second: page-seconds, and the on-chip counters written to staging. -/
def execTallyStagingCopy (s : State) : Res := .next ((s.countPages (0 :: s.win.tenants.map (·.1))).copyTally)

/-- The counters resume from those preserved after an outage: the first record carries OUTAGE, and FOLD counts the boundaries that passed (R460). -/
def State.resumeTally (s : State) : State :=
  let last := s.rtcSeconds / 60 * 60
  let passed := s.rtcSeconds / 60 - s.tally.last / 60
  { s with tally.counters := s.tally.saved, tally.frozen := none, tally.outage := true, tally.heldAt := s.now,
           tally.folds := s.tally.folds + passed + b2n s.tally.frozen.isSome, tally.last := max s.tally.last last }

/-! ### Delivery (R463) -/

/-- A record as 64 bytes, with the phase of its ring. -/
def tallyBytes (r : TallyRec) (phase : Bool) : List Byte :=
  leBytes 4 r.minute ++ leBytes 2 (2 ^ 15 * b2n r.first + 2 ^ 14 * b2n r.last + 2 ^ 13 * b2n r.step + 2 ^ 12 * b2n r.invalid + r.tenant % 4096) ++
    leBytes 1 (min r.fold 255) ++ leBytes 1 (4 * b2n r.outage + 2 * b2n r.sat + b2n phase) ++ r.counts.flatMap (leBytes 7)

/-- A ring is full under the rule of R46. -/
def TallyRing.full (r : TallyRing) : Bool := decide ((r.tail + 1) % 2 ^ r.log2 = r.head)

/-- Staged records written to a ring, in order, while it has room. -/
def State.deliver (s : State) (fn : Fn) (r : TallyRing) : List (Nat × TallyRec) → State × TallyRing
  | [] => (s, r)
  | p :: l =>
    if r.full then (s, r)
    else
      let s := s.emit (.hostWrite fn (r.base + 64 * r.tail) (tallyBytes p.2 r.phase))
      let tail := (r.tail + 1) % 2 ^ r.log2
      s.deliver fn { r with tail, phase := if tail = 0 then !r.phase else r.phase, next := p.1 + 1 } l

/-- Staged records are delivered to a function's ring, and vector 33 signals. -/
def execTallyRingDelivery (fn : Fn) (s : State) : Res :=
  .next (let r := s.ring fn
    if r.on = false ∨ r.full ∨ (s.tally.staged.any fun p => decide (r.next ≤ p.1)) = false then s
    else
      let (s, r) := s.deliver fn r (s.tally.staged.filter fun p => decide (r.next ≤ p.1))
      (s.setRing fn r).signal fn 33)

/-- Records every enabled ring has consumed leave staging; with no ring enabled they stay. LAST records that waited take the room. -/
def State.pruneStaging (s : State) : State :=
  let keep := fun (p : Nat × TallyRec) =>
    (!s.tally.ring0.on && !s.tally.ring1.on) || (s.tally.ring0.on && decide (s.tally.ring0.consumed ≤ p.1)) ||
      (s.tally.ring1.on && decide (s.tally.ring1.consumed ≤ p.1))
  let s := { s with tally.staged := s.tally.staged.filter keep }
  (s.stageLasts s.tally.lasts).showTally

/-- A write of RING_HEAD: the entries behind it are consumed. A value beyond the ring is ignored. -/
def execTallyRingHeadWrite (req : Requester) (data : Word) (s : State) : Res :=
  .next (s.guarded req pTLY fun s =>
    let fn : Fn := if req = .pf1 then .pf1 else .pf0
    let r := s.ring fn
    let v := bits data 19 0
    let n := 2 ^ r.log2
    if r.on = false ∨ n ≤ v then s
    else (s.setRing fn { r with head := v, consumed := max r.consumed (r.next - (r.tail + n - v) % n) }).pruneStaging)

/-- A function's ring disabled: what the function has not consumed is delivered again once it has a ring (R463). -/
def State.ringOff (s : State) (fn : Fn) : State := (s.setRing fn { consumed := (s.ring fn).consumed }).pruneStaging

/-- TALLY_RING_SET. The function is the one whose queue carries the command (DEDUCED, log 25). -/
def execTallyRingSet (c : AdminCmd) (s : State) : Res :=
  .next (s.adminRun 0x60 c fun _ s =>
    let a := c.p0 + 2 ^ 32 * c.p1
    if c.p2 = 0 then (s.ringOff c.fn, good)
    else if a % 4096 ≠ 0 ∨ c.p2 < 12 ∨ 20 < c.p2 then (s, bad stINVALID_FIELD)
    else
      let k := (s.ring c.fn).consumed
      (s.setRing c.fn { on := true, base := a, log2 := c.p2, next := k, consumed := k }, good))

/-! ### The probe (R464) -/

/-- Low and high words of counters. -/
def halves : List Nat → List Nat
  | [] => []
  | c :: l => c % 2 ^ 32 :: c / 2 ^ 32 :: halves l

/-- A write of PROBE_TENANT: the tenant's counters as of the last completed close are published, unless a result is still published. -/
def execTallyProbeWrite (req : Requester) (data : Word) (s : State) : Res :=
  .next (s.guarded req pTLY fun s =>
    if s.resultValid pTLY 0x068 then s
    else s.publish pTLY 0x068 (halves (KM.getD (List.replicate 8 0) s.tally.closed (bits data 11 0))) 0)

end Sys2Proof.Machine
end

