-- ==== Sys2Proof/Machine/Miss.lean ====
section
/-!
DEFINITION. Flash locations, LUN states and the miss entries of a region (chapter 10), as reads and Mover fills use them.
-/

namespace Sys2Proof.Machine

/-! ### Locations (table "Cellar-map entry", R242, R243) -/

/-- A flash location: region, channel, LUN, NPAGE. -/
def locOf (region channel lun npage : Nat) : Nat := ((region * 16 + channel) * 16 + lun) * 2 ^ 24 + npage

/-- Region of a location. -/
def locRegion (loc : Nat) : Nat := loc / 2 ^ 32
/-- Channel of a location, within its region. -/
def locChannel (loc : Nat) : Nat := loc / 2 ^ 28 % 16
/-- LUN index of a location. -/
def locLun (loc : Nat) : Nat := loc / 2 ^ 24 % 16
/-- NPAGE of a location. -/
def locPage (loc : Nat) : Nat := loc % 2 ^ 24
/-- Block of a location. -/
def locBlock (loc : Nat) : Nat := locPage loc / 1536

/-- A band by number: region, LUN, block (R250). -/
def bandOf (region lun block : Nat) : Nat := (region * 16 + lun) * 16384 + block

/-- The band of a location. -/
def locBand (loc : Nat) : Nat := bandOf (locRegion loc) (locLun loc) (locBlock loc)

/-- The page of a channel of a region, or of a location. -/
def locPageIndex (loc : Nat) : Nat := pNC (16 * locRegion loc + locChannel loc)

/-- State of a LUN: 0 in service, 1 retiring, 2 retired, 3 absent. -/
def State.lunState (s : State) (region channel lun : Nat) : Nat := s.fld (pNC (16 * region + channel)) 0x044 (2 * lun + 1) (2 * lun)

/-! ### Miss entries (R255, R260) -/

/-- Miss entries of a region. -/
def State.missesOf (s : State) (r : Nat) : List Miss := s.cellar.misses.filter fun m => locRegion m.loc == r

/-- MISS_IN_USE follows the entries. -/
def State.showMisses (s : State) (r : Nat) : State := s.setFld (pRG r) 0x0EC 10 0 (s.missesOf r).length

/-- A read of a flash location parked on its entry; a new entry starts at step 1, or at step 4 where the LUN is retiring or retired; where none is free the read waits. -/
def State.park (s : State) (loc page tenant : Nat) (who : Parked) : State :=
  let r := locRegion loc
  if s.cellar.misses.any fun m => m.loc == loc then
    { s with cellar.misses := s.cellar.misses.map fun (m : Miss) => if m.loc = loc ∧ who ∉ m.parked then { m with parked := m.parked ++ [who] } else m }
  else if (s.missesOf r).length < 1024 then
    let l := s.lunState r (locChannel loc) (locLun loc)
    let m : Miss := { loc, page, step := if l = 1 ∨ l = 2 then 4 else 1, tenant, parked := [who] }
    ({ s with cellar.misses := s.cellar.misses ++ [m] }).showMisses r
  else
    let w : MissWait := { loc, page, tenant, who }
    ({ s with cellar.missWaits := s.cellar.missWaits ++ [w] }).bump (pRG r) 0x0F0

/-- Reads that waited for an entry of a region take one, in order. -/
def State.unpark (fuel : Nat) (s : State) (r : Nat) : State :=
  match fuel with
  | 0 => s
  | fuel + 1 =>
    match s.cellar.missWaits.find? fun w => locRegion w.loc == r with
    | none => s
    | some w =>
      if (s.missesOf r).length < 1024 ∨ s.cellar.misses.any (fun m => m.loc == w.loc) then
        let s := { s with cellar.missWaits := s.cellar.missWaits.erase w }
        (s.park w.loc w.page w.tenant w.who).unpark fuel r
      else s

/-- An entry freed. -/
def State.dropMiss (s : State) (loc : Nat) : State :=
  let s := { s with cellar.misses := s.cellar.misses.filter fun m => m.loc ≠ loc }
  (s.showMisses (locRegion loc)).unpark (s.cellar.missWaits.length + 1) (locRegion loc)

end Sys2Proof.Machine
end

