-- ==== Sys2Proof/Machine/Durable.lean ====
section
/-!
DEFINITION. Admission of a write: region modes, the hold list, retry-after values, gather pages and mirror credit (chapters 01, 07 and 09).
-/

namespace Sys2Proof.Machine

/-! ### Random stretch and retry-after (R185) -/

/-- A quotient rounded to the nearest integer. -/
def roundDiv (a b : Nat) : Nat := if b = 0 then 0 else (2 * a + b) / (2 * b)

/-- RA_MAX. -/
def State.raMax (s : State) : Nat := s.fld pTC 0x184 23 0

/-- RA_MIN. -/
def State.raMin (s : State) : Nat := s.fld pTC 0x180 15 0

/-- ra of a need of num / den µs: stretched by up to a quarter by a fresh random value, or by none while the DRBG has stopped (R350), then bounded. A rate of 0 makes the need RA_MAX. The result is
rounded to the nearest µs (DEDUCED, log 11). -/
def State.ra (s : State) (num den : Nat) : Nat × State :=
  let (u, s) := if s.drbgStopped then (0, s) else s.fresh
  let n := if den = 0 then s.raMax else roundDiv (num * (2 ^ 66 + u.toNat)) (den * 2 ^ 66)
  (min s.raMax (max s.raMin n), s)

/-! ### Region modes (R24, R25) -/

/-- How a region takes Loft accesses. -/
inductive RegionMode where
  | normal
  | buffered
  | outage
  deriving DecidableEq, Repr

/-- The lease is held: it has not ended, or a SURVIVE verdict stands (R228, R230). -/
def State.leaseHeld (s : State) : Bool := decide (s.now < s.twin.leaseUntil) || s.twin.survive

/-- The twin is healthy (R495). -/
def State.twinHealthy (s : State) : Bool :=
  s.pair = 1 && decide (s.twinPorts ≠ []) && s.leaseHeld && !s.twin.readFailed

/-- The mode of a region: BYPASS, and STARTING after a reset with a healthy twin once its logic is out of reset, are buffered; a sequence that runs without a
twin stalls the region (R289). -/
def State.regionMode (s : State) (r : Nat) : RegionMode :=
  let i := s.pageInfo (pRG r)
  match s.pg (pRG r) with
  | .bypass => .buffered
  | .starting => if i.afterReset && !s.held (pRG r) && s.twinHealthy then .buffered else .outage
  | .service => if s.held (pRG r) || bit (s.reg (pRG r) 0x148) 21 then .outage else .normal
  | .draining => if s.held (pRG r) then .outage else .normal
  | .drill => if s.held (pRG r) then .outage else .normal
  | _ => .outage

/-- The longest a BYPASS lasts, in ns: a retrain, a speed change or a hard repair 2 ms, a runtime BYPASS its limit (R24, R26). -/
def State.bypassLength (s : State) (r : Nat) : Nat :=
  match (s.region r).bypass with
  | some .runtime => s.fld (pRG r) 0x15C 13 0 * 1000000
  | _ => 2000000

/-- Remaining expected BYPASS time in µs, rounded up to 10 µs. A time already past shows the least value, 10 (DESIGN CHOICE, log 11). -/
def State.bypassLeft (s : State) (r : Nat) : Nat :=
  let ns := (s.region r).since + s.bypassLength r - s.now
  max 10 ((ns + 9999) / 10000 * 10)

/-- RETRY_AFTER of a HOLD with DETAIL 3 (R25, R289): the rest of a sequence that runs without a twin; else what is left of the longest outage; past it, ra of the time the device expects, which the spec
gives only under R213: else a free value. -/
def State.outageRetry (s : State) (r : Nat) : Nat × State :=
  let i := s.pageInfo (pRG r)
  let d := s.dirty r
  if bit (s.reg (pRG r) 0x148) 21 then (max 1 (((s.region r).since + 2000000 - s.now + 999) / 1000), s)
  else if s.now < i.resetAt + i.outage then ((i.resetAt + i.outage - s.now + 999) / 1000, s)
  else if s.budgetR < dirtyPages d * 16384 then s.ra ((dirtyPages d * 16384 - s.budgetR) * 1000000) d.rate
  else
    let (t, s) := s.fresh
    s.ra t.toNat 1

/-- PLD.STATUS.PHASE. -/
def State.phase (s : State) : Nat := s.fld pPLD 0x044 2 0

/-- A region stays in STARTING for a restore, in which its Harvester runs (R213). -/
def State.restoring (s : State) (r : Nat) : Bool := s.phase = 6 && s.pg (pRG r) = .starting

/-- A page takes the RESTORE_WRITTEN mark while a restore, or the wait for a release, runs (R213). -/
def State.markWritten (s : State) (page : Nat) : State :=
  if s.power.images ≠ [] ∧ s.phase = 6 then { s with power.marked := KM.put s.power.marked page true } else s

/-! ### The end of a BYPASS (R22, R26, R290) -/

/-- The sequence of a region ended without commit: the working sets are discarded, the committed sets stay (R284). -/
def State.dropTrain (s : State) (r : Nat) : State :=
  let s := { s with dram.trains := KM.del s.dram.trains r, dram.working := KM.keep (fun c _ => c / 6 ≠ r) s.dram.working }
  s.setReg (pRG r) 0x148 (s.reg (pRG r) 0x148 &&& 0xFFC7FFFF)

/-- Channels of a region. -/
def regionChannels (r : Nat) : List Nat := List.range' (6 * r) 6

/-- TRAIN_STATE of every channel of a region as DUE shows it: due or idle. -/
def State.showTrain (s : State) (r : Nat) : List Nat → State
  | [] => s
  | c :: l => (s.setFld (pDC c) 0x048 9 8 (b2n (bit (s.reg (pRG r) 0x148) (c % 6)))).showTrain r l

/-- A sequence abandoned (R290): counted; its channels stay due. -/
def State.abandonTrain (s : State) (r : Nat) : State :=
  if (KM.get s.dram.trains r).isSome then ((s.dropTrain r).bump (pRG r) 0x154).showTrain r (regionChannels r) else s

/-- The length of a BYPASS for training, repair or speed kept as BYPASS_MAX. -/
def State.noteBypass (s : State) (r : Nat) : State :=
  match (s.region r).bypass with
  | some .runtime => s
  | none => s
  | some _ => s.setMax (pRG r) 0x150 ((s.now - (s.region r).since) / 1000)

/-- The ranks and banks of a channel as a reset of its unit leaves them: debts at 0 out of self-refresh, rows closed, trackers clear (R280, R281). -/
def State.resetChannel (s : State) (c : Nat) : State :=
  { s with dram.ranks := KM.keep (fun k _ => decide (k / 4 ≠ c)) s.dram.ranks, dram.banks := KM.keep (fun k _ => decide (k / 256 ≠ c)) s.dram.banks }

/-- Channel units still in DRILL are block-reset to STARTING before their region returns to SERVICE (R26). -/
def State.endDrills (s : State) : List Nat → State
  | [] => s
  | c :: l => (if s.pg (pDC c) = .drill then (((s.resetChannel c).resetRegs (pDC c)).restartPage (pDC c) 1 10000 0) else s).endDrills l

/-- A region leaves BYPASS for SERVICE and writes its buffer to the Loft: LAST_CAUSE 1 at the end of a runtime BYPASS, 9 of one of the device's own, 7 for a flush. -/
def State.leaveBypass (s : State) (r : Nat) (flush : Bool := false) : State :=
  let cause := if flush then 7 else if (s.region r).bypass = some .runtime then 1 else 9
  let s := (s.noteBypass r).endDrills (regionChannels r)
  let s := s.setRegion r { s.region r with bypass := none, ending := false, opRuns := false }
  ((s.drainBuffer r).setFld (pRG r) 0x008 5 5 0).setPg (pRG r) .service cause

/-- The region's sequence is in a hard-repair step, for whose end all but a flush waits (R290). -/
def State.inRepairStep (s : State) (r : Nat) : Bool :=
  match KM.get s.dram.trains r with
  | some t => decide (t.phase = .repairStep)
  | none => false

/-- A region leaves BYPASS because the twin is not healthy, or a flush starts: its sequence is abandoned. -/
def State.breakBypass (s : State) (r : Nat) (flush : Bool := false) : State :=
  if flush = false ∧ s.inRepairStep r then s
  else if s.pg (pRG r) = .bypass then (s.abandonTrain r).leaveBypass r flush else s

/-- Regions in BYPASS leave it, in order. -/
def State.breakBypasses (s : State) (flush : Bool) : List Nat → State
  | [] => s
  | r :: l => (s.breakBypass r flush).breakBypasses flush l

/-- The twin is healthy no longer: every region in BYPASS leaves it (R22). -/
def State.twinLost (s : State) : State := if s.twinHealthy then s else s.breakBypasses false [0, 1, 2, 3]

/-! ### The hold list (R183, R184) -/

/-- The tenants that hold dirty pages in a region, other than 0, ascending. -/
def dirtyTenants (d : Dirty) : List Nat :=
  ((d.pages.map fun p => p.2.owner) ++ (d.gather.map fun p => p.2.tenant)).foldl (fun l t => if t = 0 then l else insertSorted t l) []

/-- Pages of a tenant in a region. -/
def tenantPages (d : Dirty) (t : Nat) : Nat :=
  (d.pages.filter fun p => p.2.owner == t).length + (d.gather.filter fun p => p.2.tenant == t).length

/-- A tenant put into a list in descending order of pages; ties keep ascending tenant order. -/
def insertTenant (t n : Nat) : List (Nat × Nat) → List (Nat × Nat)
  | [] => [(t, n)]
  | (u, m) :: l => if m < n then (t, n) :: (u, m) :: l else (u, m) :: insertTenant t n l

/-- Tenants taken from the top until together they hold the share. -/
def takeShare (share total sum : Nat) : List (Nat × Nat) → List Nat
  | [] => []
  | (t, n) :: l => if share * total ≤ sum * 100 then [] else t :: takeShare share total (sum + n) l

/-- The hold list of a region. -/
def State.buildHold (s : State) (r : Nat) (d : Dirty) : List Nat :=
  let ranked := (dirtyTenants d).foldl (fun l t => insertTenant t (tenantPages d t) l) []
  takeShare (s.fld (pRG r) 0x044 7 0) (dirtyPages d) 0 ranked

/-- A region enters HOLD: HOLD_ENTRIES, HOLD_ENTER, and its list. -/
def State.enterHold (s : State) (r : Nat) : State :=
  let d := s.dirty r
  if d.hold then s
  else ((s.setDirty r { d with hold := true, holdList := s.buildHold r d }).bump (pRG r) 0x078).fire (pRG r) 0

/-! ### Pages a write would make dirty (R170, R179) -/

/-- What admission of a write to a page takes: nothing, a charge in its region, or a gather page of its region. -/
inductive PageNeed where
  | none
  | charge
  | gather
  deriving DecidableEq, Repr

/-- The need of a write to a page. -/
def State.pageNeed (s : State) (page : Nat) : PageNeed :=
  if isCellar page then (if (s.mapOf page).state = .gather then .none else .gather)
  else if s.isDirty page then .none else .charge

/-- Pages of a list that need a new dirty page in a region. -/
def State.needIn (s : State) (r : Nat) (pages : List Nat) : List Nat :=
  pages.filter fun p => decide (s.regionOf p = r ∧ s.pageNeed p ≠ .none)

/-- The home's write needs no credit: SOLO (R168). -/
def State.creditFree (s : State) : Bool := s.pair = 3

/-- Credits the home holds for a region. -/
def State.credit (s : State) (r : Nat) : Nat := s.num pTWC (0x090 + 4 * r)

/-- Credits set. -/
def State.setCredit (s : State) (r v : Nat) : State := s.setNum pTWC (0x090 + 4 * r) v

/-- Row 5 for one region: none where the pages fit, else RETRY_AFTER, and the state, in which the region may have entered HOLD and GATHER_EMPTY been raised. -/
def State.admitDirty (s : State) (r owner : Nat) (pages : List Nat) : Option Nat × State :=
  let need := s.needIn r pages
  if need = [] then (none, s)
  else
    let fits := decide ((dirtyPages (s.dirty r) + need.length) * 16384 ≤ s.budgetR)
    let s := if fits then s else s.enterHold r
    let d := s.dirty r
    if d.hold ∧ owner ∈ d.holdList then
      let (n, s) := s.ra ((dirtyPages d * 16384 * 100 - s.fld (pRG r) 0x044 15 8 * s.budgetR) * 1000000) (d.rate * 100)
      (some n, s)
    else if fits = false then
      let (n, s) := s.ra (16384 * 1000000) d.rate
      (some n, s)
    else if d.gatherFree.length < (need.filter fun p => isCellar p).length then
      let s := s.fireLimited (pRG r) 3
      let (n, s) := s.ra (16384 * 1000000) d.rate
      (some n, s)
    else if s.creditFree = false ∧ s.credit r < need.length then
      let (n, s) := s.ra (2 * s.raMin) 1
      (some n, s)
    else (none, s)

/-- Row 5 for each region touched: the larger RETRY_AFTER. -/
def State.admitRegions (s : State) (owner : Nat) (pages : List Nat) : List Nat → Option Nat × State
  | [] => (none, s)
  | r :: l =>
    let (a, s) := s.admitDirty r owner pages
    let (b, s) := s.admitRegions owner pages l
    (match a, b with
     | some x, some y => some (max x y)
     | some x, none => some x
     | none, y => y, s)

/-- Rows 2 and 3 of the table "Write admission order" for one region: DETAIL and RETRY_AFTER of the refusal, if any. -/
def State.admitRegion (s : State) (r len : Nat) : Option (Nat × Nat) × State :=
  match s.regionMode r with
  | .normal => (none, s)
  | .outage => let (n, s) := s.outageRetry r; (some (3, n), s)
  | .buffered => if bufferSize < (s.region r).buffer.length + len then (some (2, s.bypassLeft r), s) else (none, s)

/-- Rows 2 and 3 for each region touched, in the order of the table: an outage anywhere before a full buffer; the larger RETRY_AFTER. -/
def State.admitModes (s : State) (len : Nat) : List Nat → Option (Nat × Nat) × State
  | [] => (none, s)
  | r :: l =>
    let (a, s) := s.admitRegion r len
    let (b, s) := s.admitModes len l
    (match a, b with
     | some (x, m), some (y, n) => if x = y then some (x, max m n) else if x = 3 then some (x, m) else some (y, n)
     | some a, none => some a
     | none, b => b, s)

/-- The regions of pages, each once. -/
def State.regionsOf (s : State) (pages : List Nat) : List Nat := pages.foldl (fun l p => insertSorted (s.regionOf p) l) []

/-! ### Charging an admitted write -/

/-- One credit spent for a page in a region, outside SOLO (R227). -/
def State.spend (s : State) (r : Nat) : State := if s.creditFree then s else s.setCredit r (s.credit r - 1)

/-- A gather page taken for a Cellar page (R179): its lines present are those of no write yet; an EMPTY page has every line present, reading zero; a POISONED
page has its unwritten lines poisoned at once. -/
def State.takeGather (s : State) (page tenant : Nat) : State :=
  let r := s.regionOf page
  let d := s.dirty r
  match d.gatherFree with
  | [] => s
  | g :: rest =>
    let e := s.mapOf page
    let all := List.range 256
    let s := s.zeroPageBytes g
    let s := if e.state = .poisoned then (s.countPage g true).poisonLines g all else if e.state = .mapped then s else s.countPage g false
    let s := s.setDirty r { d with gatherFree := rest, newBytes := d.newBytes + 16384,
                                   gather := KM.put d.gather g { cellar := page, tenant, source := if e.state = .mapped then some e.loc else none,
                                                                 present := if e.state = .mapped then [] else all, period := s.period } }
    let s := s.changeMap page { e with state := .gather, loc := g }
    if e.state = .mapped then s.park e.loc page tenant (.fill g) else s

/-- The age of a gather page set to this period, and REDIRTY where a harvest of it runs. -/
def State.touchGather (s : State) (g : Nat) : State :=
  let r := s.regionOf g
  let d := s.dirty r
  match KM.get d.gather g with
  | some x => s.setDirty r { d with gather := KM.put d.gather g { x with period := s.period, redirty := x.redirty || d.harvests.any fun h => h.page == g } }
  | none => s

/-- A page of an admitted write charged (R170, R179, R227). -/
def State.chargeWrite (s : State) (owner page : Nat) : State :=
  let s := s.markWritten page
  match s.pageNeed page with
  | .none =>
    (match s.gatherOf page with
     | some g => s.touchGather g
     | none => s.chargePage page owner)
  | .charge => (s.spend (s.regionOf page)).chargePage page owner
  | .gather => (s.spend (s.regionOf page)).takeGather page owner

/-- Pages charged, in order. -/
def State.chargeWrites (s : State) (owner : Nat) : List Nat → State
  | [] => s
  | p :: l => (s.chargeWrite owner p).chargeWrites owner l

/-- Pages of a write that it makes newly dirty. -/
def State.newlyDirty (s : State) (pages : List Nat) : List Nat := pages.filter fun p => decide (s.pageNeed p ≠ .none)

/-! ### Where the bytes of a page lie -/

/-- The Loft address that holds a byte of a page: the gather page of a Cellar page in GATHER, else the page itself. -/
def State.placeAddr (s : State) (page off : Nat) : Nat :=
  match s.gatherOf page with
  | some g => g * 16384 + off
  | none => page * 16384 + off

/-- The lines a range of a page touches, by index in the page. -/
def linesOf (off n : Nat) : List Nat := List.range' (off / 64) ((off % 64 + n + 63) / 64)

/-- The flash page that a gather page is filled from. -/
def State.gatherSource (s : State) (g : Nat) : Option FlashPage :=
  match KM.get (s.dirty (s.regionOf g)).gather g with
  | some x => (match x.source with | some l => KM.get s.cellar.flash l | none => none)
  | none => none

/-- One line of a gather page filled from flash where it is not present yet, and marked present. -/
def State.fillLine (s : State) (g i : Nat) : State :=
  let r := s.regionOf g
  let d := s.dirty r
  match KM.get d.gather g with
  | none => s
  | some x =>
    if i ∈ x.present then s
    else
      let s := match s.gatherSource g with
        | some f =>
          let s := s.countStore (g * 16384 + 64 * i) (i ∈ f.poison) false
          if i ∈ f.poison then s.poisonLine (g * 256 + i)
          else (s.loftPut (g * 16384 + 64 * i) ((List.range 64).map fun k => KM.getD 0 f.data (64 * i + k))).setPoison (g * 256 + i) false
        | none => s
      s.setDirty r { d with gather := KM.put d.gather g { x with present := insertSorted i x.present } }

/-- Lines filled, in order. -/
def State.fillLines (s : State) (g : Nat) : List Nat → State
  | [] => s
  | i :: l => (s.fillLine g i).fillLines g l

/-- A non-resident page that is written takes its shadow's lines first (R216): a line the shadow cannot give is poisoned. -/
def State.loadAway (s : State) (page : Nat) : State :=
  if (KM.get s.loft.away page).isSome = false then s
  else
    let s := ({ s with loft.away := KM.del s.loft.away page }).zeroPageBytes page
    let all := List.range 256
    match KM.get s.cellar.flash (s.mapOf page).loc with
    | some f =>
      let ok := decide ((s.slot f.slot).state ≠ .empty ∧ (s.slot f.slot).salt = f.salt)
      if ok then ((s.countPage page false).loadBytes page f.data).poisonLines page f.poison else (s.countPage page true).poisonLines page all
    | none => (s.countPage page true).poisonLines page all

/-- Bytes of an admitted write placed into a page (R163, R179): lines of a gather page that are not present take the flash page's line first. -/
def State.placeIn (s : State) (page off : Nat) (bs : List Byte) (map : Nat) : State :=
  let s := match s.gatherOf page with
    | some g => s.fillLines g (linesOf off bs.length)
    | none => s.loadAway page
  (s.place (s.placeAddr page off) bs map).logPage page

end Sys2Proof.Machine
end

