-- ==== Sys2Proof/Machine/Bar2.lean ====
section
/-!
DEFINITION. The Loft aperture (chapter 02, R53, R54; R186): its base, the reserve structures as software reads them, and writes into the page-list area.
-/

namespace Sys2Proof.Machine

/-! ### The reserve structures as bytes (table "System reserve layout") -/

/-- The word of some flags and fields: pairs of a value and its lowest bit. -/
def packed (l : List (Nat × Nat)) : Nat := l.foldl (fun a p => a + p.1 * 2 ^ p.2) 0

/-- A window descriptor (table "Window descriptor"). -/
def windowBytes (w : Window) : List Byte :=
  leBytes 4 (packed [(b2n w.valid, 31), (b2n w.revoking, 30), (b2n w.write, 29), (b2n w.read, 28), (b2n w.pinSet, 27), (w.gen, 16), (w.tenant, 0)]) ++
    leBytes 4 w.object ++ leBytes 4 w.firstPage ++ leBytes 4 w.sizePages ++ leBytes 4 w.pinFirst ++ leBytes 4 w.pinCount ++ List.replicate 40 0

/-- An object table entry (table "Object table entry"). -/
def objectBytes (o : Object) : List Byte :=
  leBytes 4 (packed [(b2n o.valid, 31), (b2n o.readOnly, 30), (b2n o.gather, 29), (b2n o.destroying, 28), (o.homeSide, 27), (o.owner, 0)]) ++
    leBytes 4 o.sizePages ++ leBytes 8 o.pageList ++ leBytes 4 o.aliasCount ++ leBytes 4 o.keySlot ++ leBytes 8 0

/-- A Cellar-map entry (table "Cellar-map entry"): its location fields are 0 where its state does not use them. -/
def mapBytes (e : MapEntry) : List Byte := leBytes 5 (e.state.code * 2 ^ 37 + (if e.state = .mapped then e.loc % 2 ^ 34 * 8 + e.hint else 0))

/-- The code of a queue pair's state. -/
def qpStateCode : QpState → Nat
  | .free => 0
  | .init => 1
  | .ready => 2
  | .error => 3
  | .closing => 4

/-- A queue pair context (table "QP context"), with the bytes software has no definition of as zero. -/
def qpcBytes (q : Qp) : List Byte :=
  leBytes 4 (packed [(b2n (decide (q.state ≠ .free)), 31), (qpStateCode q.state, 28), (b2n q.sealReq, 27), (b2n q.txKeySel, 26), (q.peer, 12),
    (q.tenant, 0)]) ++
    leBytes 4 (packed [(q.respPlanes, 20), (q.peerQpn, 0)]) ++ leBytes 4 q.cumPsn ++ leBytes 4 q.cmsn ++ leBytes 4 q.respPsn ++
    leBytes 4 q.failMsn ++ leBytes 4 (packed [(q.ackDelay, 24), (q.ackEvery, 16), (q.entropyBase, 0)]) ++
    leBytes 4 (packed [(q.rxKey1, 16), (q.rxKey0, 0)]) ++ leBytes 4 (packed [(q.txKey1, 16), (q.txKey0, 0)]) ++ leBytes 2 q.timeout ++
    leBytes 2 q.openMsgs ++ leBytes 1 q.failCause ++ leBytes 7 0 ++ leBytes 8 q.rxPkts ++ leBytes 8 q.rxBytes ++ leBytes 8 q.txRespBytes ++
    leBytes 4 q.dupPkts ++ leBytes 4 q.naks ++ leBytes 4 q.holds ++ leBytes 4 q.lastActivity ++ List.replicate 168 0

/-- The byte of the Loft at a DPA as software reads it: the reserve structures are read from the tables that hold them. -/
def State.apertureByte (s : State) (dpa : Nat) : Byte :=
  let o := dpa - s.reserveBase
  if dpa < s.reserveBase then s.loftByte dpa
  else if o < 0x10000000 then (qpcBytes (KM.getD {} s.fab.saved (o / 256))).getD (o % 256) 0
  else if o < 0x20000000 then s.loftByte dpa
  else if o < 0x40000000 then (objectBytes (s.object ((o - 0x20000000) / 32))).getD (o % 32) 0
  else if o < 0x80000000 then (windowBytes (s.window ((o - 0x40000000) / 64))).getD (o % 64) 0
  else if o < 0x15C0000000 then
    let i := (o - 0x80000000) / 5
    (mapBytes (s.mapOf (if i < 2 ^ 30 then i else cellarBase + (i - 2 ^ 30)))).getD ((o - 0x80000000) % 5) 0
  else s.loftByte dpa

/-! ### The aperture base (R53) -/

/-- The aperture base of a function. -/
def State.aperture (s : State) (fn : Fn) : Nat := s.fld (pPX fn) 0x05C 16 0 * 2 ^ 32 + s.fld (pPX fn) 0x058 31 30 * 2 ^ 30

/-- A write of one half of APERTURE_BASE: refused where the aperture would pass the top of the populated Loft. -/
def execApertureBaseWrite (fn : Fn) (high : Bool) (data : Word) (s : State) : Res :=
  .next (s.guarded (fnReq fn) 0x004C fun s =>
    let p := pPX fn
    let t := if high then s.setNum p 0x05C (bits data 16 0) else s.setReg p 0x058 (setBits 0 31 30 (bits data 31 30))
    if s.loftTop < t.aperture fn + 2 ^ 36 then s.fire 0x004C 2 else t)

/-- A range read for software through BAR2; one that holds a line under recovery waits for it (R308). -/
def State.bar2Answer (s : State) (fn : Fn) (dpa len : Nat) : State :=
  if s.recoveringIn dpa len then { s with loft.reads := s.loft.reads ++ [(fn, dpa, len)] }
  else if s.poisonMap dpa len ≠ 0 ∨ (List.range (pageOf (dpa + len - 1) + 1 - pageOf dpa)).any (fun i => s.pendingTag (pageOf dpa + i)) then (s.emit (.bar2Data fn true (List.replicate len 0))).fire 0x004C 3
  else s.emit (.bar2Data fn false ((List.range len).map fun i => s.apertureByte (dpa + i)))

/-- A read through BAR2. -/
def execBar2Read (fn : Fn) (addr len : Nat) (s : State) : Res :=
  .next (if 2 ^ 36 < addr + len ∨ len = 0 then s else s.bar2Answer fn (s.aperture fn + addr) len)

/-! ### Writes into the page-list area (R54, R186) -/

/-- A range cut at page ends: DPA and bytes of each part. -/
def pageShares : Nat → Nat → List Byte → List (Nat × List Byte)
  | 0, _, _ => []
  | fuel + 1, dpa, bs =>
    if bs = [] then []
    else
      let n := 16384 - dpa % 16384
      (dpa, bs.take n) :: pageShares fuel (dpa + n) (bs.drop n)

/-- Parts of a write placed. -/
def State.placeParts (s : State) : List (Nat × List Byte) → State
  | [] => s
  | (a, bs) :: l => (s.placeIn (pageOf a) (a % 16384) bs 0).placeParts l

/-- A BAR2 write finds room now: its regions take writes, and each page it would make dirty fits the budget and has its credit. -/
def State.bar2Fits (s : State) (pages : List Nat) (len : Nat) : Bool :=
  (s.regionsOf pages).all fun r =>
    let need := (s.needIn r pages).length
    decide (s.regionMode r ≠ .outage) && !(decide (s.regionMode r = .buffered) && decide (bufferSize < (s.region r).buffer.length + len)) &&
      decide (need = 0 ∨ ((dirtyPages (s.dirty r) + need) * 16384 ≤ s.budgetR ∧ (s.creditFree ∨ need ≤ s.credit r)))

/-- A BAR2 write admitted: its pages are charged to tenant 0, and it is mirrored; it is posted to the Loft at once in SOLO, else once the twin has applied its frame. -/
def State.bar2Admit (s : State) (dpa : Nat) (bs : List Byte) : State :=
  let parts := pageShares 4 dpa bs
  let pages := parts.map fun p => pageOf p.1
  let fresh := s.newlyDirty pages
  let s := s.chargeWrites 0 pages
  let segs := parts.flatMap fun p => s.segmentsOf p.1 0 0 (decide (pageOf p.1 ∈ fresh)) p.2
  let n := s.mseqTx
  let s := s.sendSeq (.mirrorData segs) [] pages
  if s.pair = 3 then s.placeParts parts
  else
    { s with dur.posts := s.dur.posts ++ [(n, dpa, bs)] }

/-- BAR2 writes can be admitted now: the appliance mirrors, or is in SOLO, and has not fenced itself. -/
def State.bar2Open (s : State) : Bool := s.mirrors || decide (s.pair = 3)

/-- BAR2 writes that wait are admitted in order while there is room (R186). -/
def State.retryBar2 (fuel : Nat) (s : State) : State :=
  match fuel with
  | 0 => s
  | fuel + 1 =>
    match s.dur.waiting with
    | [] => s
    | (dpa, bs) :: rest =>
      if s.bar2Open && s.bar2Fits ((pageShares 4 dpa bs).map fun p => pageOf p.1) bs.length then
        (({ s with dur.waiting := rest }).bar2Admit dpa bs).retryBar2 fuel
      else s

/-- Room may have been freed: BAR2 writes that wait are tried again. -/
def State.wakeBar2 (s : State) : State := s.retryBar2 (s.dur.waiting.length + 1)

/-- BAR2 writes whose frame the twin has applied, that is, below an MSEQ, are posted to the Loft (R54). -/
def State.postBar2 (s : State) (applied : Nat) : State :=
  let ready := s.dur.posts.filter fun p => decide (p.1 < applied)
  let s := { s with dur.posts := s.dur.posts.filter fun p => decide (applied ≤ p.1) }
  ready.foldl (fun s p => s.placeParts (pageShares 4 p.2.1 p.2.2)) s

/-- A write through BAR2: refused and counted unless it lies in the page-list area outside every bound list; else it is admitted, or waits inside the device. -/
def execBar2Write (fn : Fn) (addr : Nat) (data : List Byte) (s : State) : Res :=
  .next (
    let dpa := s.aperture fn + addr
    if data = [] ∨ 16384 < data.length ∨ 2 ^ 36 < addr + data.length then s
    else if dpa < s.listBase ∨ s.loftTop < dpa + data.length ∨ s.listBound dpa data.length then s.bump (pPX fn) 0x060
    else ({ s with dur.waiting := s.dur.waiting ++ [(dpa, data)] }).wakeBar2)

end Sys2Proof.Machine
end

