-- ==== Sys2Proof/Machine/Cellar.lean ====
section
/-!
DEFINITION. The Cellar (chapter 10): bands and sheaves, the recovery ladder, poison records, relocation, wear and retirement.
-/

namespace Sys2Proof.Machine

/-! ### Blocks and bands (R243 to R245, R250) -/

/-- Blocks of each LUN: those of the 2 Tb part where the Cellar page count is that part's, else of the 1 Tb part. -/
def State.lunBlocks (s : State) : Nat := if 6000000000 < s.win.cellarPages then 10922 else 5461

/-- General bands of a region. -/
def State.generalBands (s : State) : Nat := 16 * (s.lunBlocks - 1040)

/-- General-area pages of a region. -/
def State.generalPages (s : State) : Nat := s.generalBands * 16 * 1536

/-- Bands of a region written since their erase, or being erased, in the general area. -/
def State.bandsUsed (s : State) (r : Nat) : Nat :=
  (s.cellar.used.filter fun p => decide (p.1 / 262144 = r ∧ 1040 ≤ p.1 % 16384)).length +
  (s.cellar.erasing.filter fun b => decide (b / 262144 = r ∧ 1040 ≤ b % 16384)).length

/-- Erased general bands of a region. -/
def State.freeBands (s : State) (r : Nat) : Nat := s.generalBands - s.bandsUsed r

/-- Valid pages of a band. -/
def State.validIn (s : State) (band : Nat) : List Nat := (s.cellar.flash.filter fun p => locBand p.1 == band).map (·.1)

/-- A band is being filled. -/
def State.isOpen (s : State) (band : Nat) : Bool :=
  s.cellar.open_.any fun p => bandOf (p.1 / 66) p.2.lun p.2.block == band

/-- Number of valid pages of a band. -/
def State.validCount (s : State) (band : Nat) : Nat := (s.validIn band).length

/-- General bands of a region that relocation may empty: written, not being filled. -/
def State.candidates (s : State) (r : Nat) : List Nat :=
  (s.cellar.used.map (·.1)).filter fun b => decide (b / 262144 = r ∧ 1040 ≤ b % 16384) && !s.isOpen b

/-- The band with the fewest valid pages, the lowest first. -/
def State.fewest (s : State) : List Nat → Option Nat
  | [] => none
  | b :: l =>
    match s.fewest l with
    | some c => if s.validCount c < s.validCount b then some c else some b
    | none => some b

/-- Bands chosen for relocation, without repeats. -/
def State.addVictim (s : State) (b : Nat) : State :=
  if b ∈ s.cellar.victims then s else { s with cellar.victims := s.cellar.victims ++ [b] }

/-- A victim band without valid pages is erased. -/
def State.eraseEmpty (s : State) : List Nat → State
  | [] => s
  | b :: l =>
    let s :=
      if b ∈ s.cellar.victims ∧ s.validCount b = 0 ∧ s.isOpen b = false then
        { s with cellar.victims := s.cellar.victims.filter (· ≠ b), cellar.used := KM.del s.cellar.used b, cellar.erasing := s.cellar.erasing ++ [b] }
      else s
    s.eraseEmpty l

/-- A region that relocates and has no victim of its own takes the band with the fewest valid pages (R253). -/
def State.pickVictim (s : State) (r : Nat) : State :=
  if r ∈ s.cellar.relocating ∧ (s.cellar.victims.any fun b => b / 262144 == r) = false then
    match s.fewest (s.candidates r) with
    | some b => (s.addVictim b).eraseEmpty [b]
    | none => s
  else s

/-- FREE_BANDS shown, and relocation started or stopped: below RELOC_LOW, at one and a half times it (R253). -/
def State.showBands (s : State) (r : Nat) : State :=
  let n := s.freeBands r
  let low := s.fld (pRG r) 0x0C0 15 8 * s.generalBands
  let s := s.setNum (pRG r) 0x0C4 n
  let s :=
    if n * 1000 < low then (if r ∈ s.cellar.relocating then s else { s with cellar.relocating := r :: s.cellar.relocating })
    else if low * 3 ≤ n * 2000 then { s with cellar.relocating := s.cellar.relocating.filter (· ≠ r) }
    else s
  s.pickVictim r

/-- RELOC_RESERVE shown, and RESERVE_LOW where it falls below 20 ‰ (R271). The reserve is what the Cellar page count and the Loft shadows, with their parity, and the retired
blocks leave of the general area (DEDUCED from R245, log 13). -/
def State.showReserve (s : State) (r : Nat) : State :=
  let shadows := (s.cellar.flash.filter fun p => decide (locRegion p.1 = r ∧ p.2.kind = 1)).length
  let lost := (s.cellar.bad.filter fun l => locRegion l == r).length * 1536
  let g := s.generalPages
  let n := (g - lost - (s.win.cellarPages / s.regions + shadows) * 16 / 15) * 1000 / g
  let was := s.num (pRG r) 0x0C8
  let s := s.setNum (pRG r) 0x0C8 n
  if n < 20 ∧ 20 ≤ was then s.fire (pRG r) 6 else s

/-! ### Sheaves (R250, R251) -/

/-- Channels whose LUN and block take a page of a sheaf: in service, and the block not retired. -/
def State.slotChannels (s : State) (r lun block : Nat) : List Nat :=
  (List.range 16).filter fun c => decide (s.lunState r c lun = 0) && !decide (locOf r c lun (block * 1536) ∈ s.cellar.bad)

/-- The first channel of a list at or after a channel, with wrap. -/
def nextChannel (c : Nat) (l : List Nat) : Option Nat :=
  match l.find? fun x => decide (c ≤ x) with
  | some x => some x
  | none => l.head?

/-- The parity channel of a sheaf: (l + NPAGE) mod 16, or the next that takes a page where that one does not (DESIGN CHOICE, log 13). -/
def State.parityChannel (s : State) (r lun block npage : Nat) : Option Nat := nextChannel ((lun + npage) % 16) (s.slotChannels r lun block)

/-- Data slots of a sheaf. -/
def State.dataSlots (s : State) (r lun block npage : Nat) : List Nat :=
  (s.slotChannels r lun block).filter fun c => decide (some c ≠ s.parityChannel r lun block npage)

/-- The sheaf of a location is not sealed: it is the one its band is filling. -/
def State.unsealed (s : State) (loc : Nat) : Bool :=
  s.cellar.open_.any fun p => bandOf (p.1 / 66) p.2.lun p.2.block == locBand loc && locPage loc == p.2.block * 1536 + p.2.page

/-- A block of a LUN and plane that is erased and may be opened: the lowest (DESIGN CHOICE, log 13). -/
def State.erasedBlock (s : State) (r lun plane : Nat) : Option Nat :=
  (List.range s.lunBlocks).find? fun b => decide (1040 ≤ b) &&
    decide (b % 4 = plane) && (KM.get s.cellar.used (bandOf r lun b)).isNone && !decide (bandOf r lun b ∈ s.cellar.erasing) &&
      decide (2 ≤ (s.slotChannels r lun b).length)

/-- A band opened under a key. -/
def State.openBand (s : State) (r key lun block : Nat) : State :=
  ({ s with cellar.open_ := KM.put s.cellar.open_ (66 * r + key) { lun, block },
            cellar.used := KM.put s.cellar.used (bandOf r lun block) true }).showBands r

/-- The band open in a region under a key. -/
def State.openIn (s : State) (r key : Nat) : Option OpenBand := KM.get s.cellar.open_ (66 * r + key)

/-- The band a region fills next, opened where it has none: the pairs of LUN and plane in rotation. Answers its key. -/
def State.takeBand (fuel : Nat) (s : State) (r : Nat) : Option Nat × State :=
  match fuel with
  | 0 => (none, s)
  | fuel + 1 =>
    let k := KM.getD 0 s.cellar.rotor r
    match s.openIn r k with
    | some _ => (some k, s)
    | none =>
      match s.erasedBlock r (k / 4) (k % 4) with
      | some b => (some k, s.openBand r k (k / 4) b)
      | none => ({ s with cellar.rotor := KM.putD 0 s.cellar.rotor r ((k + 1) % 64) }).takeBand fuel r

/-- The relocation band of a region, opened where it has none. -/
def State.relocBand (fuel : Nat) (s : State) (r k : Nat) : Option Nat × State :=
  match fuel with
  | 0 => (none, s)
  | fuel + 1 =>
    match s.openIn r 64 with
    | some _ => (some 64, s)
    | none =>
      match s.erasedBlock r (k / 4) (k % 4) with
      | some b => (some 64, s.openBand r 64 (k / 4) b)
      | none => s.relocBand fuel r (k + 1)

/-- A page programmed at a location, counted on its channel. -/
def State.program (s : State) (loc : Nat) (f : FlashPage) : State :=
  ({ s with cellar.flash := KM.put s.cellar.flash loc f }).bump (locPageIndex loc) 0x050

/-- Programs of pad or parity pages counted on their channels. -/
def State.countPrograms (s : State) (r : Nat) : List Nat → State
  | [] => s
  | c :: l => (s.bump (pNC (16 * r + c)) 0x050).countPrograms r l

/-! ### The end of a harvest (R172, R176, R181, R226) -/

/-- A record allows the mirror to harvest a page, where this appliance is home for the page's object. -/
def State.harvestedRecord (s : State) (page mseq : Nat) : State :=
  if s.objectHome (s.mapOf page).object then s.mirrorMeta [.harvested page mseq] else s

/-- The mark of a HARVESTED record used up (R226). -/
def State.useMark (s : State) (page : Nat) : State := { s with twin.harvested := KM.del s.twin.harvested page }

/-- A harvest complete at a location. A page without REDIRTY leaves the dirty set; one with it stays, and counts in HV_REDIRTY. -/
def State.harvestDone (s : State) (h : Harvest) (loc : Nat) : State :=
  let r := s.regionOf h.page
  let d := s.dirty r
  let d : Dirty := { d with harvests := d.harvests.filter fun x => x.page ≠ h.page }
  match KM.get d.gather h.page with
  | some g =>
    if g.redirty then
      let s := s.setDirty r { d with gather := KM.put d.gather h.page { g with redirty := false } }
      (((s.freeFlash loc).bump (pRG r) 0x074).useMark g.cellar).harvestedRecord g.cellar h.mseq
    else
      let s := s.setDirty r d
      let s := match g.source with | some l => s.freeFlash l | none => s
      let e := s.mapOf g.cellar
      let s := (s.changeMap g.cellar { e with state := .mapped, loc, hint := 0 }).freeGather h.page
      (s.useMark g.cellar).harvestedRecord g.cellar h.mseq
  | none =>
    match KM.get d.pages h.page with
    | none => (s.setDirty r d).freeFlash loc
    | some x =>
      let e := s.mapOf h.page
      let s := if e.state = .mapped then s.freeFlash e.loc else s
      let s := s.changeMap h.page { e with state := .mapped, loc, hint := 0 }
      let s :=
        if x.redirty then (s.setDirty r { d with pages := KM.put d.pages h.page { x with redirty := false } }).bump (pRG r) 0x074
        else (s.setDirty r d).uncharge h.page
      ((s.useMark h.page).harvestedRecord h.page h.mseq).showReserve r

/-- Harvests of a list complete, in order. -/
def State.harvestsDone (s : State) : List (Harvest × Nat) → State
  | [] => s
  | (h, l) :: rest => (s.harvestDone h l).harvestsDone rest

/-- Harvests whose programs lie in a sheaf. -/
def State.harvestsIn (s : State) (r band npage : Nat) : List (Harvest × Nat) :=
  (s.dirty r).harvests.filterMap fun h =>
    match h.programmed with
    | some l => if locBand l = band ∧ locPage l = npage then some (h, l) else none
    | none => none

/-- The sheaf a band is filling sealed: pads in its free slots, its parity page, its harvests complete; the band goes on to its next sheaf, or is full. -/
def State.sealSheaf (s : State) (r key : Nat) : State :=
  match KM.get s.cellar.open_ (66 * r + key) with
  | none => s
  | some b =>
    let npage := b.block * 1536 + b.page
    let pads := (s.dataSlots r b.lun b.block npage).filter fun c => !decide (c ∈ b.used)
    let s := s.countPrograms r (pads ++ (s.parityChannel r b.lun b.block npage).toList)
    let done := s.harvestsIn r (bandOf r b.lun b.block) npage
    let m : KMap OpenBand :=
      if b.page + 1 = 1536 then KM.del s.cellar.open_ (66 * r + key)
      else KM.put s.cellar.open_ (66 * r + key) { b with page := b.page + 1, used := [] }
    let s := { s with cellar.open_ := m }
    let s := if key < 64 then { s with cellar.rotor := KM.putD 0 s.cellar.rotor r ((key + 1) % 64) } else s
    s.harvestsDone done

/-- The next free location of the sheaf a band is filling, for a page number: its preferred channel, else the next free data slot (R249, R251). -/
def State.slotIn (s : State) (r key page : Nat) : Option Nat :=
  match KM.get s.cellar.open_ (66 * r + key) with
  | none => none
  | some b =>
    let npage := b.block * 1536 + b.page
    let q := if isCellar page then page - cellarBase else page
    let free := (s.dataSlots r b.lun b.block npage).filter fun c => !decide (c ∈ b.used)
    (nextChannel (q / 4 % 16) free).map fun c => locOf r c b.lun npage

/-- A slot of a band's sheaf taken. -/
def State.takeSlot (s : State) (r key loc : Nat) : State :=
  match KM.get s.cellar.open_ (66 * r + key) with
  | none => s
  | some b => { s with cellar.open_ := KM.put s.cellar.open_ (66 * r + key) { b with used := insertSorted (locChannel loc) b.used } }

/-- The sheaf sealed where its data slots are all used. -/
def State.sealFull (s : State) (r key : Nat) : State :=
  match KM.get s.cellar.open_ (66 * r + key) with
  | none => s
  | some b =>
    if (s.dataSlots r b.lun b.block (b.block * 1536 + b.page)).all fun c => decide (c ∈ b.used) then s.sealSheaf r key else s

/-- A page programmed into a band: its location, the state in which it is programmed, and the key of the band, whose sheaf may now be full. -/
def State.programIn (s : State) (r key page : Nat) (f : FlashPage) : Option (Nat × State) :=
  match s.slotIn r key page with
  | none => none
  | some loc => some (loc, (s.takeSlot r key loc).program loc f)

/-! ### The reserve shadow area (R252) -/

/-- LUN and block of a band of the reserve log by its index: in order of block, then LUN. -/
def reserveBand (n : Nat) : Nat × Nat := (n % 16, n / 16 % 16)

/-- Current shadows of a band of the reserve area: pages whose map entry names them. -/
def State.currentIn (s : State) (band : Nat) : List (Nat × FlashPage) :=
  s.cellar.flash.filter fun p => decide (locBand p.1 = band ∧ (s.mapOf p.2.page).loc = p.1 ∧ (s.mapOf p.2.page).state = .mapped)

/-- Flash pages of a band erased. -/
def State.eraseBand (s : State) (band : Nat) : State := { s with cellar.flash := KM.keep (fun l _ => locBand l ≠ band) s.cellar.flash }

/-- Shadows copied to the head of the reserve log. -/
def State.copyShadows (s : State) (r : Nat) : List (Nat × FlashPage) → State
  | [] => s
  | (_, f) :: l =>
    match s.programIn r 65 f.page f with
    | some (loc, s) => ((s.setMap f.page { s.mapOf f.page with loc, hint := 0 }).sealFull r 65).copyShadows r l
    | none => s.copyShadows r l

/-- The head of a region's reserve log: its band where one is being filled, else the next. Before the head reaches a band, its current shadows are copied to the head: they
are copied into the band before it as that is opened. The rotor of the log is kept beside the regions'. -/
def State.reserveHead (s : State) (r : Nat) : State :=
  match KM.get s.cellar.open_ (66 * r + 65) with
  | some _ => s
  | none =>
    let n := KM.getD 0 s.cellar.rotor (4 + r)
    let (lun, block) := reserveBand n
    let (lun', block') := reserveBand (n + 1)
    let s := { s with cellar.rotor := KM.putD 0 s.cellar.rotor (4 + r) ((n + 1) % 256),
                      cellar.open_ := KM.put s.cellar.open_ (66 * r + 65) { lun, block } }
    let s := s.eraseBand (bandOf r lun block)
    let next := bandOf r lun' block'
    (s.copyShadows r (s.currentIn next)).eraseBand next

/-! ### Sealing pages (R246 to R248) -/

/-- The key slot a page is sealed under: the device storage key for the reserve, else its object's. -/
def State.pageSlot (s : State) (page kind : Nat) : Nat := if kind = 3 then 6 else (s.object (s.mapOf page).object).keySlot

/-- A page's content sealed: none where the slot holds no key or its counter has reached 2^48 (R248). -/
def State.sealPage (s : State) (kind page : Nat) (data : KMap Byte) (poison : List Nat) : Option FlashPage × State :=
  let n := s.pageSlot page kind
  let k := s.slot n
  if k.state = .empty then (none, s)
  else if 2 ^ 48 ≤ k.counter + 1 then (none, s.fire (pNC (16 * s.regionOf page + page / 4 % 16)) 5)
  else
    let (salt, ctr, s) := s.sealCount n
    (some { kind, page, slot := n, salt, ctr, poison, data }, s)

/-- The key that sealed a page still stands in its slot, so that its tag can verify. -/
def State.opens (s : State) (f : FlashPage) : Bool := decide ((s.slot f.slot).state ≠ .empty ∧ (s.slot f.slot).salt = f.salt)

/-! ### What a flash page holds -/

/-- What a read of a page yields: the page, or none where it is beyond recovery and reads as poisoned. -/
abbrev Content := Option FlashPage

/-- Bytes of a range of a page, with poisoned lines as zero, and the poison map of the range from its first line on. -/
def contentRange (c : Content) (off n : Nat) : List Byte × Nat :=
  let lines := linesOf off n
  match c with
  | none => (List.replicate n 0, 2 ^ lines.length - 1)
  | some f =>
    ((List.range n).map fun i => if (off + i) / 64 ∈ f.poison then 0 else KM.getD 0 f.data (off + i),
     ((List.range lines.length).filter fun i => decide (off / 64 + i ∈ f.poison)).foldl (fun a i => a + 2 ^ i) 0)

/-- A page's content written to a Loft page (R216). -/
def State.loadPage (s : State) (page : Nat) (c : Content) : State :=
  let s := (s.countPage page c.isNone).zeroPageBytes page
  match c with
  | none => s.poisonLines page (List.range 256)
  | some f => (s.loadBytes page f.data).poisonLines page f.poison

/-- Pieces of a read that lie in a page supplied with its content. -/
def State.supply (s : State) (page : Nat) (c : Content) (j : ReadJob) : ReadJob :=
  let o := s.object j.object
  let add := j.left.filterMap fun p =>
    let w := j.offset + p.1
    if s.objectPage o (j.firstPage + w / 16384) = some page ∧ (j.got.any fun g => g.1 == p.1) = false then
      some (p.1, contentRange c (w % 16384) p.2)
    else none
  { j with got := j.got ++ add }

/-- The lines of a gather page that are not present taken from a content; with none they are poisoned. -/
def State.fillGather (s : State) (g : Nat) (c : Content) : State :=
  match KM.get (s.dirty (s.regionOf g)).gather g with
  | none => s
  | some x =>
    let missing := (List.range 256).filter fun i => !decide (i ∈ x.present)
    match c with
    | some _ => s.fillLines g missing
    | none =>
      let r := s.regionOf g
      let d := s.dirty r
      let s := s.poisonLines g missing
      let s := match x.source with | some l => s.freeFlash l | none => s
      s.setDirty r { d with gather := KM.put d.gather g { x with present := List.range 256, source := none } }

/-- Recoveries that wait for an entry take the one that is free: a region has 64 (R308). -/
def State.recovNext (s : State) (r : Nat) : Option Nat :=
  if (s.loft.recov.filter fun p => decide (s.regionOf (p.1 / 256) = r ∧ p.2.1 ≠ 0)).length < 64 then
    (s.loft.recov.find? fun p => decide (s.regionOf (p.1 / 256) = r ∧ p.2.1 = 0)).map (·.1)
  else none

/-- The outcome of a line recovery: what was written of it meanwhile follows, and the BAR2 reads that wait are answered. -/
def State.recovered (s : State) (line : Nat) : State :=
  let parts := s.loft.merges.filter fun p => decide (p.1 / 64 = line)
  let s := parts.foldl (fun s p => s.placeLine p.1 p.2 false) (s.endRecovery line)
  let reads := s.loft.reads
  reads.foldl (fun s p => s.bar2Answer p.1 p.2.1 p.2.2) { s with loft.reads := [] }

/-- The pass of a Gleaner under way changed: of the Loft, or of the Cellar. -/
def State.notePass (s : State) (r : Nat) (cellar : Bool) (f : GleanPass → GleanPass) : State :=
  { s with integ.passes := KM.put s.integ.passes (2 * r + b2n cellar) (f (KM.getD {} s.integ.passes (2 * r + b2n cellar))) }

/-- A recovered line written in place and counted (R307); a copy with the line poisoned is no recovery, and the line keeps waiting for LINE_RECOVERY_DONE. -/
def State.lineStored (s : State) (dpa : Nat) (bs : List Byte) (clean : Bool) (counter : Nat) : State :=
  let line := dpa / 64
  if s.recovering line ∧ clean then
    let page := dpa / 16384
    let s := match KM.get s.loft.recov line with
      | some (_, true) => s.notePass (s.regionOf page) false fun p => { p with recovered := p.recovered + 1 }
      | _ => s
    let s := ((s.countStore (line * 64) false false).loftPut (line * 64) bs).setPoison line false
    ((s.recovered line).logPage page).bump (pRG (s.regionOf page)) counter
  else s

/-- A demand read that ran the ladder is answered: series 10, µs from its admission (R448). -/
def State.coldSample (s : State) (q m : Nat) : State :=
  match KM.get s.fab.trackers (q * 2 ^ 32 + m) with
  | some t => s.sample 10 (((s.now - t.lastArrival) / 1000 : Nat) : Int)
  | none => s

/-- One requester parked on a read answered. A fabric read is answered only while its page still lies where it was read (R255). -/
def State.serveOne (s : State) (page : Nat) (c : Content) (current : Bool) : Parked → State
  | .job q m rs =>
    if current then
      let s := s.coldSample q m
      { s with fab.reads := s.fab.reads.map fun (j : ReadJob) => if j.qpn = q ∧ j.msn = m ∧ j.resend = rs then s.supply page c j else j }
    else s
  | .fill g => s.fillGather g c
  | .load p => if (KM.get s.loft.away p).isSome then ({ s with loft.away := KM.del s.loft.away p }).loadPage p c else s
  | .twin id dpa len =>
    let (bs, map) := contentRange c (dpa % 16384) len
    s.sendOne (.readData id dpa map bs)
  | .line dpa => s.lineStored dpa (contentRange c (dpa % 16384) 64).1 ((contentRange c (dpa % 16384) 64).2 = 0) 0x194
  | .glean => s

/-- Every requester parked on a read answered. -/
def State.serve (s : State) (page : Nat) (c : Content) (current : Bool) : List Parked → State
  | [] => s
  | p :: l => (s.serveOne page c current p).serve page c current l

/-! ### The recovery ladder (R256 to R260) -/

/-- The page of a miss entry still lies at its location. -/
def State.mappedAt (s : State) (page loc : Nat) : Bool := decide ((s.mapOf page).state = .mapped ∧ (s.mapOf page).loc = loc)

/-- Tenants that hold a window on an object. -/
def State.tenantsOf (s : State) (id : Nat) : List Nat := (s.aliases id).foldl (fun l p => insertSorted p.2.tenant l) []

/-- Poison records of a page published, one for each tenant (R259). -/
def State.poisonRecords (s : State) (page object : Nat) : List Nat → State
  | [] => s
  | t :: l =>
    let r := s.regionOf page
    let n := if isCellar page then page - cellarBase else page
    let w := (if isCellar page then 0 else 2 ^ 30) + n / 2 ^ 32 * 2 ^ 27 + object
    ((s.publish (pRG r) 0x0F4 [n % 2 ^ 32, w, t] 64).fire (pRG r) 5).poisonRecords page object l

/-- A page beyond recovery (R259): its entry becomes POISONED, everyone parked is answered with poison, and the records are published. -/
def State.poisonPage (s : State) (m : Miss) : State :=
  let object := (s.mapOf m.page).object
  let current := s.mappedAt m.page m.loc
  let s := if current then (s.freeFlash m.loc).changeMap m.page { s.mapOf m.page with state := .poisoned, loc := 0, hint := 0 } else s
  let s := s.serve m.page none current m.parked
  let s := s.bump (pRG (locRegion m.loc)) 0x0E4
  let s := s.poisonRecords m.page object (m.tenant :: (s.tenantsOf object).filter (· ≠ m.tenant))
  s.dropMiss m.loc

/-- A page moved to a new location: its map entry, or the source of its gather page, follows with RETRY_HINT 0, and the old location is freed. -/
def State.movePage (s : State) (page old new : Nat) : State :=
  let s :=
    if s.mappedAt page old then s.changeMap page { s.mapOf page with loc := new, hint := 0 }
    else
      match s.gatherOf page with
      | some g =>
        let r := s.regionOf g
        let d := s.dirty r
        (match KM.get d.gather g with
         | some x => if x.source = some old then s.setDirty r { d with gather := KM.put d.gather g { x with source := some new } } else s
         | none => s)
      | none => s
  s.freeFlash old

/-- A recovered page rewritten into the current sheaf of its region (R258). -/
def State.rewrite (s : State) (m : Miss) (f : FlashPage) : State :=
  let r := locRegion m.loc
  match s.takeBand 64 r with
  | (none, s) => s
  | (some k, s) =>
    match s.programIn r k m.page f with
    | none => s
    | some (loc, s) => (((s.movePage m.page m.loc loc).bump (pRG r) 0x0E8).fireLimited (pRG r) 7).sealFull r k

/-- One in 1,024 codewords of step-1 reads is sampled (series 14): one in 1,024 of the reads, by the most bits corrected in a codeword (DESIGN CHOICE, log 23). -/
def State.codeword (s : State) (bits : Nat) : State :=
  let s := { s with hist.codewords := (s.hist.codewords + 1) % 1024 }
  if s.hist.codewords = 0 then s.sample 14 bits else s

/-- A ladder step succeeds: counted, everyone parked served, and after steps 3 to 5 the page rewritten. -/
def State.stepOk (s : State) (m : Miss) (f : FlashPage) : State :=
  let s := s.bump (pRG (locRegion m.loc)) (0x0D0 + 4 * (m.step - 1))
  let s := s.serve m.page (some f) (s.mappedAt m.page m.loc) m.parked
  let s := if m.step = 2 ∧ s.mappedAt m.page m.loc then (s.setMap m.page { s.mapOf m.page with hint := m.sub }).dropStaged m.page else s
  let s := if 3 ≤ m.step then s.rewrite m f else s
  s.dropMiss m.loc

/-- A READ_REQ sent to the twin (R238); answers false where no port is in service. AFTER_SEQ is the next MSEQ (DEDUCED for purposes other than 1, log 14). -/
def State.askTwin (s : State) (dpa len purpose : Nat) (w : ReadWaiter) : Bool × State :=
  if s.twinPorts = [] then (false, s)
  else
    let id := s.twin.nextReq
    let q : ReadReq := { id, dpa, len, after := s.mseqTx, purpose, resent := false, waiter := w }
    (true, ({ s with twin.reqs := s.twin.reqs ++ [q], twin.nextReq := id + 1 }).sendOne (.readReq id dpa len s.mseqTx purpose))

/-- A miss entry changed. -/
def State.setMiss (s : State) (m : Miss) : State :=
  { s with cellar.misses := s.cellar.misses.map fun (x : Miss) => if x.loc = m.loc then m else x }

/-- A requester is answered short of asking the twin: the twin itself, and a line recovery, whose own step has asked it (R307). -/
def isTwinRead : Parked → Bool
  | .twin _ _ _ => true
  | .line _ => true
  | _ => false

/-- Steps 5 and 6: the twin's copy in PAIRED, else poison. -/
def State.stepFive (s : State) (m : Miss) : State :=
  let s := s.serve m.page none true (m.parked.filter isTwinRead)
  let m : Miss := { m with step := 5, parked := m.parked.filter fun p => !isTwinRead p }
  if m.parked = [] then s.dropMiss m.loc
  else if s.pair = 1 then
    match s.askTwin (m.page * 16384) 16384 2 (.cellar m.loc) with
    | (true, s) => s.setMiss m
    | (false, s) => s.poisonPage m
  else s.poisonPage m

/-- The next step of the retry table after one, skipping the hint. -/
def retryNext (sub hint : Nat) : Option Nat := (List.range' (sub + 1) (7 - sub)).find? fun t => t ≠ hint

/-- The channels of a sheaf whose LUN is retired, other than a location's own. -/
def State.retiredSibling (s : State) (loc : Nat) : Bool :=
  (List.range 16).any fun c => decide (c ≠ locChannel loc ∧ s.lunState (locRegion loc) c (locLun loc) = 2)

/-- A ladder step fails, and the next one that applies begins. -/
def State.stepFails (s : State) (m : Miss) : State :=
  let hint := (s.mapOf m.page).hint
  let done := ((List.range' 1 m.sub).filter fun t => t ≠ hint).length
  let retry := s.fld (pRG (locRegion m.loc)) 0x0C0 2 0
  let later :=
    if s.retiredSibling m.loc then s.stepFive m else s.setMiss { m with step := 4 }
  match m.step with
  | 1 =>
    (match retryNext 0 hint with
     | some t => if 0 < retry then s.setMiss { m with step := 2, sub := t } else s.setMiss { m with step := 3 }
     | none => s.setMiss { m with step := 3 })
  | 2 =>
    (match retryNext m.sub hint with
     | some t => if done < retry then s.setMiss { m with sub := t } else s.setMiss { m with step := 3 }
     | none => s.setMiss { m with step := 3 })
  | 3 => later
  | 4 => s.stepFive m
  | _ => s.poisonPage m

/-- Page reads of a step counted: its channel, or the fifteen siblings' at step 4. -/
def State.countReads (s : State) (m : Miss) : State :=
  let r := locRegion m.loc
  if m.step = 4 then (List.range 16).foldl (fun s c => if c = locChannel m.loc then s else s.bump (pNC (16 * r + c)) 0x04C) s
  else s.bump (locPageIndex m.loc) 0x04C

/-- EARLY_WARN of an ordinary step-1 read (R266, R267): counted, raised, and the page is to be relocated; a band of 64 warnings is relocated whole. -/
def State.earlyWarn (s : State) (loc : Nat) : State :=
  let p := locPageIndex loc
  let b := locBand loc
  let n := KM.getD 0 s.cellar.warns b + 1
  let s := ((s.bump p 0x058).fireLimited p 0)
  let s := { s with cellar.warns := KM.put s.cellar.warns b n, cellar.rewrites := insertSorted loc s.cellar.rewrites }
  if 64 ≤ n ∧ (KM.get s.cellar.used b).isSome then s.addVictim b else s

/-- A flash read, or a recovery step, of a miss entry ends: ok says that all codewords decoded and the CRC is right, bits is the most bits corrected in a codeword. The
tag verifies only while the key that sealed the page stands in its slot. Step 4 fails while the sheaf is not sealed. While a class D alarm has erased the keys the read stays
where it is (DESIGN CHOICE, log 15). -/
def execNandReadDone (loc : Nat) (ok : Bool) (bits : Nat) (s : State) : Res :=
  .next (match s.cellar.misses.find? fun m => m.loc == loc with
    | none => s
    | some m =>
      if 5 ≤ m.step ∨ s.classD then s
      else
        let s := s.countReads m
        let s := if m.step = 1 ∧ ok = false then s.bump (locPageIndex loc) 0x05C else s
        let s := if m.step = 1 ∧ ok ∧ s.fld (locPageIndex loc) 0x048 15 8 ≤ bits then s.earlyWarn loc else s
        let s := if m.step = 1 ∧ ok then s.codeword bits else s
        match KM.get s.cellar.flash loc with
        | none => (s.serve m.page none false (m.parked.filter isTwinRead)).dropMiss loc
        | some f => if ok ∧ s.opens f ∧ ¬(m.step = 4 ∧ s.unsealed loc) then s.stepOk m f else s.stepFails m)

/-! ### Relocation (R253, R267 to R269) -/

/-- A page may be relocated: its band is a victim, or the page itself is to be rewritten. -/
def State.relocatable (s : State) (loc : Nat) : Bool := decide (locBand loc ∈ s.cellar.victims ∨ loc ∈ s.cellar.rewrites)

/-- A relocation copy ends: the page lies, exactly as stored, in the relocation band; its map entry follows, and a victim band left empty is erased. A page freed
meanwhile makes the copy stale. -/
def execRelocationCopyDone (loc : Nat) (s : State) : Res :=
  .next (if s.relocatable loc = false then s
    else
      let r := locRegion loc
      let s := { s with cellar.rewrites := s.cellar.rewrites.filter (· ≠ loc) }
      match KM.get s.cellar.flash loc with
      | none => s.eraseEmpty [locBand loc]
      | some f =>
        match s.relocBand 64 r 0 with
        | (none, s) => s
        | (some k, s) =>
          match s.programIn r k f.page f with
          | none => s
          | some (new, s) =>
            let s := (((s.movePage f.page loc new).bump (pRG r) 0x0CC).sealFull r k).eraseEmpty [locBand loc]
            ((s.pickVictim r).showBands r).showReserve r)

/-- P/E cycles of a band. -/
def State.peOf (s : State) (b : Nat) : Nat := KM.getD 0 s.cellar.pe b

/-- The band furthest below the mean P/E count: the least worn of a list, the lowest first. -/
def State.leastWorn (s : State) : List Nat → Option Nat
  | [] => none
  | b :: l =>
    match s.leastWorn l with
    | some c => if s.peOf c < s.peOf b then some c else some b
    | none => some b

/-- Sum of the P/E counts of a region's general bands. -/
def State.peSum (s : State) (r : Nat) : Nat :=
  (s.cellar.pe.filter fun p => decide (p.1 / 262144 = r ∧ 1040 ≤ p.1 % 16384)).foldl (fun a p => a + p.2) 0

/-- Once a day the band furthest below the region's mean P/E count is chosen for relocation. -/
def execDailyWearRelocation (region : Nat) (s : State) : Res :=
  .next (if 4 ≤ region then s
    else
      match s.leastWorn (s.candidates region) with
      | some b => if s.peOf b * s.generalBands < s.peSum region then ((s.addVictim b).eraseEmpty [b]).showBands region else s
      | none => s)

/-- P/E counts shown on the channels of a region: highest and mean, general bands (R266). -/
def State.showWear (s : State) (r : Nat) : List Nat → State
  | [] => s
  | c :: l =>
    let top := (s.cellar.pe.filter fun p => decide (p.1 / 262144 = r ∧ 1040 ≤ p.1 % 16384)).foldl (fun a p => max a p.2) 0
    ((s.setNum (pNC (16 * r + c)) 0x070 (top * 65536 + s.peSum r / s.generalBands))).showWear r l

/-- Erases counted on the channels of a region. -/
def State.countErases (s : State) (r : Nat) : List Nat → State
  | [] => s
  | c :: l => (s.bump (pNC (16 * r + c)) 0x054).countErases r l

/-- An erase of a band ends: its P/E count rises and it is erased again. -/
def execNandEraseDone (band : Nat) (s : State) : Res :=
  .next (if band ∈ s.cellar.erasing then
      let r := band / 262144
      let s := { s with cellar.erasing := s.cellar.erasing.filter (· ≠ band), cellar.pe := KM.put s.cellar.pe band (s.peOf band + 1),
                        cellar.warns := KM.del s.cellar.warns band }
      ((s.countErases r (List.range 16)).showWear r (List.range 16)).showBands r
    else s)

/-! ### Retirement (R268 to R270) -/

/-- State of a LUN set. -/
def State.setLun (s : State) (channel lun v : Nat) : State := s.setFld (pNC channel) 0x044 (2 * lun + 1) (2 * lun) v

/-- Bands chosen for relocation, in order. -/
def State.addVictims (s : State) : List Nat → State
  | [] => s
  | b :: l => (s.addVictim b).addVictims l

/-- A LUN starts retiring: its bit reads 1, and every band of its index is relocated. -/
def State.retireLun (s : State) (channel lun : Nat) : State :=
  if s.fld (pNC channel) 0x044 (2 * lun + 1) (2 * lun) ≠ 0 then s
  else
    let s := (s.setLun channel lun 1).setFld (pNC channel) 0x040 lun lun 1
    let bands := (s.cellar.used.map (·.1)).filter fun b => decide (b / 16384 = channel / 16 * 16 + lun)
    (s.addVictims bands).eraseEmpty bands

/-- LUNs start retiring, in order. -/
def State.retireLuns (s : State) (channel : Nat) : List Nat → State
  | [] => s
  | l :: ls => (s.retireLun channel l).retireLuns channel ls

/-- A write of LUN_RETIRE: write 1 to set. -/
def execLunRetireWrite (req : Requester) (channel : Nat) (data : Word) (s : State) : Res :=
  .next (if 64 ≤ channel then s else s.guarded req (pNC channel) fun s => s.retireLuns channel ((List.range 16).filter fun i => bit data i))

/-- A LUN fails to complete a command within 50 ms. -/
def execLunFault (channel lun : Nat) (s : State) : Res :=
  .next (if 64 ≤ channel ∨ 16 ≤ lun ∨ s.absent (pNC channel) then s else (s.fire (pNC channel) 4).retireLun channel lun)

/-- Relocation off a retiring LUN ends, once no band of its index holds a valid page that relocation still has to move: it is retired, its flush-zone blocks leave zone_free_r. -/
def execLunRetired (channel lun : Nat) (s : State) : Res :=
  .next (
    let r := channel / 16
    let left := s.cellar.victims.any fun b => decide (b / 16384 = r * 16 + lun)
    if 64 ≤ channel ∨ 16 ≤ lun ∨ s.fld (pNC channel) 0x044 (2 * lun + 1) (2 * lun) ≠ 1 ∨ left then s
    else
      let s := (s.setLun channel lun 2).fire (pNC channel) 3
      s.setNum pLG (0x0A0 + 4 * r) (s.num pLG (0x0A0 + 4 * r) - 8192))

/-- A block retired: counted, its LUN retires once 2 % of its blocks are grown bad; the band's valid pages are relocated (R268). -/
def State.retireBlock (s : State) (channel lun block : Nat) : State :=
  let r := channel / 16
  let loc := locOf r (channel % 16) lun (block * 1536)
  if loc ∈ s.cellar.bad then s
  else
    let k := channel * 16 + lun
    let n := KM.getD 0 s.cellar.grown k + 1
    let s := { s with cellar.bad := loc :: s.cellar.bad, cellar.grown := KM.put s.cellar.grown k n }
    let s := s.setFld (pNC channel) 0x060 31 16 (min 65535 (s.fld (pNC channel) 0x060 31 16 + 1))
    let pages := (s.cellar.flash.filter fun p => decide (locRegion p.1 = r ∧ locChannel p.1 = channel % 16 ∧ locLun p.1 = lun ∧ locBlock p.1 = block)).map (·.1)
    let s := { s with cellar.rewrites := pages.foldl (fun l x => insertSorted x l) s.cellar.rewrites }
    let s := if s.lunBlocks ≤ n * 50 then s.retireLun channel lun else s
    s.showReserve r

/-- A program fails (R268): the block is retired; a harvest programmed there in a sheaf not yet sealed has its page still dirty, and it is programmed again elsewhere. -/
def execProgramFail (channel lun block : Nat) (s : State) : Res :=
  .next (if 64 ≤ channel ∨ 16 ≤ lun ∨ s.lunBlocks ≤ block ∨ s.absent (pNC channel) then s
    else
      let r := channel / 16
      let d := s.dirty r
      let hit := fun (l : Nat) => decide (locRegion l = r ∧ locChannel l = channel % 16 ∧ locLun l = lun ∧ locBlock l = block)
      let lost := d.harvests.filterMap fun h => (match h.programmed with | some l => if hit l then some l else none | none => none)
      let keep := d.harvests.filter fun h => !(match h.programmed with | some l => hit l | none => false)
      let s := s.setDirty r { d with harvests := keep }
      let s := lost.foldl (fun s l => s.freeFlash l) s
      (s.fire (pNC channel) 1).retireBlock channel lun block)

/-- An erase fails: the block is retired; the rest of its band is erased. -/
def execEraseFail (channel lun block : Nat) (s : State) : Res :=
  .next (if 64 ≤ channel ∨ 16 ≤ lun ∨ s.lunBlocks ≤ block ∨ s.absent (pNC channel) then s
    else (s.fire (pNC channel) 2).retireBlock channel lun block)

end Sys2Proof.Machine
end

