-- ==== Sys2Proof/Machine/Windows.lean ====
section
/-!
DEFINITION. Tenants, objects, windows, page lists, the window cache and the translation cache (chapter 03), without revocation and migration.
-/

namespace Sys2Proof.Machine

/-! ### The window cache (R69 to R71) -/

/-- The window cache set, with the counts of TC 0x044. -/
def State.setCache (s : State) (l : List CachedWindow) : State :=
  ({ s with win.cache := l }).setReg pTC 0x044
    (setBits (setBits (s.reg pTC 0x044) 5 0 l.length) 21 16 (l.filter fun (e : CachedWindow) => e.locked).length)

/-- A window-cache lookup that hits makes its entry the most recently used. -/
def State.touchCache (s : State) (idx : Nat) : State :=
  match s.win.cache.find? fun e => e.idx == idx with
  | some e => { s with win.cache := e :: s.win.cache.filter fun x => x.idx ≠ idx }
  | none => s

/-- The loss of a lock published (R70, R73). -/
def State.lockLost (s : State) (idx cause : Nat) : State :=
  (s.fire pTC 0).publish pTC 0x048 [handleOf idx (s.window idx).gen, cause] 16

/-- An entry freed by an invalidation (cause 0), a revocation (1) or WINDOW_MODIFY (2); fills for it in flight become stale. -/
def State.freeCached (s : State) (idx cause : Nat) : State :=
  let locked := s.win.cache.any fun e => e.idx == idx && e.locked
  let s := s.setCache (s.win.cache.filter fun e => e.idx ≠ idx)
  let s := { s with win.fills := s.win.fills.map fun f => if f.idx = idx then { f with stale := true } else f }
  if locked then s.lockLost idx cause else s

/-- Entries freed, in order. -/
def State.freeCachedAll (s : State) (cause : Nat) : List Nat → State
  | [] => s
  | i :: l => (s.freeCached i cause).freeCachedAll cause l

/-- A list without the last element that satisfies a test. -/
def dropLastWhere (p : CachedWindow → Bool) (l : List CachedWindow) : List CachedWindow := (l.reverse.eraseP p).reverse

/-- A descriptor installed: where no entry of the 48 is free, the least recently used unlocked one goes. -/
def State.install (s : State) (idx : Nat) : State :=
  let l := s.win.cache
  let l := if 48 ≤ l.length then dropLastWhere (fun e => !e.locked) l else l
  s.setCache ({ idx, locked := false } :: l)

/-! ### The translation cache (R72) -/

/-- Set of a key in the translation cache. -/
def transSet (object page : Nat) : Nat := xor64 (object % 16384) (page % 16384)

/-- Object pages of a test invalidated; fills for them become stale. -/
def State.transInvalidate (s : State) (p : Nat → Nat → Bool) : State :=
  { s with win.trans := s.win.trans.filter fun e => !p e.1 e.2,
           win.transFills := s.win.transFills.map fun f => if p f.object f.page then { f with stale := true } else f }

/-- An element of a list left out by position. -/
def eraseAt (l : List (Nat × Nat)) (i : Nat) : List (Nat × Nat) := l.take i ++ l.drop (i + 1)

/-- A translation installed. In a full set of 16 ways the victim of pseudo-LRU is a free value (log 2). -/
def State.transInstall (s : State) (object page : Nat) : State :=
  let inSet : Nat × Nat → Bool := fun e => transSet e.1 e.2 == transSet object page
  let ways := s.win.trans.filter inSet
  if (object, page) ∈ s.win.trans then s
  else if ways.length < 16 then { s with win.trans := (object, page) :: s.win.trans }
  else
    let (v, s) := s.fresh
    let keep := eraseAt ways (v.toNat % ways.length)
    { s with win.trans := (object, page) :: s.win.trans.filter fun e => !inSet e || decide (e ∈ keep) }

/-- A translation looked up: a miss starts a fill. -/
def State.translate (s : State) (object page : Nat) : State :=
  if (object, page) ∈ s.win.trans ∨ s.win.transFills.any (fun f => f.object == object && f.page == page) then s
  else { s with win.transFills := s.win.transFills ++ [{ object, page, stale := false }] }

/-- A translation fill ends: installed, or discarded and counted where it went stale (R71). -/
def execTranslationFillDone (object page : Nat) (s : State) : Res :=
  .next (match s.win.transFills.find? fun f => f.object == object && f.page == page with
    | none => s
    | some f =>
      let s := { s with win.transFills := s.win.transFills.filter fun x => !(x.object == object && x.page == page) }
      if f.stale then s.bump pTC 0x058 else s.transInstall object page)

/-! ### Tenants (R59) -/

/-- A tenant exists; tenant 0 always does. -/
def State.tenantExists (s : State) (t : Nat) : Bool := t = 0 || (KM.get s.win.tenants t).isSome

/-- The windows a tenant holds. -/
def State.windowCount (s : State) (t : Nat) : Nat := (s.win.windows.filter fun p => p.2.valid && p.2.tenant == t).length

/-- A further window would exceed the tenant's quota. -/
def State.overQuota (s : State) (t : Nat) : Bool :=
  match KM.get s.win.tenants t with
  | some x => decide (x.quota ≠ 0 ∧ x.quota ≤ s.windowCount t)
  | none => false

/-- A tenant made with a fresh STORAGE slot (R331), where a slot is free. -/
def State.makeTenant (s : State) (t quota : Nat) (implied : Bool) : Option State :=
  match s.freeSlot with
  | none => none
  | some n =>
    let (key, s) := s.drawKey
    let s := s.loadSlot n 3 t key
    some (({ s with win.tenants := KM.put s.win.tenants t { quota, slot := n, implied } }).tallyStart t)

/-- TENANT_CREATE (R59, R58, R331). -/
def execTenantCreate (c : AdminCmd) (s : State) : Res :=
  .next (s.adminRun 0x10 c fun _ s =>
    if c.target = 0 ∨ 4095 < c.target then (s, bad stINVALID_FIELD)
    else
      match KM.get s.win.tenants c.target with
      | some t =>
        if t.implied then
          ({ s with win.tenants := KM.put s.win.tenants c.target { t with quota := c.p0, implied := false } }, good t.slot)
        else (s, bad stSTATE_CONFLICT)
      | none =>
        if s.drbgStopped then (s, bad stBUSY_RETRY 1000000)
        else if s.classD then (s, bad stKEY_LOST)
        else
          match s.makeTenant c.target c.p0 false with
          | none => (s, bad stNO_RESOURCE)
          | some s => (s, good (s.storageSlot c.target)))

/-! ### Choosing indices and object IDs (R61, R62) -/

/-- The parity rule: outside SOLO only numbers whose bit 0 equals SIDE. -/
def State.mayUse (s : State) (i : Nat) : Bool := s.pair = 3 || i % 2 = s.side

/-- The free number released longest ago: the lowest never used, else the first of those released. -/
def pickFree (limit used : Nat) (usable never : Nat → Bool) (released : List Nat) : Option Nat :=
  match (List.range' 1 (2 * used + 2)).find? fun i => decide (i ≤ limit) && usable i && never i with
  | some i => some i
  | none => released.find? usable

/-- The window index to use next. -/
def State.pickWindow (s : State) : Option Nat :=
  pickFree 16777215 s.win.windows.length s.mayUse (fun i => (KM.get s.win.windows i).isNone) s.win.freeWindows

/-- The object ID to use next. -/
def State.pickObject (s : State) : Option Nat :=
  pickFree 16777215 (s.win.objects.length + s.win.freeObjects.length) s.mayUse
    (fun i => (KM.get s.win.objects i).isNone && !decide (i ∈ s.win.freeObjects)) s.win.freeObjects

/-- The generation after one: 255 is followed by 1 (R61). -/
def nextGen (g : Nat) : Nat := g % 255 + 1

/-! ### Binding a page list (R64) -/

/-- The status of one entry of a list to bind, none where it passes; pages named before it. -/
def State.checkEntry (s : State) (gather : Bool) (v : Nat) (seen : List Nat) : Option Nat :=
  if v.testBit 63 = false then none
  else
    let page := v / 2 ^ 14 % 2 ^ 35
    if v % 2 ^ 14 ≠ 0 ∨ v / 2 ^ 49 % 2 ^ 14 ≠ 0 ∨ s.bindable page = false ∨ (gather ∧ isCellar page) ∨ page ∈ seen ∨
        (s.mapOf page).state = .retired then some stINVALID_FIELD
    else if (s.mapOf page).state ≠ .free then some stSTATE_CONFLICT
    else none

/-- Entries of a list checked in order from an index: the first failure with its index, else the pages with their object pages. -/
def State.checkEntries (s : State) (gather : Bool) (base : Nat) : Nat → Nat → List (Nat × Nat) → Nat × Nat × List (Nat × Nat)
  | 0, _, acc => (stSUCCESS, 0, acc.reverse)
  | n + 1, i, acc =>
    let v := leNat (s.loftRead (base + 8 * i) 8)
    match s.checkEntry gather v (acc.map (·.2)) with
    | some st => (st, i, [])
    | none => s.checkEntries gather base n (i + 1) (if v.testBit 63 then (i, v / 2 ^ 14 % 2 ^ 35) :: acc else acc)

/-- The list of a command checked: status, entry index, and the pages. -/
def State.bindCheck (s : State) (c : AdminCmd) (gather : Bool) : Nat × Nat × List (Nat × Nat) :=
  let base := c.p2 + 2 ^ 32 * c.p3
  if c.p1 = 0 ∨ 268435455 < c.p1 ∨ base % 8 ≠ 0 ∨ base < s.listBase ∨ s.loftTop < base + 8 * c.p1 ∨ s.listBound base (8 * c.p1) then
    (stINVALID_FIELD, 0, [])
  else s.checkEntries gather base c.p1 0 []

/-- Pages claimed by an object (R64, R492): their map entries become EMPTY; pages of a GATHER object join their region's gather pool (R63). -/
def State.claim (s : State) (object : Nat) (gather : Bool) : List (Nat × Nat) → State
  | [] => s
  | (i, page) :: l =>
    let s := s.changeMap page { state := .empty, object, index := i }
    let s :=
      if gather then
        let r := s.regionOf page
        s.setDirty r { s.dirty r with gatherFree := (s.dirty r).gatherFree ++ [page] }
      else s
    s.claim object gather l

/-- An object made (R64, R77, R331). -/
def State.makeObject (s : State) (id owner base n : Nat) (readOnly gather single : Bool) (pages : List (Nat × Nat)) : State :=
  let s := s.setObject id { valid := true, readOnly, gather, homeSide := s.side, owner, sizePages := n, pageList := base,
                            keySlot := s.storageSlot owner, single }
  ({ s with win.freeObjects := s.win.freeObjects.filter (· ≠ id) }).claim id gather pages

/-- A window made on an object, home here (R61, R218). -/
def State.makeWindow (s : State) (idx tenant object rights first n : Nat) : State :=
  let gen := nextGen (s.window idx).gen
  let s := s.setWindow idx { valid := true, write := rights.testBit 1, read := rights.testBit 0, gen, tenant, object, firstPage := first,
                             sizePages := n }
  let o := s.object object
  let s := s.setObject object { o with aliasCount := o.aliasCount + 1 }
  { s with win.freeWindows := s.win.freeWindows.filter (· ≠ idx), twin.homes := KM.putD 0 s.twin.homes idx s.side }

/-- WINDOW_CREATE (R59 to R62, R64). -/
def execWindowCreate (c : AdminCmd) (s : State) : Res :=
  .next (s.adminRun 0x12 c fun op s =>
    if 3 < c.p0 ∨ s.tenantExists c.target = false then (s, bad stINVALID_FIELD)
    else
      match s.bindCheck c false with
      | (0, _, pages) =>
        match s.pickWindow, s.pickObject with
        | some i, some id =>
          if s.overQuota c.target then (s, bad stNO_RESOURCE)
          else
            let s := s.makeObject id c.target (c.p2 + 2 ^ 32 * c.p3) c.p1 false false true pages
            let s := s.makeWindow i c.target id c.p0 0 c.p1
            let s := s.mirrorMeta (s.mapRecords (pages.map (·.2)) ++ [s.objectRecord id, s.windowRecord i])
            s.afterMirror op { status := stSUCCESS, r0 := handleOf i (s.window i).gen + 2 ^ 32 * id }
        | _, _ => (s, bad stNO_RESOURCE)
      | (st, i, _) => (s, bad st 0 i))

/-- OBJECT_CREATE (R60, R63, R64). -/
def execObjectCreate (c : AdminCmd) (s : State) : Res :=
  .next (s.adminRun 0x15 c fun op s =>
    let gather := c.p4.testBit 1
    if 3 < c.p4 ∨ s.tenantExists c.target = false ∨ (gather ∧ c.target ≠ 0) then (s, bad stINVALID_FIELD)
    else
      match s.bindCheck c gather with
      | (0, _, pages) =>
        match s.pickObject with
        | some id =>
          let s := s.makeObject id c.target (c.p2 + 2 ^ 32 * c.p3) c.p1 (c.p4.testBit 0) gather false pages
          let s := s.mirrorMeta (s.mapRecords (pages.map (·.2)) ++ [s.objectRecord id])
          s.afterMirror op { status := stSUCCESS, r0 := id }
        | none => (s, bad stNO_RESOURCE)
      | (st, i, _) => (s, bad st 0 i))

/-- OBJECT_ALIAS (R60, R63, R77, R78). -/
def execObjectAlias (c : AdminCmd) (s : State) : Res :=
  .next (s.adminRun 0x16 c fun op s =>
    let o := s.object c.target
    if o.valid = false ∨ o.destroying then (s, bad stINVALID_FIELD)
    else if s.objectHome c.target = false ∨ s.streaming c.target then (s, bad stSTATE_CONFLICT)
    else if 4095 < c.p0 ∨ 3 < c.p1 ∨ s.tenantExists c.p0 = false ∨ o.gather ∨ (o.readOnly ∧ c.p1.testBit 1) ∨
        (c.p0 ≠ o.owner ∧ o.readOnly = false) ∨ c.p3 = 0 ∨ o.sizePages < c.p2 + c.p3 then (s, bad stINVALID_FIELD)
    else
      match s.pickWindow with
      | some i =>
        if s.overQuota c.p0 then (s, bad stNO_RESOURCE)
        else
          let s := s.makeWindow i c.p0 c.target c.p1 c.p2 c.p3
          let s := s.mirrorMeta [s.windowRecord i, s.objectRecord c.target]
          s.afterMirror op { status := stSUCCESS, r0 := handleOf i (s.window i).gen }
      | none => (s, bad stNO_RESOURCE))

/-! ### Commands that name a handle (R77 to R79) -/

/-- The check of a handle in a command (R78): the status that ends it, if any. -/
def State.checkHandle (s : State) (h : Nat) : Option Nat :=
  let w := s.window (h / 256)
  if h / 256 = 0 ∨ w.valid = false ∨ w.revoking then some stINVALID_FIELD
  else if w.gen ≠ h % 256 then some stSTALE_GENERATION
  else none

/-- The check of a handle and of the home (R77). -/
def State.checkHome (s : State) (h : Nat) : Option Nat :=
  match s.checkHandle h with
  | some st => some st
  | none => if s.homeHere (h / 256) then none else some stSTATE_CONFLICT

/-- The pin-up range after a new window size (R79). -/
def cutPin (w : Window) (n : Nat) : Window :=
  if w.pinSet = false then w
  else if n ≤ w.pinFirst then { w with pinSet := false, pinFirst := 0, pinCount := 0 }
  else if n < w.pinFirst + w.pinCount then { w with pinCount := n - w.pinFirst }
  else w

/-- WINDOW_MODIFY (R60, R70, R78, R79). New lookups see the new rights and size at once; where access is withdrawn the command completes when the fence has
drained. -/
def execWindowModify (c : AdminCmd) (s : State) : Res :=
  .next (s.adminRun 0x14 c fun op s =>
    match s.checkHome c.target with
    | some st => (s, bad st)
    | none =>
      let i := c.target / 256
      let w := s.window i
      let o := s.object w.object
      let write := c.p0.testBit 1
      let read := c.p0.testBit 0
      if 3 < c.p0 ∨ c.p1 = 0 ∨ o.sizePages < w.firstPage + c.p1 ∨ (write ∧ o.readOnly) then (s, bad stINVALID_FIELD)
      else
        let s := s.setWindow i (cutPin { w with write, read, sizePages := c.p1 } c.p1)
        let s := s.mirrorMeta [s.windowRecord i]
        if (w.write ∧ !write) ∨ (w.read ∧ !read) ∨ c.p1 < w.sizePages then
          let s := s.freeCached i 2
          ({ s with win.fences := s.win.fences ++ [{ idx := i, kind := .modify (w.write && !write) (w.read && !read) c.p1, op, since := s.now,
                                                     abandoned := 0, late := false }] }, none)
        else s.afterMirror op { status := stSUCCESS })

/-- WINDOW_HINT PRELOAD (R69, R71): completes when its fill is installed. -/
def execHintPreload (c : AdminCmd) (s : State) : Res :=
  .next (s.adminRun 0x17 c fun op s =>
    if c.p0 ≠ 1 then (s, bad stINVALID_FIELD)
    else
      match s.checkHandle c.target with
      | some st => (s, bad st)
      | none =>
        let i := c.target / 256
        if s.win.cache.any fun e => e.idx == i then (s.touchCache i, good)
        else ({ s with win.fills := s.win.fills ++ [{ idx := i, gen := c.target % 256, stale := false, tries := 0, op }] }, none))

/-- A fill of a PRELOAD ends (R71). -/
def execWindowCacheFillDone (idx : Nat) (s : State) : Res :=
  .next (match s.win.fills.find? fun f => f.idx == idx with
    | none => s
    | some f =>
      let w := s.window idx
      let rest := s.win.fills.eraseP fun x => x.idx == idx
      if f.stale then
        let s := ({ s with win.fills := rest }).bump pTC 0x058
        if w.valid = false ∨ w.revoking then s.complete f.op { status := stINVALID_FIELD }
        else if w.gen ≠ f.gen then s.complete f.op { status := stSTALE_GENERATION }
        else if 4 ≤ f.tries then s.complete f.op { status := stBUSY_RETRY, r0 := 10 }
        else { s with win.fills := rest ++ [{ f with stale := false, tries := f.tries + 1 }] }
      else
        let s := { s with win.fills := rest }
        let s := if s.win.cache.any fun e => e.idx == idx then s.touchCache idx else s.install idx
        s.complete f.op { status := stSUCCESS })

/-- WINDOW_HINT LOCK (R69). -/
def execHintLock (c : AdminCmd) (s : State) : Res :=
  .next (s.adminRun 0x17 c fun _ s =>
    if c.p0 ≠ 2 then (s, bad stINVALID_FIELD)
    else
      match s.checkHandle c.target with
      | some st => (s, bad st)
      | none =>
        let i := c.target / 256
        match s.win.cache.find? fun e => e.idx == i with
        | none => (s, bad stSTATE_CONFLICT)
        | some e =>
          if e.locked then (s, good)
          else if 32 ≤ (s.win.cache.filter fun x => x.locked).length then (s, bad stNO_RESOURCE)
          else (s.setCache (s.win.cache.map fun x => if x.idx = i then { x with locked := true } else x), good))

/-- WINDOW_HINT UNLOCK (R69). -/
def execHintUnlock (c : AdminCmd) (s : State) : Res :=
  .next (s.adminRun 0x17 c fun _ s =>
    if c.p0 ≠ 3 then (s, bad stINVALID_FIELD)
    else
      match s.checkHandle c.target with
      | some st => (s, bad st)
      | none => (s.setCache (s.win.cache.map fun x => if x.idx = c.target / 256 then { x with locked := false } else x), good))

/-- WINDOW_HINT PIN_UP (R79). -/
def execHintPinUp (c : AdminCmd) (s : State) : Res :=
  .next (s.adminRun 0x17 c fun op s =>
    if c.p0 ≠ 4 then (s, bad stINVALID_FIELD)
    else
      match s.checkHome c.target with
      | some st => (s, bad st)
      | none =>
        let i := c.target / 256
        let w := s.window i
        if c.p2 = 0 ∨ w.sizePages < c.p1 + c.p2 then (s, bad stINVALID_FIELD)
        else
          let s := s.setWindow i { w with pinSet := true, pinFirst := c.p1, pinCount := c.p2 }
          (s.mirrorMeta [s.windowRecord i]).afterMirror op { status := stSUCCESS })

/-- WINDOW_HINT PIN_CLEAR (R79). -/
def execHintPinClear (c : AdminCmd) (s : State) : Res :=
  .next (s.adminRun 0x17 c fun op s =>
    if c.p0 ≠ 5 then (s, bad stINVALID_FIELD)
    else
      match s.checkHome c.target with
      | some st => (s, bad st)
      | none =>
        let i := c.target / 256
        let s := s.setWindow i { s.window i with pinSet := false, pinFirst := 0, pinCount := 0 }
        (s.mirrorMeta [s.windowRecord i]).afterMirror op { status := stSUCCESS })

/-- A window that CACHE_INVALIDATE covers in the window cache. -/
def State.covered (s : State) (c : AdminCmd) (i : Nat) : Bool :=
  let w := s.window i
  c.p0 = 0 || (c.p0 = 1 && decide (c.p1 ≤ i ∧ i ≤ c.p2)) || (c.p0 = 2 && w.object == c.p1) ||
  (c.p0 = 3 && w.object == c.p1 && decide (w.firstPage ≤ c.p2 ∧ c.p2 < w.firstPage + w.sizePages))

/-- CACHE_INVALIDATE (R70 to R72). A handle range names nothing in the translation cache. -/
def execCacheInvalidate (c : AdminCmd) (s : State) : Res :=
  .next (s.adminRun 0x19 c fun _ s =>
    if 2 < c.target ∨ 3 < c.p0 then (s, bad stINVALID_FIELD)
    else
      let s :=
        if c.target = 1 then s
        else
          let l := (s.win.cache.map (·.idx) ++ (s.win.fills.map (·.idx)).filter fun i => !(s.win.cache.any fun e => e.idx == i)).filter
            fun i => s.covered c i
          s.freeCachedAll 0 l
      (if c.target = 0 then s
       else s.transInvalidate fun o p =>
         c.p0 = 0 || (c.p0 = 2 && o == c.p1) || (c.p0 = 3 && o == c.p1 && p == c.p2), good))

/-! ### The Mover's zero fill (R66) -/

/-- The pages of an object not yet zero-filled. -/
def State.scrubbing (s : State) (id : Nat) : Bool :=
  s.win.map.any fun p => decide (p.2.state = .scrubbing) && p.2.object == id

/-- An object whose pages are all released is gone; its ID is free again. -/
def State.endDestroy (s : State) (id : Nat) : State :=
  let o := s.object id
  if o.destroying ∧ s.scrubbing id = false then
    let s := s.setObject id {}
    let s := { s with win.freeObjects := s.win.freeObjects ++ [id] }
    (s.mirrorMeta [s.objectRecord id]).dropRef o.keySlot
  else s

/-- The region's Mover has zero-filled a SCRUBBING page: it is FREE. -/
def execMoverZeroFillDone (page : Nat) (s : State) : Res :=
  .next (
    let e := s.mapOf page
    if e.state ≠ .scrubbing ∨ isCellar page then s
    else
      let s := (((s.countPage page false).zeroPageBytes page).changeMap page {}).mirrorMeta [.mapState page 0] [page]
      s.endDestroy e.object)

end Sys2Proof.Machine
end

