-- ==== Sys2Proof/Machine/Ahead.lean ====
section
/-!
DEFINITION. Readahead (chapter 10, R261 to R263): staging, stride trackers and hints; and where the bytes of a fabric read come from.
-/

namespace Sys2Proof.Machine

/-! ### Staging (R262) -/

/-- A page is staged. -/
def State.isStaged (s : State) (page : Nat) : Bool := (s.staged (s.regionOf page)).any fun x => x.page == page

/-- A staging read of a page asked for, unless it is staged, being staged, or not stored in flash. -/
def State.stage (s : State) (page op : Nat) : State :=
  if isCellar page = false ∨ (s.mapOf page).state ≠ .mapped ∨ s.isStaged page ∨ (s.cellar.stageFills.any fun f => f.page == page && !f.stale) then s
  else ({ s with cellar.stageFills := s.cellar.stageFills ++ [({ page, stale := false, op } : StageFill)] }).bump (pRA (s.regionOf page)) 0x058

/-- A staged page read: it is the most recently used, and has been used. -/
def State.touchStaged (s : State) (page : Nat) : State :=
  let r := s.regionOf page
  match (s.staged r).find? fun x => x.page == page with
  | some x => s.setStaged r ({ x with used := true } :: (s.staged r).filter fun y => y.page ≠ page)
  | none => s

/-- The least recently used slot that no hint holds given up where the area is full: counted where it was never read. -/
def State.makeRoom (s : State) (r : Nat) : State :=
  if (s.staged r).length < 1048576 then s
  else
    match (s.staged r).reverse.find? fun x => decide (x.holdUntil ≤ s.now) with
    | none => s
    | some x =>
      let s := s.setStaged r ((s.staged r).filter fun y => y.page ≠ x.page)
      if x.used then s else s.bump (pRA r) 0x05C

/-- A page of a hint settled; the hint completes with its last page (R263). -/
def State.settleHint (s : State) (page : Nat) (ok : Bool) : State :=
  let l := s.cellar.hints.map fun (h : HintRun) =>
    if page ∈ h.left then { h with left := h.left.filter (· ≠ page), staged := h.staged + b2n ok } else h
  let ended := l.filter fun h => decide (h.left = [])
  let s := { s with cellar.hints := l.filter fun h => decide (h.left ≠ []) }
  ended.foldl (fun s h => s.complete h.op { status := stSUCCESS, r0 := h.staged }) s

/-- A staging read ends. A read that fails step 1 is dropped; the reads parked on the page go on with the ladder, or are served. -/
def execStagingReadDone (page : Nat) (ok : Bool) (s : State) : Res :=
  .next (match s.cellar.stageFills.find? fun f => f.page == page with
    | none => s
    | some f =>
      let r := s.regionOf page
      let loc := (s.mapOf page).loc
      let s := { s with cellar.stageFills := s.cellar.stageFills.filter fun x => x.page ≠ page }
      if f.stale ∨ (s.mapOf page).state ≠ .mapped then s.settleHint page false
      else
        let s := s.bump (locPageIndex loc) 0x04C
        let m := s.cellar.misses.find? fun m => m.loc == loc && m.step == 1
        if ok then
          let s := s.makeRoom r
          let hold := if (s.cellar.hints.any fun h => decide (page ∈ h.left)) then s.now + s.fld (pRA r) 0x044 15 0 * 1000000 else 0
          let room := decide ((s.staged r).length < 1048576)
          let s := if room then s.setStaged r ({ page, holdUntil := hold, used := m.isSome } :: s.staged r) else s
          let s := match m, KM.get s.cellar.flash loc with
            | some m, some x => if s.opens x then s.stepOk m x else s.stepFails m
            | _, _ => s
          s.settleHint page room
        else
          let s := match m with | some m => s.stepFails m | none => s
          s.settleHint page false)

/-- WINDOW_HINT READAHEAD (R263). Pages in the Loft are skipped; a page already staged counts as staged; a page the flash does not hold has failed. -/
def execHintReadahead (c : AdminCmd) (s : State) : Res :=
  .next (s.adminRun 0x17 c fun op s =>
    if c.p0 ≠ 6 then (s, bad stINVALID_FIELD)
    else
      match s.checkHandle c.target with
      | some st => (s, bad st)
      | none =>
        let w := s.window (c.target / 256)
        if c.p2 = 0 ∨ 4096 < c.p2 ∨ w.sizePages < c.p1 + c.p2 then (s, bad stINVALID_FIELD)
        else
          let o := s.object w.object
          let pages := ((List.range' (w.firstPage + c.p1) c.p2).filterMap fun i => s.objectPage o i).filter isCellar
          let here := (pages.filter fun p => s.isStaged p).length
          let ask := pages.filter fun p => decide ((s.mapOf p).state = .mapped) && !s.isStaged p
          let s := ask.foldl (fun s p => s.stage p op) s
          if ask = [] then (s, good here)
          else ({ s with cellar.hints := s.cellar.hints ++ [{ op, left := ask, staged := here }] }, none))

/-! ### Stride trackers (R261) -/

/-- Trackers of a region. -/
def State.strides (s : State) (r : Nat) : List Stride := KM.getD [] s.cellar.strides r

/-- Trackers of a region set, with STREAMING and ALLOCATED. -/
def State.setStrides (s : State) (r : Nat) (l : List Stride) : State :=
  let streaming := (l.filter fun t => t.streaming).length
  ({ s with cellar.strides := KM.putD [] s.cellar.strides r l }).setNum (pRA r) 0x048 (streaming * 65536 + l.length)

/-- Window pages ahead of a read staged. -/
def State.stageAhead (s : State) (w : Window) (p : Nat) (diff : Int) : Nat → Nat → State
  | 0, _ => s
  | n + 1, k =>
    let q := (p : Int) + diff * k
    let s :=
      if 0 ≤ q ∧ q.toNat < w.sizePages then
        (match s.objectPage (s.object w.object) (w.firstPage + q.toNat) with
         | some page => s.stage page 0
         | none => s)
      else s
    s.stageAhead w p diff n (k + 1)

/-- A tracker that has seen one more Cellar read of its queue pair. -/
def watch (maxStride initDepth depthMax handle p : Nat) (t : Stride) : Stride :=
  let d : Int := (p : Int) - t.last
  let restart : Stride := { t with handle, last := p, diff := 0, streaming := false, depth := 0 }
  if t.handle ≠ handle then restart
  else if t.streaming then
    if d = t.diff then { t with last := p, depth := min depthMax (2 * t.depth) }
    else if (List.range (t.depth + 1)).any fun k => decide (d = t.diff * k) then { t with last := p }
    else restart
  else if d = t.diff ∧ d ≠ 0 ∧ d.natAbs ≤ maxStride then { t with last := p, streaming := true, depth := min depthMax initDepth }
  else { t with last := p, diff := d }

/-- A Cellar read of a queue pair at a window page noted by its tracker in the region; the pages it predicts are staged. RA_EN 0 stops trackers. -/
def State.noteStride (s : State) (r qpn handle p : Nat) (staged : Bool) : State :=
  if bit (s.reg (pRA r) 0x040) 31 = false then s
  else
    let l := s.strides r
    match l.find? fun t => t.qpn == qpn with
    | none =>
      if staged then s
      else
        let s := if 256 ≤ l.length then s.bump (pRA r) 0x060 else s
        s.setStrides r ({ qpn, handle, last := p } :: l.take 255)
    | some t =>
      let t := watch (s.fld (pRA r) 0x040 23 16) (s.fld (pRA r) 0x040 13 8) (s.fld (pRA r) 0x040 5 0) handle p t
      let s := s.setStrides r (t :: l.filter fun x => x.qpn ≠ qpn)
      if t.streaming then s.stageAhead (s.window (handle / 256)) p t.diff t.depth 1 else s

/-! ### Where the bytes of a read come from (R24, R25, R135, R179, R216, R238, R255) -/

/-- The page that backs a piece of a read. -/
def State.pieceBacking (s : State) (j : ReadJob) (p : Nat × Nat) : Option Nat :=
  s.objectPage (s.object j.object) (j.firstPage + (j.offset + p.1) / 16384)

/-- Bytes and poison map of a range of the Loft. -/
def State.loftRange (s : State) (dpa n : Nat) : List Byte × Nat := (s.readClean dpa n, s.poisonMap dpa n)

/-- The bytes of a piece supplied, with those that lie in the region write buffer taken from there (R238). -/
def State.overBuffer (s : State) (dpa : Nat) (bs : List Byte) (map : Nat) : List Byte × Nat :=
  let buf := (s.region (s.regionOf (pageOf dpa))).buffer
  let mix := (List.range bs.length).map fun i => match KM.get buf (dpa + i) with | some b => b | none => bs.getD i 0
  let lines := (dpa + bs.length + 63) / 64 - dpa / 64
  let keep := (List.range lines).filter fun i => if s.lineBuffered (dpa / 64 + i) then s.poisoned (dpa / 64 + i) else map.testBit i
  (mix, keep.foldl (fun a i => a + 2 ^ i) 0)

/-- The bytes of a piece that are at hand: none where they must come from flash, from the twin, or from a fill still under way. Lines of a region that has FAILED read as
poisoned. -/
def State.pieceData (s : State) (j : ReadJob) (p : Nat × Nat) : Option (List Byte × Nat) :=
  let off := (j.offset + p.1) % 16384
  let given := (j.got.find? fun g => g.1 == p.1).map (·.2)
  match s.pieceBacking j p with
  | none => some (contentRange none off p.2)
  | some page =>
    let r := s.regionOf page
    if isCellar page then
      let e := s.mapOf page
      match e.state with
      | .gather =>
        (match KM.get (s.dirty (s.regionOf e.loc)).gather e.loc with
         | some x => if (linesOf off p.2).all fun i => decide (i ∈ x.present) then some (s.loftRange (e.loc * 16384 + off) p.2) else none
         | none => some (contentRange none off p.2))
      | .mapped =>
        (match given with
         | some g => some g
         | none =>
           if s.isStaged page then
             (match KM.get s.cellar.flash e.loc with
              | some f => if s.opens f then some (contentRange (some f) off p.2) else none
              | none => none)
           else none)
      | .empty => some (List.replicate p.2 0, 0)
      | _ => some (contentRange none off p.2)
    else if s.pg (pRG r) = .failed then some (contentRange none off p.2)
    else
      let dpa := page * 16384 + off
      let whole := (linesOf off p.2).all fun i => s.lineBuffered (page * 256 + i)
      match s.regionMode r with
      | .normal => if s.recoveringIn dpa p.2 then none else if (KM.get s.loft.away page).isSome then given else some (s.loftRange dpa p.2)
      | _ =>
        if whole then some (s.loftRange dpa p.2)
        else given.map fun g => s.overBuffer dpa g.1 g.2

/-- A read job changed. -/
def State.setJob (s : State) (j : ReadJob) : State :=
  { s with fab.reads := s.fab.reads.map fun (x : ReadJob) => if x.arrival = j.arrival then j else x }

/-- What a piece needs asked for: a flash read, or the twin's copy. Where no twin port is in service the read fails at once, the twin is not healthy, and the region
leaves its BYPASS (R238, R495). -/
def State.askPiece (s : State) (j : ReadJob) (p : Nat × Nat) : State :=
  if (s.pieceData j p).isSome then s
  else
    match s.pieceBacking j p with
    | none => s
    | some page =>
      let who := Parked.job j.qpn j.msn j.resend
      let e := s.mapOf page
      let tenant := (KM.getD {} s.fab.qps j.qpn).tenant
      if isCellar page then (if e.state = MapState.mapped then s.park e.loc page tenant who else s)
      else if s.regionMode (s.regionOf page) = .normal then
        (if e.state = MapState.mapped then s.park e.loc page tenant (.load page) else s)
      else if p.1 ∈ j.asked then s
      else
        let s := s.setJob { j with asked := p.1 :: j.asked }
        match s.askTwin (page * 16384 + (j.offset + p.1) % 16384) p.2 1 (.job j.qpn j.msn j.resend) with
        | (true, s) => s
        | (false, s) => ({ s with twin.readFailed := true }).twinLost

/-- The pieces of a read asked for, in order. -/
def State.askPieces (s : State) (arrival : Nat) : List (Nat × Nat) → State
  | [] => s
  | p :: l =>
    match s.fab.reads.find? fun j => j.arrival == arrival with
    | some j => (s.askPiece j p).askPieces arrival l
    | none => s

/-- The window pages of a read in the Cellar noted: hits and misses of staging, and the trackers. -/
def State.noteCellarReads (s : State) (j : ReadJob) : List Nat → State
  | [] => s
  | w :: l =>
    let s : State := match s.objectPage (s.object j.object) (j.firstPage + w) with
      | none => s
      | some page =>
        if isCellar page then
          let r := s.regionOf page
          let staged := s.isStaged page
          let s : State := if staged then (s.touchStaged page).bump (pRA r) 0x050
            else if (s.mapOf page).state = .mapped then s.bump (pRA r) 0x054 else s
          s.noteStride r j.qpn j.handle w staged
        else s
    s.noteCellarReads j l

/-- An admitted read starts what it needs: readahead, flash reads, the twin's copies. -/
def State.startRead (s : State) (j : ReadJob) : State :=
  let pages := j.left.foldl (fun l p => insertSorted ((j.offset + p.1) / 16384) l) []
  (s.noteCellarReads j pages).askPieces j.arrival j.left

end Sys2Proof.Machine
end

