-- ==== Sys2Proof/Machine/Harvest.lean ====
section
/-!
DEFINITION. The Harvester (chapter 07, R174 to R191): its plan, the pages it takes, the wear bucket, gather fills, and the tenant dirty probe.
-/

namespace Sys2Proof.Machine

/-! ### The wear bucket (R188, R189) -/

/-- Parts of a byte in the wear bucket: ns in a day, so that the bucket fills by the daily budget in bytes each ns. -/
def wearUnit : Nat := 86400000000000

/-- The daily wear budget of a region, in bytes. -/
def State.wearDay (s : State) (r : Nat) : Nat := s.num (pRG r) 0x060 * 2 ^ 30

/-- The bucket filled up to now, at most to one day's budget. -/
def State.fillBucket (s : State) (r : Nat) (d : Dirty) : Dirty :=
  { d with credit := min ((s.wearDay r * wearUnit : Nat) : Int) (d.credit + ((s.wearDay r * (s.now - d.creditAt) : Nat) : Int)), creditAt := s.now }

/-- HV_WEAR_CREDIT shown, in MiB. -/
def State.showWearCredit (s : State) (r : Nat) : State :=
  s.setReg (pRG r) 0x064 (BitVec.ofInt 32 ((s.dirty r).credit / ((wearUnit * 2 ^ 20 : Nat) : Int)))

/-- The floor of the bucket: 0, or less by the borrow limit while the region is over its budget or restores (R213). -/
def State.wearFloor (s : State) (r : Nat) (d : Dirty) : Int :=
  if s.budgetR < dirtyPages d * 16384 ∨ s.restoring r then -((s.num (pRG r) 0x068 * s.wearDay r * wearUnit / 100 : Nat) : Int) else 0

/-! ### The plan (R174) -/

/-- MODE of a region by its fill: 0 IDLE, 1 STEADY, 2 AGGRESSIVE. A region without dirty pages is idle. -/
def State.harvestMode (s : State) (d : Dirty) : Nat :=
  let n := dirtyPages d * 16384
  if n = 0 ∨ n * 100 < 60 * s.budgetR then 0 else if n * 100 < 85 * s.budgetR then 1 else 2

/-- The mode a region plans in: AGGRESSIVE while it restores (R213). -/
def State.planMode (s : State) (r : Nat) (d : Dirty) : Nat := if s.restoring r then 2 else s.harvestMode d

/-- hmax, in B/s. -/
def State.hmax (s : State) (r : Nat) : Nat := s.num (pRG r) 0x058 * 1000000

/-- rate_now of the next period, in B/s, under the cap of a running-power step (R202). Quotients are rounded down (DEDUCED, log 13). -/
def State.planRate (s : State) (r : Nat) (d : Dirty) : Nat :=
  let n := dirtyPages d * 16384
  let want :=
    match s.planMode r d with
    | 0 => 0
    | 1 => min (s.fld (pRG r) 0x040 15 8 * s.hmax r / 100) ((n * 100 - 60 * s.budgetR) / (100 * s.fld (pRG r) 0x040 7 0) + d.newBytes * 100)
    | _ => s.hmax r
  let want := max want (s.fld (pRG r) 0x040 23 16 * 64000000)
  let want :=
    if d.credit ≤ s.wearFloor r d then
      (if d.credit < 0 ∧ n ≤ s.budgetR then min want (s.wearDay r / 172800) else min want (s.wearDay r / 86400))
    else want
  min want (if 3 ≤ s.fld pLG 0x094 2 0 then max (s.hmax r / 2) (s.wearDay r / 86400) else s.hmax r)

/-! ### The pages it takes (R175 to R177, R180, R181, R226, R271) -/

/-- The age class of a page. -/
def ageClass (age : Nat) : Nat := if age < 2 then 0 else min 31 (Nat.log2 age)

/-- A page put into the order of harvest: the highest class first, then ascending page number. -/
def insertAge (page k : Nat) : List (Nat × Nat) → List (Nat × Nat)
  | [] => [(page, k)]
  | (q, j) :: l => if j < k ∨ (j = k ∧ page < q) then (page, k) :: (q, j) :: l else (q, j) :: insertAge page k l

/-- The page number under which a dirty page is stored and named to the twin: the Cellar page a gather page holds, else the page. -/
def State.storedAs (s : State) (page : Nat) : Nat :=
  match KM.get (s.dirty (s.regionOf page)).gather page with
  | some g => g.cellar
  | none => page

/-- The Harvester may take a page: no harvest of it runs, its migration lock is free, a gather page is filled, a mirror has its HARVESTED record, and below 1 % of relocation
reserve it already has a shadow or a flash location. -/
def State.mayHarvest (s : State) (page : Nat) : Bool :=
  let d := s.dirty (s.regionOf page)
  let q := s.storedAs page
  let e := s.mapOf q
  let filled := match KM.get d.gather page with | some g => decide (g.present.length = 256) | none => true
  let stored := match KM.get d.gather page with | some g => g.source.isSome | none => decide (e.state = .mapped)
  !(d.harvests.any fun h => h.page == page) && (KM.get s.win.locks (lockKey e.object e.index)).isNone && filled &&
    (e.object = 0 || s.objectHome e.object || (KM.get s.twin.harvested q).isSome) &&
    (stored || decide (10 ≤ s.num (pRG (s.regionOf page)) 0x0C8))

/-- The dirty pages of a region that the Harvester may take, in its order. -/
def State.harvestOrder (s : State) (r : Nat) : List Nat :=
  let d := s.dirty r
  let l := (d.pages.map fun p => (p.1, p.2.period)) ++ d.gather.map fun p => (p.1, p.2.period)
  ((l.filter fun p => s.mayHarvest p.1).foldl (fun a p => insertAge p.1 (ageClass (s.period - p.2)) a) []).map (·.1)

/-- The bytes of a Loft page, by offset in the page. -/
def State.snapshot (s : State) (page : Nat) : KMap Byte := (KM.keep (fun a _ => a / 16384 = page) s.loft.bytes).map fun p => (p.1 - page * 16384, p.2)

/-- The poisoned lines of a Loft page. -/
def State.poisonedLines (s : State) (page : Nat) : List Nat := (s.loft.poison.filter fun p => p.1 / 256 == page).map fun p => p.1 % 256

/-- A frame later than the snapshot a HARVESTED record names has written a page (R226). -/
def State.writtenLater (s : State) (page : Nat) : Bool :=
  match KM.get s.twin.harvested page, KM.get s.twin.written page with
  | some m, some w => decide (m ≤ w)
  | _, _ => false

/-- A harvest begun: the page is snapshotted; on a mirror it is REDIRTY at once where a later frame has written it. -/
def State.startHarvest (s : State) (page : Nat) : State :=
  let r := s.regionOf page
  let d := s.dirty r
  let late := s.writtenLater (s.storedAs page)
  let h : Harvest := { page, data := s.snapshot page, poison := s.poisonedLines page, mseq := s.mseqTx }
  s.setDirty r { d with harvests := d.harvests ++ [h],
                        pages := KM.upd d.pages page fun x => { x with redirty := late },
                        gather := KM.upd d.gather page fun x => { x with redirty := late } }

/-- Harvests begun, in order. -/
def State.startHarvests (s : State) : List Nat → State
  | [] => s
  | p :: l => (s.startHarvest p).startHarvests l

/-- The Harvester of a region runs: enabled, its region in service or restoring (R213), no flush (R177). -/
def State.harvestRuns (s : State) (r : Nat) : Bool :=
  bit (s.reg (pRG r) 0x040) 31 && (decide (s.regionMode r = .normal) && decide (s.phase < 2) || s.restoring r)

/-- Pages the bucket lets the Harvester take before it reaches a level, those whose program has not ended counted. -/
def bucketRoom (d : Dirty) (level : Int) : Nat :=
  ((d.credit - level) / ((16384 * wearUnit : Nat) : Int)).toNat - (d.harvests.filter fun h => h.programmed.isNone).length

/-- How many of the pages rate_now moves in a period the bucket allows (R188, R189; DEDUCED, log 13): a bucket above its floor is never taken below it, and pages are
borrowed for only while the region is over its budget or restores; at or below the floor the rate alone is the limit. -/
def State.bucketPages (s : State) (r : Nat) (d : Dirty) (n : Nat) : Nat :=
  let floor := s.wearFloor r d
  if d.credit ≤ floor then n
  else if s.restoring r then min n (bucketRoom d floor)
  else min n (max (bucketRoom d 0) (min (bucketRoom d floor) (dirtyPages d - s.budgetR / 16384 - d.harvests.length)))

/-- The harvest plan of a region, every 10 ms (R174); one abandoned leaves rate_now in force (R178). The pages of the period are snapshotted at its plan, as many
as rate_now moves in 10 ms (DESIGN CHOICE, log 13). -/
def execHarvestPlan (region : Nat) (done : Bool) (s : State) : Res :=
  .next (if s.regions ≤ region then s
    else
      let p := pRG region
      if done = false then (s.bump p 0x07C).fireLimited p 4
      else
        let d := s.fillBucket region (s.dirty region)
        let rate := s.planRate region d
        let limited := decide (d.credit ≤ s.wearFloor region d)
        let d : Dirty := { d with rate, newBytes := 0, holdList := if d.hold then s.buildHold region d else d.holdList }
        let s := ((s.setNum p 0x05C (rate / 1000000)).setFld p 0x054 17 16 (s.planMode region d)).setFld p 0x054 20 20 (b2n limited)
        let s := (s.setDirty region d).showWearCredit region
        let s := if limited then s.fireLimited p 2 (3600 * second) else s
        let s :=
          if s.harvestRuns region then
            let order := s.harvestOrder region
            let c := d.carry + rate
            let n := c / 1638400
            let left := if order.length < n then 0 else c % 1638400
            (s.setDirty region { s.dirty region with carry := left }).startHarvests (order.take (s.bucketPages region d n))
          else s
        s.wakeBar2)

/-! ### The end of a program (R176, R181, R188) -/

/-- A harvest given up: its page stays dirty. -/
def State.dropHarvest (s : State) (page : Nat) : State :=
  let r := s.regionOf page
  let d := s.dirty r
  s.setDirty r { d with harvests := d.harvests.filter fun h => h.page ≠ page }

/-- A 64-bit count in two registers raised by one. -/
def State.bump64 (s : State) (page lo hi : Nat) : State := s.set64 page lo hi ((s.reg64 page lo hi + 1) % 2 ^ 64)

/-- KIND of a dirty page's stored copy: 1 Loft shadow, 2 Cellar page, 3 reserve shadow. -/
def State.kindOf (s : State) (page : Nat) : Nat :=
  if (KM.get (s.dirty (s.regionOf page)).gather page).isSome then 2 else if s.reserveBase ≤ page * 16384 then 3 else 1

/-- The key of the band a page of a kind is programmed into. -/
def State.bandFor (s : State) (r kind : Nat) : Option Nat × State :=
  if kind = 3 then (some 65, s.reserveHead r) else s.takeBand 64 r

/-- A harvest program ends. On success the page lies in its sheaf, charged to the wear bucket; the harvest is complete once the sheaf is sealed (R251). A failure, a seal
refused or a region without an erased band leaves the page dirty. -/
def execHarvestProgramDone (page : Nat) (ok : Bool) (s : State) : Res :=
  .next (
    let r := s.regionOf page
    match (s.dirty r).harvests.find? fun h => h.page == page && h.programmed.isNone with
    | none => s
    | some h =>
      if ok = false then s.dropHarvest page
      else
        let kind := s.kindOf page
        match s.sealPage kind (s.storedAs page) h.data h.poison with
        | (none, s) => s.dropHarvest page
        | (some f, s) =>
          match s.bandFor r kind with
          | (none, s) => s.dropHarvest page
          | (some k, s) =>
            match s.programIn r k f.page f with
            | none => s.dropHarvest page
            | some (loc, s) =>
              let d := s.fillBucket r (s.dirty r)
              let d : Dirty := { d with credit := d.credit - ((16384 * wearUnit : Nat) : Int),
                                        harvests := d.harvests.map fun x => if x.page = page then { x with programmed := some loc } else x }
              ((((s.setDirty r d).showWearCredit r).bump64 (pRG r) 0x06C 0x070).sealFull r k).wakeBar2)

/-- A sheaf has received no page for SHEAF_WAIT: it is padded and sealed (R251). Keys 0 to 63 are the pairs of LUN and plane, 64 the relocation band, 65 the reserve log. -/
def execSheafWaitExpire (region key : Nat) (s : State) : Res :=
  .next (if 4 ≤ region ∨ 66 ≤ key then s
    else
      match KM.get s.cellar.open_ (66 * region + key) with
      | some b => if b.used = [] then s else (s.sealSheaf region key).wakeBar2
      | none => s)

/-! ### Gather fills (R179, R180, R264) -/

/-- The Mover has filled a gather page, or its flash page is beyond recovery. -/
def execGatherFillDone (page : Nat) (ok : Bool) (s : State) : Res :=
  .next (match KM.get (s.dirty (s.regionOf page)).gather page with
    | none => s
    | some g =>
      match g.source with
      | none => s
      | some loc =>
        if g.present.length = 256 then s
        else
          match KM.get s.cellar.flash loc with
          | some f =>
            if ok ∧ s.opens f then s.fillGather page (some f)
            else
              match s.cellar.misses.find? fun m => m.loc == loc with
              | some m => s.poisonPage m
              | none => s.poisonPage { loc, page := g.cellar, step := 6, tenant := g.tenant, parked := [.fill page] }
          | none => s)

/-! ### Saving the bucket, and the probe (R188, R191) -/

/-- Wear buckets saved in the Attic, in order of region. -/
def State.saveWear (s : State) : List Nat → State
  | [] => s
  | r :: l =>
    let d := s.fillBucket r (s.dirty r)
    let s := (s.setDirty r d).showWearCredit r
    ({ s with dur.wearSaved := KM.put s.dur.wearSaved r (d.credit, s.rtcSeconds) }).saveWear l

/-- Each hour the levels are saved. -/
def execWearBucketSave (s : State) : Res := .next (s.saveWear (List.range s.regions))

/-- Buckets resumed after a power-on reset from the saved levels, credited for the time the RTC says has passed. -/
def State.resumeWear (s : State) : List Nat → State
  | [] => s
  | r :: l =>
    let s := match KM.get s.dur.wearSaved r with
      | some (c, t) =>
        let gain : Int := ((s.wearDay r * (s.rtcSeconds - t) * 1000000000 : Nat) : Int)
        let d : Dirty := { s.dirty r with credit := min ((s.wearDay r * wearUnit : Nat) : Int) (c + gain), creditAt := s.now }
        (s.setDirty r d).showWearCredit r
      | none => s
    s.resumeWear l

/-- A write of PROBE_TENANT: ignored while a result is published. -/
def execTenantDirtyProbe (req : Requester) (data : Word) (s : State) : Res :=
  .next (s.guarded req pTC fun s =>
    if s.resultValid pTC 0x194 then s
    else
      let t := bits data 11 0
      let held := (List.range 4).foldl (fun a r => if t ∈ (s.dirty r).holdList then a + 2 ^ r else a) 0
      s.publish pTC 0x194 ((List.range 4).map (fun r => tenantPages (s.dirty r) t) ++ [held]) 1)

end Sys2Proof.Machine
end

