-- ==== Sys2Proof/Machine/Dram.lean ====
section
/-!
DEFINITION. The Loft's DRAM channels (chapter 11): refresh, row activation and throttles, banks, DIMM sensors, training sequences, speeds and repairs.
-/

namespace Sys2Proof.Machine

/-! ### Ranks and banks -/

/-- A rank. -/
def State.rank (s : State) (c k : Nat) : Rank := KM.getD {} s.dram.ranks (4 * c + k)

/-- A rank changed. -/
def State.setRank (s : State) (c k : Nat) (v : Rank) : State := { s with dram.ranks := KM.putD {} s.dram.ranks (4 * c + k) v }

/-- A bank. -/
def State.bank (s : State) (k : Nat) : Bank := KM.getD {} s.dram.banks k

/-- A bank changed. -/
def State.setBank (s : State) (k : Nat) (v : Bank) : State := { s with dram.banks := KM.putD {} s.dram.banks k v }

/-- The trackers of every bank of a rank cleared, once its rows have all been refreshed (R281). -/
def State.clearRank (s : State) (c k : Nat) : State :=
  let f := fun (i : Nat) (b : Bank) => if i / 256 = c ∧ i / 32 % 4 = k then { b with entries := [] } else b
  let m : KMap Bank := KM.keep (fun _ b => decide (b ≠ ({} : Bank))) (KM.mapV f s.dram.banks)
  { s with dram.banks := m }

/-- A channel of this part. -/
def State.hasChannel (s : State) (c : Nat) : Bool := decide (c / 6 < s.regions)

/-- A channel's bookkeeping. -/
def State.channelInfo (s : State) (c : Nat) : ChannelInfo := KM.getD {} s.dram.channels c

/-- That bookkeeping changed. -/
def State.setChannelInfo (s : State) (c : Nat) (v : ChannelInfo) : State := { s with dram.channels := KM.putD {} s.dram.channels c v }

/-! ### Refresh (R278 to R280, R291) -/

/-- The rank is under a hard-repair step, which takes no refresh. -/
def State.underRepair (s : State) (c k : Nat) : Bool :=
  match KM.get s.dram.trains (c / 6) with
  | some t => decide (t.phase = .repairStep ∧ t.repair.1 = c ∧ t.repair.2.1 = k)
  | none => false

/-- Intervals of a rank refreshed, n of them, forced or not: the debt falls, refresh wakes the rank, and after 8,192 intervals its trackers are clear. -/
def State.refresh (s : State) (c k n : Nat) (forced : Bool) : State :=
  let v := s.rank c k
  let i := v.intervals + n
  let s := s.setRank c k { debt := v.debt - n, intervals := i % 8192, powerDown := false }
  let s := if 8192 ≤ i then s.clearRank c k else s
  let s := s.bump (pDC c) 0x060 n
  if forced then s.bump (pDC c) 0x064 n else s

/-- A refresh interval elapses for a rank. Postponed while demand waits; at a debt of 8 forced until it is 4; with no demand issued ahead to −8. -/
def execRefreshInterval (channel rank : Nat) (demand : Bool) (s : State) : Res :=
  .next (if s.hasChannel channel = false ∨ 4 ≤ rank ∨ bit (s.reg (pDC channel) 0x048) 0 then s
    else
      let d := (s.rank channel rank).debt + 1
      let s := s.setRank channel rank { s.rank channel rank with debt := d }
      let s := if 0 < d ∧ s.fld (pDC channel) 0x048 19 16 < d.toNat then s.setFld (pDC channel) 0x048 19 16 d.toNat else s
      if s.underRepair channel rank then s
      else if 8 ≤ d then (s.refresh channel rank (d - 4).toNat true).fireLimited (pDC channel) 4
      else if demand then s
      else s.refresh channel rank (d + 8).toNat false)

/-- Ranks of a channel refreshed until the debt of each is at most a value. -/
def State.refreshTo (s : State) (c : Nat) (d : Int) (forced : Bool) : List Nat → State
  | [] => s
  | k :: l =>
    let v := (s.rank c k).debt
    (if d < v then s.refresh c k (v - d).toNat forced else s).refreshTo c d forced l

/-- Channels refreshed until every debt is 0 or less. -/
def State.quiesce (s : State) : List Nat → State
  | [] => s
  | c :: l => (s.refreshTo c 0 false [0, 1, 2, 3]).quiesce l

/-- A rank idle for PD_IDLE enters precharge power-down (R294). -/
def execRankPdIdle (channel rank : Nat) (s : State) : Res :=
  .next (if s.hasChannel channel = false ∨ 4 ≤ rank ∨ s.fld (pDC channel) 0x040 15 8 = 0 then s
    else s.setRank channel rank { s.rank channel rank with powerDown := true })

/-- A bank's idle timer expires: its row is precharged (R277). -/
def execBankIdleTimer (channel sub rank group bank : Nat) (s : State) : Res :=
  .next (
    let k := bankKey channel sub rank group bank
    s.setBank k { s.bank k with row := none })

/-! ### Row activation (R281 to R283) -/

/-- The lowest count of a tracker. -/
def lowestCount : List ActEntry → Nat
  | [] => 0
  | [e] => e.count
  | e :: l => min e.count (lowestCount l)

/-- The first entry with a count replaced by another entry. -/
def replaceLowest (n : Nat) (x : ActEntry) : List ActEntry → List ActEntry
  | [] => []
  | e :: l => if e.count = n then x :: l else e :: replaceLowest n x l

/-- The tracker after an activation of a row for a tenant. -/
def activate (row tenant : Nat) (l : List ActEntry) : List ActEntry :=
  if l.any fun e => e.row == row then
    l.map fun e => if e.row = row then { e with count := min (e.count + 1) 0xFFFF, tenant, mixed := e.mixed || e.tenant != tenant } else e
  else if l.length < 32 then l ++ [{ row, count := 1, tenant, mixed := false }]
  else replaceLowest (lowestCount l) { row, count := lowestCount l + 1, tenant, mixed := true } l

/-- Tenants throttled in a region, shown in THROTTLED. -/
def State.showThrottled (s : State) (r : Nat) : State :=
  s.setFld (pRG r) 0x158 11 0 (s.dram.throttles.filter fun p => decide (p.1 / 4096 = r)).length

/-- An overflow caused by a tenant throttles it: the first sets the end, each further one moves it. -/
def State.throttle (s : State) (c tenant : Nat) : State :=
  let r := c / 6
  let t := s.fld (pDC c) 0x044 7 0 * 1000000
  let k := r * 4096 + tenant
  let v : Throttle := match KM.get s.dram.throttles k with
    | some v => { until_ := s.now + min 640000000 (t * 2 ^ (v.k + 1)), k := v.k + 1 }
    | none => { until_ := s.now + t, k := 0 }
  ({ s with dram.throttles := KM.put s.dram.throttles k v }).showThrottled r

/-- A row activation updates the bank's tracker; a count that reaches RH_THRESH issues a DRFM, raises and publishes the overflow, and throttles the tenant. -/
def execRowActivation (channel sub rank group bank row tenant : Nat) (s : State) : Res :=
  .next (if s.hasChannel channel = false ∨ 2 ≤ sub ∨ 4 ≤ rank ∨ 8 ≤ group ∨ 4 ≤ bank then s
    else
      let p := pDC channel
      let k := bankKey channel sub rank group bank
      let l := activate row tenant (s.bank k).entries
      let s := (s.setBank k { row := some row, entries := l }).bump p 0x054
      let s := s.setRank channel rank { s.rank channel rank with powerDown := false }
      let s := if (KM.get s.dram.throttles (channel / 6 * 4096 + tenant)).isSome then s.bump p 0x06C else s
      match l.find? fun e => e.row == row with
      | none => s
      | some e =>
        if e.count < s.fld p 0x044 31 16 then s
        else
          let s := s.setBank k { row := some row, entries := l.map fun x => if x.row = row then { x with count := 0 } else x }
          let s := (s.bump p 0x068).fireLimited p 2 (second / 100)
          let s := s.publish p 0x070 [row, b2n e.mixed * 2 ^ 30 + e.tenant * 2 ^ 16 + sub * 128 + rank * 32 + group * 4 + bank] 64
          if e.mixed ∨ e.tenant = 0 then s else s.throttle channel e.tenant)

/-- A tenant's throttle in a region ends. -/
def execThrottleEnd (region tenant : Nat) (s : State) : Res :=
  .next (({ s with dram.throttles := KM.del s.dram.throttles (region * 4096 + tenant) }).showThrottled region)

/-! ### Channels due (R287) -/

/-- Channels of a region that are due. -/
def State.dueOf (s : State) (r : Nat) : Nat := s.fld (pRG r) 0x148 5 0

/-- DUE of a region set, and TRAIN_STATE of its channels. -/
def State.setDue (s : State) (r v : Nat) : State := (s.setFld (pRG r) 0x148 5 0 v).showTrain r (regionChannels r)

/-- A channel becomes due. -/
def State.makeDue (s : State) (c : Nat) : State := s.setDue (c / 6) (withBit (s.dueOf (c / 6)) (c % 6))

/-- Two's complement of a temperature in 8 bits. -/
def tempByte (t : Int) : Nat := (BitVec.ofInt 8 t).toNat

/-- The hottest DIMM sensor shown, once the last channel has been read: series 7 of R448. -/
def State.dimmSample (s : State) : State :=
  let ts := (List.range (6 * s.regions)).map fun c => (BitVec.ofNat 8 (s.fld (pDC c) 0x048 31 24)).toInt
  s.sample 7 (ts.foldl max (-128))

/-- The DIMM sensor is read, every 16 ms: a failed read counts as above 85 °C; the channel is due once the temperature has moved by more than RETRAIN_DT since
its last committed training. -/
def execDimmTempPoll (channel : Nat) (ok : Bool) (temp : Int) (s : State) : Res :=
  .next (if s.hasChannel channel = false then s
    else
      let p := pDC channel
      let i := s.channelInfo channel
      let s := s.setChannelInfo channel { i with unreadable := !ok }
      let s := s.setFld p 0x048 1 1 (b2n (!ok || decide (85 < temp)))
      let s := if ok then s.setFld p 0x048 31 24 (tempByte temp) else s
      let s := if channel + 1 = 6 * s.regions then s.dimmSample else s
      if ok then
        let s := if 85 < temp then s.fire p 3 else s
        if s.fld (pRG (channel / 6)) 0x140 23 16 < (temp - i.trainedAt).natAbs then s.makeDue channel else s
      else s)

/-- The DIMM sensor cannot be read for 100 ms. -/
def execSpdFault (channel : Nat) (s : State) : Res :=
  .next (if s.hasChannel channel ∧ (s.channelInfo channel).unreadable then s.fire (pDC channel) 5 else s)

/-- RETRAIN_PERIOD has passed since the channel's last committed training; 0 is never. -/
def execRetrainPeriodExpire (channel : Nat) (s : State) : Res :=
  .next (if s.hasChannel channel = false ∨ s.fld (pRG (channel / 6)) 0x140 15 0 = 0 then s else s.makeDue channel)

/-- A write of LOFT_CTRL with RETRAIN_REQ: its other fields, and every channel of the region is due; the request is queued at once, so the bit reads 0. -/
def execRetrainReqWrite (req : Requester) (region : Nat) (data : Word) (s : State) : Res :=
  .next (if 4 ≤ region then s else s.guarded req (pRG region) fun s =>
    let s := s.writeFields (pRG region) 0x140 data
    if bit data 31 then s.setDue region 0x3F else s)

/-! ### Sequences (R286, R288 to R293) -/

/-- Steps of each phase (table "In-service training sequence"). -/
def phaseSteps : TrainPhase → Nat
  | .quiesce => 1
  | .zq => 1
  | .csCa => 8
  | .read => 10
  | .writeLevel => 6
  | .writeCentre => 12
  | .dfe => 4
  | .repairStep => 1
  | .switch => 4
  | .verify => 8

/-- The phase after one, by the kind of sequence. -/
def nextPhase (k : TrainKind) : TrainPhase → TrainPhase
  | .quiesce => if k = .speed then .switch else .zq
  | .zq => .csCa
  | .csCa => if k = .repair then .repairStep else .read
  | .read => .writeLevel
  | .writeLevel => .writeCentre
  | .writeCentre => .dfe
  | .dfe => .verify
  | .repairStep => .verify
  | .switch => .verify
  | .verify => .verify

/-- The speed in force that a region's inputs ask for: the lower of SPEED_REQ and the limit (R292); a higher code is a lower speed. -/
def State.speedTarget (s : State) (r : Nat) : Nat := max (s.fld (pRG r) 0x140 25 24) (s.fld (pRG r) 0x148 23 22)

/-- Speed in force. -/
def State.speedOf (s : State) (r : Nat) : Nat := s.fld (pRG r) 0x148 25 24

/-- A region is in a BYPASS of the device's own, or runs a stalled sequence (R286). -/
def State.ownSequence (s : State) (r : Nat) : Bool := (KM.get s.dram.trains r).isSome

/-- Another region runs a sequence. -/
def State.otherBusy (s : State) (r : Nat) : Bool := [0, 1, 2, 3].any fun q => decide (q ≠ r) && s.ownSequence q

/-- A lower region has channels due and could start, so that it goes first (R287). -/
def State.lowerFirst (s : State) (r : Nat) : Bool :=
  (List.range r).any fun q => decide (s.dueOf q ≠ 0) && s.pg (pRG q) = .service && s.twinHealthy

/-- A region enters BYPASS. -/
def State.enterBypass (s : State) (r : Nat) (k : BypassKind) : State :=
  (s.setRegion r { s.region r with bypass := some k, since := s.now, ending := false, opRuns := decide (k ≠ .runtime) }).setPg (pRG r) .bypass (if k = .runtime then 1 else 9)

/-- The set number a sequence fills for its channels. -/
def State.openWorking (s : State) (n : Nat) : List Nat → State
  | [] => s
  | c :: l => ({ s with dram.working := KM.put s.dram.working c n }).openWorking n l

/-- Channels of a region that a mask names. -/
def maskChannels (r m : Nat) : List Nat := (bitList m 6).map fun j => 6 * r + j

/-- TRAIN_STATE of channels shown as training. -/
def State.showTraining (s : State) : List Nat → State
  | [] => s
  | c :: l => (s.setFld (pDC c) 0x048 9 8 2).showTraining l

/-- A sequence begins in a region: its working sets, its status bits. -/
def State.beginTrain (s : State) (r : Nat) (t : Train) : State :=
  let s := { s with dram.trains := KM.put s.dram.trains r t, dram.nextSet := s.dram.nextSet + 1, dram.deferred := KM.del s.dram.deferred r }
  let s := (s.openWorking s.dram.nextSet (maskChannels r t.channels)).showTraining (maskChannels r t.channels)
  let s := (s.setFld (pRG r) 0x148 18 18 0).setFld (pRG r) 0x148 21 21 (b2n t.stalled)
  s.setFld (pRG r) 0x148 (if t.kind = .speed then 20 else 19) (if t.kind = .speed then 20 else 19) 1

/-- A region starts a sequence: within its runtime BYPASS, in a BYPASS of its own while the twin is healthy, or stalled where FORCE is set; else the request
waits, deferred. -/
def State.startTrain (s : State) (r : Nat) (k : BypassKind) (t : Train) : State :=
  match s.pg (pRG r) with
  | .bypass =>
    if (s.region r).bypass = some .runtime ∧ (s.region r).opRuns = false then
      (s.setRegion r { s.region r with opRuns := true }).beginTrain r t
    else s
  | .service =>
    if s.twinHealthy then ((s.enterBypass r k).bump (pRG r) 0x14C).beginTrain r t
    else if bit (s.reg (pRG r) 0x140) 30 then (s.setRegion r { s.region r with since := s.now }).beginTrain r { t with stalled := true }
    else if (KM.get s.dram.deferred r).isSome then s
    else ({ s with dram.deferred := KM.put s.dram.deferred r s.now }).setFld (pRG r) 0x148 18 18 1
  | _ => s

/-- A hard repair that a due channel of a region waits for: channel, rank, row. -/
def State.dueRepair (s : State) (r : Nat) : Option (Nat × Nat × Nat) :=
  (maskChannels r (s.dueOf r)).findSome? fun c => (match (s.channelInfo c).repairs with | (k, row) :: _ => some (c, k, row) | [] => none)

/-- A region with channels due enters BYPASS for retraining, or for a hard repair. -/
def execRetrainBypassStart (region : Nat) (s : State) : Res :=
  .next (if 4 ≤ region ∨ s.dueOf region = 0 ∨ s.ownSequence region ∨ s.otherBusy region ∨ s.lowerFirst region then s
    else
      match s.dueRepair region with
      | some x =>
        s.startTrain region .repair { kind := .repair, phase := .quiesce, step := 0, channels := withBit 0 (x.1 % 6), speed := s.speedOf region,
                                      stalled := false, repair := x }
      | none =>
        s.startTrain region .retrain { kind := .retrain, phase := .quiesce, step := 0, channels := s.dueOf region, speed := s.speedOf region,
                                       stalled := false })

/-- A retrain request still waits for a healthy twin after 10 min, or another hour. -/
def execRetrainDeferred (region : Nat) (s : State) : Res :=
  .next (if (KM.get s.dram.deferred region).isSome then s.fire (pRG region) 8 else s)

/-- A BYPASS request of the runtime that was held is taken or refused (R289, R22); the request bit reads 0 again. -/
def State.takeRequest (s : State) (r : Nat) : State :=
  if (s.region r).request then
    let s := (s.setRegion r { s.region r with request := false }).setFld (pRG r) 0x008 4 4 0
    if s.pg (pRG r) = .service ∧ s.twinHealthy then s.enterBypass r .runtime else s
  else s

/-- A sequence has ended and its outcome is settled: a stalled one releases the region and FORCE, one within a runtime BYPASS leaves that running unless its end was
asked for, a BYPASS of its own ends. -/
def State.endTrain (s : State) (r : Nat) : State :=
  let stalled := match KM.get s.dram.trains r with | some t => t.stalled | none => false
  let s := (s.dropTrain r).showTrain r (regionChannels r)
  if stalled then (s.setFld (pRG r) 0x140 30 30 0).takeRequest r
  else if s.pg (pRG r) ≠ .bypass then s
  else if (s.region r).bypass = some .runtime ∧ (s.region r).ending = false then s.setRegion r { s.region r with opRuns := false }
  else s.leaveBypass r

/-- The operation of a region failed (R22, R288): the region enters FAILED; its buffer keeps what it holds. -/
def State.failRegion (s : State) (r : Nat) : State :=
  let s := (s.noteBypass r).dropTrain r
  let s := s.setRegion r { s.region r with bypass := none, ending := false, opRuns := false, request := false }
  (s.setFld (pRG r) 0x140 30 30 0).retirePage (pRG r) 9

/-- A step of a sequence ends. A speed change wanted meanwhile ends a retraining there, its channels still due (R290). -/
def execTrainStepDone (region : Nat) (s : State) : Res :=
  .next (match KM.get s.dram.trains region with
    | none => s
    | some t =>
      if t.phase = .repairStep then s
      else if t.kind ≠ .speed ∧ s.speedTarget region ≠ s.speedOf region then (s.bump (pRG region) 0x154).endTrain region
      else if t.step + 1 < phaseSteps t.phase then { s with dram.trains := KM.put s.dram.trains region { t with step := t.step + 1 } }
      else if t.phase = .verify then s
      else
        let s := if t.phase = .quiesce then s.quiesce (regionChannels region) else s
        let p := nextPhase t.kind t.phase
        let s := if p = .repairStep then s.refreshTo t.repair.1 (-8) false [0, 1, 2, 3] else s
        { s with dram.trains := KM.put s.dram.trains region { t with phase := p, step := 0 } })

/-- The hard repair of a region done: the repaired rank is refreshed back to back until its debt is 4 or less, the repair is counted, the record of its soft repair is cleared
(R311), and verify follows (R291). -/
def State.repairDone (s : State) (region : Nat) (t : Train) : State :=
  let (c, k, row) := t.repair
  let s := s.refreshTo c 4 true [k]
  let i := s.channelInfo c
  let s := s.setChannelInfo c { i with repairs := i.repairs.filter fun x => x ≠ (k, row) }
  let s := { s with integ.soft := s.integ.soft.filter fun x => !decide (x.row.channel = c ∧ x.row.rank = k ∧ x.row.row = row) }
  let s := s.setFld (pDC c) 0x118 31 16 (s.fld (pDC c) 0x118 31 16 + 1)
  { s with dram.trains := KM.put s.dram.trains region { t with phase := .verify, step := 0 } }

/-- The working set of a channel committed (R284): the sense margin, the eyes, the time, and the temperature it was trained at; the channel is due no longer. -/
def State.commitChannel (s : State) (c speed : Nat) (eye : Nat × Nat) : State :=
  let p := pDC c
  let s := { s with dram.committed := KM.put s.dram.committed (3 * c + speed) (KM.getD 0 s.dram.working c), dram.working := KM.del s.dram.working c }
  let s := (s.setFld p 0x140 12 8 (s.fld p 0x140 4 0)).setNum p 0x080 (eye.2 % 65536 * 65536 + eye.1 % 65536)
  let s := (s.setNum p 0x084 (s.rtcSeconds % 2 ^ 32)).bump p 0x088
  let i := s.channelInfo c
  let s := s.setChannelInfo c { i with trainedAt := (BitVec.ofNat 8 (s.fld p 0x048 31 24)).toInt, errors := [] }
  if i.repairs = [] then s.setDue (c / 6) (s.dueOf (c / 6) - (if (s.dueOf (c / 6)).testBit (c % 6) then 2 ^ (c % 6) else 0)) else s

/-- A channel keeps its committed set (R288). -/
def State.keepChannel (s : State) (c : Nat) : State :=
  let s := (s.bump (pDC c) 0x08C).fire (pDC c) 0
  s.setDue (c / 6) (s.dueOf (c / 6) - (if (s.dueOf (c / 6)).testBit (c % 6) then 2 ^ (c % 6) else 0))

/-- The outcome of verify for each channel of a sequence: committed where every one passed, else kept. -/
def State.settleChannels (s : State) (commit : Bool) (speed : Nat) : List (Nat × (Nat × Nat)) → State
  | [] => s
  | (c, e) :: l => (if commit then s.commitChannel c speed e else s.keepChannel c).settleChannels commit speed l

/-- TRAIN_FAILED raised by channels. -/
def State.trainFailed (s : State) : List Nat → State
  | [] => s
  | c :: l => (s.fire (pDC c) 1).trainFailed l

/-- Verify ends. The masks say which channels passed under their working set and, where they did not, under their committed set; the eyes are those
measured, narrowest read and write, by channel of the region. A channel that fails its working set keeps its committed set; one that fails both fails the region. -/
def execTrainVerifyDone (region working committed : Nat) (eyes : List (Nat × Nat)) (s : State) : Res :=
  .next (match KM.get s.dram.trains region with
    | none => s
    | some t =>
      if t.phase ≠ .verify then s
      else
        let cs := maskChannels region t.channels
        let lost := cs.filter fun c => !working.testBit (c % 6) && !committed.testBit (c % 6)
        if lost ≠ [] then (s.trainFailed lost).failRegion region
        else
          let ok := cs.filter fun c => working.testBit (c % 6)
          let kept := cs.filter fun c => !working.testBit (c % 6)
          let s := s.settleChannels true t.speed (ok.map fun c => (c, eyes.getD (c % 6) (0, 0)))
          let s := s.settleChannels false t.speed (kept.map fun c => (c, (0, 0)))
          let s := if t.kind = .speed then (s.setFld (pRG region) 0x148 25 24 t.speed).fire (pRG region) 9 else s
          s.endTrain region)

/-- Channels of a region show a speed, and stand in self-refresh or not; a rank out of self-refresh starts with debt 0 (R280). -/
def State.setSpeed (s : State) (speed : Nat) : List Nat → State
  | [] => s
  | c :: l =>
    let s := (s.setFld (pDC c) 0x048 3 2 speed).setFld (pDC c) 0x048 0 0 0
    let s := (((s.setRank c 0 { s.rank c 0 with debt := 0 }).setRank c 1 { s.rank c 1 with debt := 0 }).setRank c 2 { s.rank c 2 with debt := 0 }).setRank c 3
      { s.rank c 3 with debt := 0 }
    s.setSpeed speed l

/-- The speed in force differs from the one wanted: a speed change starts in BYPASS. -/
def execSpeedChangeStart (region : Nat) (s : State) : Res :=
  .next (if 4 ≤ region ∨ s.speedTarget region = s.speedOf region ∨ s.ownSequence region ∨ s.otherBusy region then s
    else s.startTrain region .speed { kind := .speed, phase := .quiesce, step := 0, channels := 0x3F, speed := s.speedTarget region, stalled := false })

/-- The verify of a speed change ends, with a mask of the channels that passed. Where one fails, the whole in-service sequence runs at the new speed within the same
BYPASS (R293). -/
def execSpeedChangeDone (region passed : Nat) (s : State) : Res :=
  .next (match KM.get s.dram.trains region with
    | none => s
    | some t =>
      if t.kind ≠ .speed then s
      else
        let s := s.setSpeed t.speed (regionChannels region)
        if passed % 64 = 0x3F then ((s.setFld (pRG region) 0x148 25 24 t.speed).fire (pRG region) 9).endTrain region
        else { s with dram.trains := KM.put s.dram.trains region { t with phase := .zq, step := 0 } })

end Sys2Proof.Machine
end

