-- ==== Sys2Proof/Machine/Qp.lean ====
section
/-!
DEFINITION. Queue pairs, message trackers, receive-window slots, the context cache, peers and planes as the packet path and the commands use them;
acknowledgements; and the commands of chapter 05.
-/

namespace Sys2Proof.Machine

/-! ### Contexts, trackers and slots -/

/-- A queue pair. -/
def State.qp (s : State) (n : Nat) : Qp := KM.getD {} s.fab.qps n

/-- Codes of the queue pair states (table "QP context"). -/
def QpState.code : QpState → Nat
  | .free => 0
  | .init => 1
  | .ready => 2
  | .error => 3
  | .closing => 4

/-- The set of the context cache a QPN falls in (R115). -/
def qpcSet (n : Nat) : Nat := n % 4096

/-- The ways of a set, most recently used first. -/
def State.ways (s : State) (n : Nat) : List QpcEntry := KM.getD [] s.fab.cache (qpcSet n)

/-- The ways of a set changed. -/
def State.setWays (s : State) (n : Nat) (l : List QpcEntry) : State :=
  { s with fab.cache := KM.putD [] s.fab.cache (qpcSet n) l }

/-- The cache entry of a queue pair. -/
def State.qpcEntry (s : State) (n : Nat) : Option QpcEntry := (s.ways n).find? fun e => e.qpn == n

/-- Slots in use shown in RXW_IN_USE. -/
def State.showSlots (s : State) : State :=
  s.setFld pTC 0x09C 13 0 (s.fab.qps.filter fun p => p.2.slot).length

/-- A queue pair's context changed: the cached copy becomes dirty, and where none is cached the copy in the Loft is written. -/
def State.setQp (s : State) (n : Nat) (q : Qp) : State :=
  let s := { s with fab.qps := KM.putD {} s.fab.qps n q }
  if (s.qpcEntry n).isSome then s.setWays n ((s.ways n).map fun e => if e.qpn = n then { e with dirty := true } else e)
  else { s with fab.saved := KM.putD {} s.fab.saved n q }

/-- The key of a tracker. -/
def trackKey (n msn : Nat) : Nat := n * 2 ^ 32 + msn

/-- A tracker. -/
def State.tracker (s : State) (n msn : Nat) : Option Tracker := KM.get s.fab.trackers (trackKey n msn)

/-- TRK_IN_USE and TRK_HIGH follow the trackers. -/
def State.showTrackers (s : State) : State :=
  (s.setNum pTC 0x090 s.fab.trackers.length).setMax pTC 0x094 s.fab.trackers.length

/-- A tracker changed. -/
def State.setTracker (s : State) (n msn : Nat) (t : Tracker) : State :=
  { s with fab.trackers := KM.put s.fab.trackers (trackKey n msn) t }

/-- A tracker allocated. -/
def State.newTracker (s : State) (n msn : Nat) (t : Tracker) : State :=
  let s := (s.setTracker n msn t).showTrackers
  s.setQp n { s.qp n with openMsgs := (s.qp n).openMsgs + 1 }

/-- A tracker freed. -/
def State.dropTracker (s : State) (n msn : Nat) : State :=
  match s.tracker n msn with
  | none => s
  | some _ =>
    let s := ({ s with fab.trackers := KM.del s.fab.trackers (trackKey n msn) }).showTrackers
    s.setQp n { s.qp n with openMsgs := (s.qp n).openMsgs - 1 }

/-- The open messages of a queue pair, by MSN. -/
def State.openOf (s : State) (n : Nat) : List (Nat × Tracker) :=
  (s.fab.trackers.filter fun p => decide (p.1 / 2 ^ 32 = n)).map fun p => (p.1 % 2 ^ 32, p.2)

/-- Trackers freed, in order. -/
def State.dropTrackers (s : State) (n : Nat) : List Nat → State
  | [] => s
  | m :: l => (s.dropTracker n m).dropTrackers n l

/-! ### Sequence numbers (R92) -/

/-- The distance from one number to another modulo 2^32. -/
def dist32 (a b : Nat) : Nat := (b + 2 ^ 32 - a % 2 ^ 32) % 2 ^ 32

/-- A precedes B. -/
def precedes (a b : Nat) : Bool := decide (1 ≤ dist32 a b ∧ dist32 a b ≤ 2 ^ 31 - 1)

/-- The number after one, modulo 2^32. -/
def inc32 (a : Nat) : Nat := (a + 1) % 2 ^ 32

/-- The number before one, modulo 2^32. -/
def dec32 (a : Nat) : Nat := (a + 2 ^ 32 - 1) % 2 ^ 32

/-! ### The context cache (R115 to R117) -/

/-- An entry is held. -/
def State.heldQp (s : State) (n : Nat) : Bool := decide (0 < (s.qp n).openMsgs) || (s.qp n).slot

/-- A fetch of a set that waits for a way; one whose queue pair's entry is still being written back waits for that first. -/
def State.fetchWaits (s : State) (n : Nat) (f : QpcFetch) : Bool :=
  decide (qpcSet f.qpn = qpcSet n) && !f.issued && (s.qpcEntry f.qpn).isNone

/-- Fetches of a set that wait for a way. -/
def State.waitingFetches (s : State) (n : Nat) : List QpcFetch := s.fab.fetches.filter (s.fetchWaits n)

/-- Ways of a set in use: entries, and fetches issued into freed ways. -/
def State.waysUsed (s : State) (n : Nat) : Nat :=
  (s.ways n).length + (s.fab.fetches.filter fun f => decide (qpcSet f.qpn = qpcSet n) && f.issued).length

/-- The first fetch that a test names issued. -/
def issueFirst (p : QpcFetch → Bool) : List QpcFetch → List QpcFetch
  | [] => []
  | f :: l => if p f then { f with issued := true } :: l else f :: issueFirst p l

/-- A write-back is issued at once unless another is in flight (DESIGN CHOICE, log 12): the first queued one of the sets in order. -/
def State.issueWriteback (s : State) : State :=
  if s.fab.cache.any fun p => p.2.any fun e => e.issued then s
  else
    match s.fab.cache.find? fun p => p.2.any fun e => e.victim with
    | none => s
    | some (k, l) =>
      match l.find? fun e => e.victim with
      | none => s
      | some v => s.setWays k (l.map fun e => if e.qpn = v.qpn then { e with issued := true } else e)

/-- Ways found for the fetches of a set that wait: a free way is taken at once; else a victim is chosen, the least recently used entry that is not held,
as long as fewer victims are on their way out than fetches wait. A clean victim is freed, a dirty one queued for its write-back. -/
def State.findWays (fuel : Nat) (s : State) (n : Nat) : State :=
  match fuel with
  | 0 => s
  | fuel + 1 =>
    if s.waitingFetches n = [] then s
    else if s.waysUsed n < 8 then
      ({ s with fab.fetches := issueFirst (s.fetchWaits n) s.fab.fetches }).findWays fuel n
    else if (s.waitingFetches n).length ≤ ((s.ways n).filter fun e => e.victim).length then s
    else
      match (s.ways n).reverse.find? fun e => !e.victim && !s.heldQp e.qpn with
      | none => s
      | some e =>
        if e.dirty then
          (s.setWays n ((s.ways n).map fun x => if x.qpn = e.qpn then { x with victim := true } else x)).findWays fuel n
        else (s.setWays n ((s.ways n).filter fun x => x.qpn ≠ e.qpn)).findWays fuel n

/-- The set of a queue pair looked at again: ways found, write-backs issued. -/
def State.kick (s : State) (n : Nat) : State := (s.findWays 24 n).issueWriteback

/-- A context fetch asked for, unless one is under way. -/
def State.fetchQpc (s : State) (n : Nat) : State :=
  if s.fab.fetches.any fun f => f.qpn == n then s
  else ({ s with fab.fetches := s.fab.fetches ++ [({ qpn := n, issued := false, stale := false } : QpcFetch)] }).kick n

/-- A context command marks a fill of the same queue pair stale (R117, R71). -/
def State.staleFetch (s : State) (n : Nat) : State :=
  { s with fab.fetches := s.fab.fetches.map fun (f : QpcFetch) => if f.qpn = n then { f with stale := true } else f }

/-- An entry leaves the cache without a write-back: its context is gone. -/
def State.dropEntry (s : State) (n : Nat) : State := (s.setWays n ((s.ways n).filter fun e => e.qpn ≠ n)).kick n

/-- A cached context written back: the Loft copy is current (R113, R118). -/
def State.writeBack (s : State) (n : Nat) : State :=
  let s := s.setWays n ((s.ways n).map fun e => if e.qpn = n then { e with dirty := false } else e)
  { s with fab.saved := KM.putD {} s.fab.saved n (s.qp n) }

/-- Contexts written back, in order. -/
def State.writeBacks (s : State) : List Nat → State
  | [] => s
  | n :: l => (s.writeBack n).writeBacks l

/-- Every dirty cached context written back (R118). -/
def State.writeBackAll (s : State) : State :=
  s.writeBacks (s.fab.cache.flatMap fun p => (p.2.filter fun e => e.dirty).map fun e => e.qpn)

/-! ### Receive-window slots (R123) -/

/-- A queue pair gives its slot back once it has neither a received PSN above CUM_PSN nor a new packet above it under way. -/
def State.releaseSlot (s : State) (n : Nat) : State :=
  let q := s.qp n
  if q.slot ∧ q.received = [] ∧ (q.fresh.filter fun p => p ≠ q.cumPsn) = [] then
    ((s.setQp n { q with slot := false }).showSlots).kick n
  else s

/-- A PSN that was classified new is refused, or dropped: it is under way no more. -/
def State.notFresh (s : State) (n psn : Nat) : State :=
  (s.setQp n { s.qp n with fresh := (s.qp n).fresh.filter (· ≠ psn) }).releaseSlot n

/-- CUM_PSN moved over the PSNs received. -/
def advance : Nat → Nat → List Nat → Nat × List Nat
  | 0, c, l => (c, l)
  | fuel + 1, c, l => if c ∈ l then advance fuel (inc32 c) (l.filter (· ≠ c)) else (c, l)

/-- A PSN is received: its bit is set and CUM_PSN moves. -/
def State.receive (s : State) (n psn : Nat) : State :=
  let q := s.qp n
  let (c, l) := advance (q.received.length + 1) q.cumPsn (psn :: q.received)
  (s.setQp n { q with cumPsn := c, received := l, fresh := q.fresh.filter (· ≠ psn) }).releaseSlot n

/-! ### Peers and planes -/

/-- A peer entry. -/
def State.peer (s : State) (n : Nat) : Option Peer := KM.get s.fab.peers n

/-- The key of a peer-plane. -/
def ppKey (peer plane : Nat) : Nat := 8 * peer + plane

/-- A peer-plane state; RATE of one never set is line rate's floor, which PEER_SET replaces. -/
def State.pp (s : State) (peer plane : Nat) : PeerPlane := KM.getD {} s.fab.peerPlanes (ppKey peer plane)

/-- A peer-plane state changed. -/
def State.setPp (s : State) (peer plane : Nat) (v : PeerPlane) : State :=
  { s with fab.peerPlanes := KM.putD {} s.fab.peerPlanes (ppKey peer plane) v }

/-- A plane. -/
def State.plane (s : State) (p : Nat) : Plane := KM.getD {} s.fab.planes p

/-- A plane changed. -/
def State.setPlane (s : State) (p : Nat) (v : Plane) : State := { s with fab.planes := KM.putD {} s.fab.planes p v }

/-- The page of fabric port p. -/
def pFP (p : Nat) : Nat := 0x0040 + p

/-- A plane is in service (FPC.IN_SERVICE). -/
def State.inService (s : State) (p : Nat) : Bool := bit (s.reg pFPC 0x188) p

/-- A plane runs at half rate. -/
def State.halfRate (s : State) (p : Nat) : Bool := bit (s.reg pFPC 0x188) (16 + p)

/-- A plane's bits of the plane status register set. -/
def State.setPlaneBits (s : State) (p : Nat) (service link : Bool) : State :=
  (s.setFld pFPC 0x188 p p (b2n service)).setFld pFPC 0x188 (8 + p) (8 + p) (b2n link)

/-- Line rate of a plane in Gb/s (R148). -/
def State.lineRate (s : State) (p : Nat) : Nat := if s.halfRate p then 400 else 800

/-- INIT_RATE. -/
def State.initRate (s : State) : Nat := s.fld pTC 0x108 25 16

/-- A peer has a queue pair in READY. -/
def State.peerReady (s : State) (n : Nat) : Bool := s.fab.qps.any fun p => decide (p.2.peer = n ∧ p.2.state = .ready)

/-- A peer-plane becomes UP: RATE is at most INIT_RATE, CLEAN 0 (R150), and PEER_PLANE_UP is raised and published. -/
def State.ppUp (s : State) (peer plane : Nat) : State :=
  let v := s.pp peer plane
  if v.up then s
  else
    let s := s.setPp peer plane { v with up := true, rate := min v.rate (32 * s.initRate), clean := 0, unanswered := 0, probeId := none }
    (s.fire pFPC 4).publish pFPC 0x198 [2 ^ 31 + peer * 2 ^ 16 + plane] 64

/-- A peer-plane becomes DOWN. -/
def State.ppDown (s : State) (peer plane : Nat) : State :=
  let v := s.pp peer plane
  let s := s.setPp peer plane { v with up := false }
  (s.fire pFPC 3).publish pFPC 0x198 [peer * 2 ^ 16 + plane] 64

/-- The fabric is dark: in RESCUE the device serves no packet (R372). -/
def State.fabricDark (s : State) : Bool := s.stwState = 6

/-- A port runs: its page is in SERVICE, or draining, and no flush has stopped admission (R204). -/
def State.portRuns (s : State) (p : Nat) : Bool :=
  (s.pg (pFP p) = .service || s.pg (pFP p) = .draining) && !decide (2 ≤ s.phase ∧ s.phase ≤ 5)

/-! ### Packets sent (R89, R90, R104) -/

/-- The fold of a handle and a window offset. -/
def foldOf (handle woff : Nat) : Nat :=
  (BitVec.ofNat 32 handle ^^^ BitVec.ofNat 32 woff ^^^ BitVec.ofNat 32 (woff / 2 ^ 32)).toNat

/-- A control packet sent on a plane, counted in TX_CTRL; discarded and counted where the plane's link is down (R140). -/
def State.sendCtrl (s : State) (p : PxtOut) : State :=
  if s.portRuns p.plane then (s.bump pFPC (0x1C4 + 8 * p.plane)).emit (.fabric p) else s.bump pFPC 0x18C

/-- The 802.1Q tag a port sends with. -/
def State.txTag (s : State) (p : Nat) : Option Nat :=
  let c := s.reg pFPC (0x080 + 0x20 * p)
  if bit c 31 then some (bits c 30 28 * 4096 + bits c 11 0) else none

/-- A control packet: destination, port, sequence fields, extensions. -/
def State.ctrl (s : State) (peer plane udpSrc opcode flags dqpn psn msn tx : Nat) (ext : List Byte) : PxtOut :=
  { plane, tag := s.txTag plane, dstIp := match s.peer peer with | some e => e.addr.getD plane 0 | none => 0, udpSrc, ecn := if bit (s.reg pFPC 0x044) 17 then 2 else 0,
    dscp := s.fld pFPC 0x044 13 8, opcode, flags, dqpn, psn, msn, txCount := tx, ext, payloadLen := 0, payload := [], fold := 0 }

/-- The SACK extension of a queue pair (R97). -/
def sackExt (q : Qp) : List Byte :=
  let m := (q.received.filter fun p => decide (1 ≤ dist32 q.cumPsn p ∧ dist32 q.cumPsn p ≤ 64)).foldl (fun a p => a + 2 ^ (dist32 q.cumPsn p - 1)) 0
  [0x04, 4, 0, 0] ++ beBytes 4 q.cumPsn ++ beBytes 8 m

/-- The MARK extension of a peer-plane, where it has counts. -/
def markExt (plane : Nat) (v : PeerPlane) : List Byte :=
  if v.seen = 0 then [] else [0x05, 3, BitVec.ofNat 8 plane, 0] ++ beBytes 4 v.marked ++ beBytes 4 v.seen

/-- An ACK built (R102, R128, R144): it serves every cause present; the accumulators of the peer-plane are reported and zeroed. -/
def State.sendAck (s : State) (n : Nat) (t : Trigger) : State :=
  let q := s.qp n
  let v := s.pp q.peer t.plane
  let p := s.ctrl q.peer t.plane t.udpSrc 0x12 (if v.marked = 0 then 0 else 2 ^ 12) q.peerQpn t.psn q.cmsn t.txCount (sackExt q ++ markExt t.plane v)
  let s := s.setPp q.peer t.plane { v with marked := 0, seen := 0 }
  (s.setQp n { q with sinceAck := 0, delay := none }).sendCtrl p

/-- A NAK built, and counted: on the queue pair, NAKS_SENT; a HOLD also in HOLDS_SENT and by its DETAIL. -/
def State.sendNak (s : State) (n : Nat) (t : Trigger) (syn detail retry : Nat) : State :=
  let q := s.qp n
  let ext := [0x06, 4, BitVec.ofNat 8 syn, 0] ++ beBytes 4 t.psn ++ beBytes 4 retry ++ beBytes 4 detail
  let p := s.ctrl q.peer t.plane t.udpSrc 0x13 0 q.peerQpn t.psn q.cmsn t.txCount (ext ++ sackExt q)
  let hold := syn = 1
  let s := s.setQp n { q with naks := min (q.naks + 1) 0xFFFFFFFF, holds := if hold then min (q.holds + 1) 0xFFFFFFFF else q.holds }
  let s := s.bump pFPC 0x04C
  let s :=
    if hold then
      let s := { s with hist.holds := s.hist.holds + 1 }
      let s := (s.bump pFPC 0x050).bump pTC (if detail = 1 then 0x188 else 0x18C)
      if detail = 5 then s.fireLimited pTC 8 else s
    else s
  s.sendCtrl p

/-- A reply may be built: every packet of the queue pair that arrived before its trigger on the trigger's plane has left the pipeline (R129). -/
def State.ripe (s : State) (n : Nat) (o : Owed) : Bool :=
  !s.fab.placements.any fun p => p.qpn == n && p.trig.plane == o.trig.plane && decide (p.trig.arrival < o.trig.arrival)

/-- The NAKs of a list built, in order. -/
def State.sendNaks (s : State) (n : Nat) : List Owed → State
  | [] => s
  | o :: l =>
    match o.nak with
    | some (a, b, c) => (s.sendNak n o.trig a b c).sendNaks n l
    | none => s.sendNaks n l

/-- Replies owed by a queue pair that may be built are built: each NAK, and one ACK for every cause present, triggered by the first of them. -/
def State.settle (s : State) (n : Nat) : State :=
  let q := s.qp n
  let ready := q.owed.filter fun o => s.ripe n o
  if ready = [] then s
  else
    let s := s.setQp n { q with owed := q.owed.filter fun o => !s.ripe n o }
    let s := s.sendNaks n ready
    match ready.find? fun o => o.nak.isNone with
    | some o => s.sendAck n o.trig
    | none => s

/-- A reply owed. -/
def State.owe (s : State) (n : Nat) (t : Trigger) (nak : Option (Nat × Nat × Nat)) : State :=
  let q := s.qp n
  s.setQp n { q with owed := q.owed ++ [{ trig := t, nak }] }

/-- Queue pairs settled, in order. -/
def State.settles (s : State) : List Nat → State
  | [] => s
  | n :: l => (s.settle n).settles l

/-- Every queue pair that owes replies settled. -/
def State.settleAll (s : State) : State := s.settles ((s.fab.qps.filter fun p => decide (p.2.owed ≠ [])).map (·.1))

/-! ### Failure and completion of messages (R112, R125, R126) -/

/-- A message fails: its tracker is freed; a READY queue pair enters ERROR, and an earlier failure in ERROR moves FAIL_MSN back. A message already complete,
or outside the messages that may be open, fails nothing. -/
def State.failMessage (s : State) (n msn cause : Nat) : State :=
  let q := s.qp n
  let d := dist32 q.cmsn msn
  if d = 0 ∨ 1024 < d then s
  else
    let s := s.dropTracker n msn
    let q := s.qp n
    match q.state with
    | .ready =>
      let s := (s.setQp n { q with state := .error, failMsn := msn, failCause := cause }).fire pTC 4
      (s.publish pTC 0x0A8 [cause * 2 ^ 20 + n, msn] 64).kick n
    | .error => (if precedes msn q.failMsn then s.setQp n { q with failMsn := msn, failCause := cause } else s).kick n
    | _ => s.kick n

/-- A write message completes for the Tally (counter 3); one single-packet message in 1,024 is sampled from its arrival (series 9). -/
def State.countWrite (s : State) (tenant : Nat) (t : Tracker) : State :=
  let s := s.tallyAdd tenant 3 1
  if t.single = false then s
  else
    let s := { s with hist.writes := (s.hist.writes + 1) % 1024 }
    if s.hist.writes = 0 then s.sample 9 ((s.now - t.lastArrival : Nat) : Int) else s

/-- Trackers that stand next in order and are done: CMSN moves over them, as long as it stays below FAIL_MSN in ERROR. Answers the trigger of the first. -/
def State.cascade (fuel : Nat) (s : State) (n : Nat) : Option Trigger × State :=
  match fuel with
  | 0 => (none, s)
  | fuel + 1 =>
    let q := s.qp n
    let m := inc32 q.cmsn
    match s.tracker n m with
    | none => (none, s)
    | some t =>
      if t.state ≠ .mirrored ∨ (q.state = .error ∧ m = q.failMsn) then (none, s)
      else
        let s := if t.read then s else s.countWrite q.tenant t
        let s := s.dropTracker n m
        let s := s.setQp n { s.qp n with cmsn := m }
        let (u, s) := s.cascade fuel n
        (match t.trigger with | some x => some x | none => u, s)

/-- Completion in order (R126), and one completion ACK for the cascade. -/
def State.completeMsgs (s : State) (n : Nat) : State :=
  let before := (s.qp n).cmsn
  let (t, s) := s.cascade 1024 n
  if (s.qp n).cmsn = before then s
  else
    let s := s.setQp n { s.qp n with headArrival := s.now }
    match t with
    | some x => (s.owe n x none).kick n
    | none => s.kick n

/-- A WRITE tracker whose bytes are all placed and all mirrored awaits its order; in SOLO the mirror condition is waived (R161). -/
def State.judge (s : State) (n msn : Nat) : State :=
  match s.tracker n msn with
  | none => s
  | some t =>
    if t.read then s
    else if t.msgLen ≤ t.placed ∧ (t.msgLen ≤ t.mirrored ∨ s.pair = 3) then
      (s.setTracker n msn { t with state := .mirrored }).completeMsgs n
    else if t.msgLen ≤ t.placed then s.setTracker n msn { t with state := .placed }
    else s

/-- Bytes of messages acknowledged by the mirror (R223). -/
def State.mirrored (s : State) : List (Nat × Nat × Nat) → State
  | [] => s
  | (n, m, k) :: l =>
    match s.tracker n m with
    | none => s.mirrored l
    | some t => ((s.setTracker n m { t with mirrored := t.mirrored + k }).judge n m).mirrored l

/-! ### Queue pair commands (R109 to R114) -/

/-- A key slot that is a sealing slot of a tenant, or none. -/
def State.sealingSlot (s : State) (tenant k : Nat) : Bool :=
  k = 0 || ((s.slot k).state ≠ .empty && (s.slot k).kind = 4 && (s.slot k).owner = tenant)

/-- Bits of a word that must be 0 are 0. -/
def clearBits (v : Nat) (mask : Nat) : Bool := (BitVec.ofNat 32 v &&& BitVec.ofNat 32 mask) = 0

/-- QP_CREATE (R109, R110). -/
def execQpCreate (c : AdminCmd) (s : State) : Res :=
  .next (s.adminRun 0x20 c fun _ s =>
    let tenant := c.p0 % 4096
    let peer := c.p0 / 4096 % 4096
    let planes := c.p1 / 2 ^ 20 % 256
    let rx0 := c.p6 % 8192
    let rx1 := c.p6 / 65536 % 8192
    let tx0 := c.p7 % 8192
    let tx1 := c.p7 / 65536 % 8192
    let delay := c.p5 / 2 ^ 24
    let every := c.p5 / 65536 % 256
    let n := c.target
    let peerEn := match s.peer peer with | some e => e.planeEn | none => 0
    if n = 0 ∨ 1048575 < n ∨ tenant = 0 ∨ s.tenantExists tenant = false ∨ peerEn = 0 ∨ planes = 0 ∨ (c.p0.testBit 24 ∧ rx0 = 0) ∨
        ¬(clearBits c.p0 0xFC000000 ∧ clearBits c.p1 0xF0000000 ∧ clearBits c.p5 0xC000 ∧ clearBits c.p6 0xE000E000 ∧
          clearBits c.p7 0xE000E000 ∧ c.p8 < 65536 ∧ c.p9 = 0) ∨
        ¬(s.sealingSlot tenant rx0 ∧ s.sealingSlot tenant rx1 ∧ s.sealingSlot tenant tx0 ∧ s.sealingSlot tenant tx1) then
      (s, bad stINVALID_FIELD)
    else if (s.qp n).state ≠ .free then (s, bad stSTATE_CONFLICT)
    else
      let s := s.staleFetch n
      (s.setQp n { state := if c.p0.testBit 25 then .init else .ready, sealReq := c.p0.testBit 24, peer, tenant, respPlanes := planes,
                   peerQpn := c.p1 % 2 ^ 20, cumPsn := c.p2, cmsn := dec32 c.p3, respPsn := c.p4, ackDelay := if delay = 0 then 8 else delay,
                   ackEvery := if every = 0 then 16 else every, entropyBase := c.p5 % 16384, rxKey0 := rx0, rxKey1 := rx1, txKey0 := tx0, txKey1 := tx1,
                   timeout := if c.p8 = 0 then 100 else c.p8, headArrival := s.now }, good))

/-- A queue pair command: the check of its QPN, and of its state, before its effect; a fill of the same queue pair becomes stale. -/
def State.qpCommand (s : State) (op : Nat) (c : AdminCmd) (code : Option Nat) (allowed : QpState → Bool)
    (body : State → Qp → State × Option Answer) : State :=
  s.adminRun op c fun _ s =>
    let n := c.target
    if n = 0 ∨ 1048575 < n ∨ (code.isSome ∧ code ≠ some c.p0) then (s, bad stINVALID_FIELD)
    else if allowed (s.qp n).state = false then (s, bad stSTATE_CONFLICT)
    else body (s.staleFetch n) (s.qp n)

/-- A queue pair that exists and is not closing. -/
def liveQp (st : QpState) : Bool := st ≠ .free && st ≠ .closing

/-- QP_MODIFY READY (R111). -/
def execQpModifyReady (c : AdminCmd) (s : State) : Res :=
  .next (s.qpCommand 0x21 c (some 1) (· = .init) fun s q => (s.setQp c.target { q with state := .ready }, good))

/-- QP_MODIFY ERROR (R111). -/
def execQpModifyError (c : AdminCmd) (s : State) : Res :=
  .next (s.qpCommand 0x21 c (some 2) (· = .ready) fun s q =>
    let f := inc32 q.cmsn
    let s := (s.setQp c.target { q with state := .error, failMsn := f, failCause := 0xF2 }).fire pTC 4
    (s.publish pTC 0x0A8 [0xF2 * 2 ^ 20 + c.target, f] 64, good))

/-- QP_MODIFY RESET (R111). -/
def execQpModifyReset (c : AdminCmd) (s : State) : Res :=
  .next (s.qpCommand 0x21 c (some 3) (· = .error) fun s q =>
    if q.openMsgs ≠ 0 then (s, bad stSTATE_CONFLICT)
    else
      let s := s.setQp c.target { q with state := .init, cumPsn := c.p1, cmsn := dec32 c.p2, respPsn := c.p3, failMsn := 0, failCause := 0, received := [],
                                         fresh := [], slot := false, sinceAck := 0, delay := none, owed := [], headArrival := s.now }
      (s.showSlots.kick c.target, good))

/-- QP_MODIFY PATHS (R113). -/
def execQpModifyPaths (c : AdminCmd) (s : State) : Res :=
  .next (s.qpCommand 0x21 c (some 4) liveQp fun s q =>
    let planes := c.p1 / 2 ^ 20 % 256
    if planes = 0 ∨ clearBits c.p1 0xF00FC000 = false then (s, bad stINVALID_FIELD)
    else (s.setQp c.target { q with respPlanes := planes, entropyBase := c.p1 % 16384 }, good))

/-- QP_MODIFY KEYSEL (R113). -/
def execQpModifyKeysel (c : AdminCmd) (s : State) : Res :=
  .next (s.qpCommand 0x21 c (some 5) liveQp fun s q =>
    if 1 < c.p1 then (s, bad stINVALID_FIELD) else (s.setQp c.target { q with txKeySel := c.p1 = 1 }, good))

/-- QP_MODIFY SYNC (R113). -/
def execQpModifySync (c : AdminCmd) (s : State) : Res :=
  .next (s.qpCommand 0x21 c (some 6) liveQp fun s _ => (s.writeBack c.target, good))

/-- QP_MODIFY ACKS (R113). -/
def execQpModifyAcks (c : AdminCmd) (s : State) : Res :=
  .next (s.qpCommand 0x21 c (some 7) liveQp fun s q =>
    let delay := c.p1 / 2 ^ 24
    let every := c.p1 / 65536 % 256
    if delay = 0 ∨ every = 0 ∨ c.p1 % 65536 ≠ 0 then (s, bad stINVALID_FIELD)
    else (s.setQp c.target { q with ackDelay := delay, ackEvery := every }, good))

/-- A queue of responses without those of a queue pair. -/
def withoutQp (n : Nat) (p : Plane) : Plane := { p with queue := p.queue.filter fun r => r.qpn ≠ n }

/-- Everything of a queue pair removed: packets under way, reads, unsent responses, packets in miss queues, trackers, its context (R114). -/
def State.clearQp (s : State) (n : Nat) : State :=
  let q := s.qp n
  let s := { s with fab.placements := s.fab.placements.filter fun p => p.qpn ≠ n,
                    fab.reads := s.fab.reads.filter fun r => r.qpn ≠ n,
                    fab.planes := KM.mapV (fun _ p => withoutQp n p) s.fab.planes,
                    fab.trackers := KM.keep (fun k _ => k / 2 ^ 32 ≠ n) s.fab.trackers,
                    fab.fetches := s.fab.fetches.map fun (f : QpcFetch) => if f.qpn = n then { f with stale := true } else f }
  let s := (s.setWays n ((s.ways n).filter fun e => e.qpn ≠ n)).showTrackers
  let s := (s.setQp n {}).showSlots
  ((((s.dropRef q.rxKey0).dropRef q.rxKey1).dropRef q.txKey0).dropRef q.txKey1).kick n

/-- Queue pairs removed, in order. -/
def State.clearQps (s : State) : List Nat → State
  | [] => s
  | n :: l => (s.clearQp n).clearQps l

/-- QP_DESTROY (R111, R114): CLOSING and FREE in one step (DESIGN CHOICE, log 12). -/
def execQpDestroy (c : AdminCmd) (s : State) : Res :=
  .next (s.qpCommand 0x22 c none liveQp fun s _ =>
    let n := ((s.openOf c.target).filter fun p => !p.2.read).length
    (s.clearQp c.target, good n))

/-! ### Peers, planes and shares (R119, R141, R153) -/

/-- The rate state PEER_SET gives a plane (R150). -/
def State.freshRate (s : State) (peer plane : Nat) : State :=
  s.setPp peer plane { s.pp peer plane with up := true, rate := 32 * s.initRate, alpha := 0xFFFF, clean := 0, echoCe := 0, echoTotal := 0, unanswered := 0,
                                            probeId := none, silent := 0 }

/-- Planes given fresh rate state, in order. -/
def State.freshRates (s : State) (peer : Nat) : List Nat → State
  | [] => s
  | p :: l => (s.freshRate peer p).freshRates peer l

/-- PEER_SET (R119, R150). -/
def execPeerSet (c : AdminCmd) (s : State) : Res :=
  .next (s.adminRun 0x23 c fun _ s =>
    let b := proper c
    let w := fun o => leNat ((b.drop o).take 4)
    if 4095 < c.target ∨ properLen c < 256 ∨ b.length < 256 ∨ 255 < w 176 ∨ 2 ^ 20 ≤ w 180 ∨ 2 ^ 20 ≤ w 184 ∨
        ((b.drop 188).take 68).any (fun x => x ≠ 0) then (s, bad stINVALID_FIELD)
    else
      let e : Peer := { addr := (List.range 8).map fun p => beNat ((b.drop (16 * p)).take 16),
                        nextHop := (List.range 8).map fun p => beNat ((b.drop (128 + 6 * p)).take 6),
                        planeEn := w 176, probeLocal := w 180, probePeer := w 184 }
      let s := { s with fab.peers := KM.put s.fab.peers c.target e }
      (s.freshRates c.target (bitList (w 176) 8), good))

/-- Queued responses of a plane that leaves service at once: discarded, counted, and sent as far as their messages are concerned (R140). -/
def State.discardResp (s : State) (r : Response) : State :=
  let s := (s.bump pFPC 0x18C).tallyAdd r.tenant 0 r.data.length
  if r.last ∧ r.resend = false then
    match s.tracker r.qpn r.msn with
    | some t => if t.read then (s.setTracker r.qpn r.msn { t with state := .mirrored }).completeMsgs r.qpn else s
    | none => s
  else s

/-- Responses discarded, in order. -/
def State.discardResps (s : State) : List Response → State
  | [] => s
  | r :: l => (s.discardResp r).discardResps l

/-- The queue of a plane discarded. -/
def State.discardQueue (s : State) (p : Nat) : State :=
  let v := s.plane p
  (s.setPlane p { v with queue := [] }).discardResps v.queue

/-- A fabric port holds a retired lane in each of its two lane pairs (R420). -/
def State.planeDead (s : State) (p : Nat) : Bool :=
  let l := s.fld (pFP p) 0x050 7 4
  (l.testBit 0 || l.testBit 1) && (l.testBit 2 || l.testBit 3)

/-- A lane of a port is retired or retraining, so that the port runs at 400 Gb/s. -/
def State.lanesShort (s : State) (p : Nat) : Bool := decide (s.fld (pFP p) 0x050 7 0 ≠ 0)

/-- PLANE_CONTROL taking a plane out (R141). A retrain that waits on the port is dropped (R425). A plane already out, or on its way out, is a state conflict (DESIGN CHOICE, log 12). -/
def execPlaneControlOut (c : AdminCmd) (s : State) : Res :=
  .next (s.adminRun 0x24 c fun op s =>
    if c.p0 ≠ 1 ∨ s.planes ≤ c.target ∨ 1000 < c.p1 then (s, bad stINVALID_FIELD)
    else if (s.plane c.target).out ∨ (s.plane c.target).draining.isSome then (s, bad stSTATE_CONFLICT)
    else
      let s := s.setPlane c.target { s.plane c.target with draining := some op }
      let s := { s with age.queue := s.age.queue.filter fun l => l.page ≠ pFP c.target }
      let was := s.inService c.target
      let s := s.setFld pFPC 0x188 c.target c.target 0
      (if was then s.fire pFPC 5 else s, none))

/-- A plane's drain time ends: what could not be sent is discarded, the port is disabled and enters OFF, and the command completes. The drain of a lane retrain ends in a relink: the link is down until it
returns, and the page stays as it is (R420). -/
def execPlaneDrainExpire (plane : Nat) (s : State) : Res :=
  .next (match (s.plane plane).draining with
    | none => s
    | some 0 => (((s.setPlane plane { s.plane plane with draining := none }).discardQueue plane).setPlaneBits plane false false).settleAll
    | some op =>
      let s := (s.setPlane plane { s.plane plane with draining := none, out := true }).discardQueue plane
      let s := { s with arch.inService := s.arch.inService.filter (· ≠ pFP plane) }.setFld (pFP plane) 0x008 0 0 0
      let s := (s.setPlaneBits plane false false).setPg (pFP plane) .off 2
      (s.complete op { status := stSUCCESS }).settleAll)

/-- The peer-plane states of a plane set UP. -/
def State.upAll (s : State) (plane : Nat) : List Nat → State
  | [] => s
  | n :: l => (s.ppUp n plane).upAll plane l

/-- Peers that are reachable on a plane. -/
def State.peersOn (s : State) (plane : Nat) : List Nat := (s.fab.peers.filter fun p => p.2.planeEn.testBit plane).map (·.1)

/-- A plane whose port is trained is back in service, and its peer-plane states are UP (R141). -/
def State.planeBack (s : State) (plane : Nat) : State :=
  let s := (s.setPlane plane { s.plane plane with returning := none }).setPlaneBits plane true true
  s.upAll plane (s.peersOn plane)

/-- The start-up of a port ends: a plane that PLANE_CONTROL returns is back, or, where the port has failed, stays out, and the command completes (DESIGN CHOICE, log 12). -/
def State.planeTrained (s : State) (plane : Nat) (passed : Bool) : State :=
  match (s.plane plane).returning with
  | none => s
  | some op =>
    if passed then (s.planeBack plane).complete op { status := stSUCCESS }
    else (s.setPlane plane { s.plane plane with returning := none, out := true }).complete op { status := stSTATE_CONFLICT }

/-- TENANT_SHARE (R153). -/
def execTenantShare (c : AdminCmd) (s : State) : Res :=
  .next (s.adminRun 0x25 c fun _ s =>
    match KM.get s.win.tenants c.target with
    | none => (s, bad stINVALID_FIELD)
    | some t =>
      if c.target = 0 ∨ 255 < c.p0 ∨ 6400 < c.p1 then (s, bad stINVALID_FIELD)
      else ({ s with win.tenants := KM.put s.win.tenants c.target { t with weight := if c.p0 = 0 then 16 else c.p0, cap := c.p1 } }, good))

/-! ### Links and lanes (R140) -/

/-- A fabric port's link goes down. -/
def execFabricLinkDown (plane : Nat) (s : State) : Res :=
  .next (if s.planes ≤ plane then s
    else
      let was := s.inService plane
      let s := ((s.setPlaneBits plane false false).discardQueue plane).settleAll
      if was then s.fire pFPC 5 else s)

/-- A plane's link up: in service unless it drains, at half rate while a lane is retired or retrains. -/
def State.linkPlane (s : State) (plane : Nat) : State :=
  let s := if s.lanesShort plane then s.setFld pFPC 0x188 (16 + plane) (16 + plane) 1 else s
  s.setPlaneBits plane (s.plane plane).draining.isNone true

/-- A fabric port's link returns: the plane rejoins service unless a command took it out, or its lanes are retired. -/
def execFabricLinkUp (plane : Nat) (s : State) : Res :=
  .next (if s.planes ≤ plane ∨ (s.plane plane).out ∨ s.planeDead plane ∨ s.portRuns plane = false then s else s.linkPlane plane)

/-- A lane fault halves a port's rate and the port stays in service: ports 0 to 7 are the fabric planes, 8 to 11 the twin ports TP0 to TP3 (DESIGN
CHOICE, log 12). -/
def execLaneFault (port : Nat) (s : State) : Res :=
  .next (if port < 8 then (if s.planes ≤ port then s else s.setFld pFPC 0x188 (16 + port) (16 + port) 1)
    else if port < 12 then s.setFld (pTP (port - 8)) 0x040 1 1 1
    else s)

end Sys2Proof.Machine
end

