-- ==== Sys2Proof/Machine/Rs.lean ====
section
/-!
DEFINITION. The symbol code of a Loft line (R299 to R303): GF(2^8), the check symbols, the symbols of a device, and the decoder in normal and in erasure mode, as it acts on an error pattern
(the code is linear, so its outcome does not depend on the data).
-/

namespace Sys2Proof.Machine

/-- Multiplication by x modulo 0x11D. -/
def gfDouble (a : Byte) : Byte := if a.getLsbD 7 then (a <<< 1) ^^^ 0x1D else a <<< 1

/-- The product in GF(2^8), bit by bit of the second factor, from its highest. -/
def gfMulBits (a b : Byte) : Nat → Byte
  | 0 => 0
  | n + 1 => gfDouble (gfMulBits a (b >>> 1) n) ^^^ (if b.getLsbD 0 then a else 0)

/-- The product in GF(2^8) (R300). -/
def gfMul (a b : Byte) : Byte := gfMulBits a b 8

/-- A power in GF(2^8). -/
def gfPow (a : Byte) : Nat → Byte
  | 0 => 1
  | n + 1 => gfMul a (gfPow a n)

/-- The inverse of a non-zero element. -/
def gfInv (a : Byte) : Byte :=
  let a2 := gfMul a a
  let a4 := gfMul a2 a2
  let a8 := gfMul a4 a4
  let a16 := gfMul a8 a8
  let a32 := gfMul a16 a16
  let a64 := gfMul a32 a32
  let a128 := gfMul a64 a64
  gfMul a2 (gfMul a4 (gfMul a8 (gfMul a16 (gfMul a32 (gfMul a64 a128)))))

/-- The sum of two polynomials, lowest coefficient first. -/
def polyAdd : List Byte → List Byte → List Byte
  | [], q => q
  | p, [] => p
  | a :: p, b :: q => (a ^^^ b) :: polyAdd p q

/-- A polynomial times an element. -/
def polyScale (c : Byte) (p : List Byte) : List Byte := p.map (gfMul c)

/-- The product of two polynomials. -/
def polyMul : List Byte → List Byte → List Byte
  | [], _ => []
  | a :: p, q => polyAdd (polyScale a q) (0 :: polyMul p q)

/-- The value of a polynomial at an element. -/
def polyEval (p : List Byte) (x : Byte) : Byte := p.foldr (fun c v => c ^^^ gfMul v x) 0

/-- The generator polynomial, lowest coefficient first: the product of x − α^i, i from 0 to 15. -/
def rsGenerator : List Byte := (List.range 16).foldl (fun g i => polyMul g [gfPow 2 i, 1]) [1]

/-- One step of the division by the generator: a symbol taken into the 16 check symbols, highest degree first. -/
def rsStep (r : List Byte) (c : Byte) : List Byte :=
  let f := c ^^^ r.headD 0
  polyAdd (r.tail ++ [0]) (polyScale f (rsGenerator.take 16).reverse)

/-- The check symbols of 64 data symbols (R300). -/
def rsCheck (data : List Byte) : List Byte := data.foldl rsStep (List.replicate 16 0)

/-- The device of a symbol (R299). -/
def symbolDevice (s : Nat) : Nat := s / 8

/-- The poison constant (R303). -/
def poisonConstant : List Byte :=
  [0x3C, 0x96, 0xA5, 0x0F, 0x5A, 0xE1, 0x69, 0xD2, 0x1E, 0xB4, 0x87, 0x4B, 0xF0, 0x2D, 0x78, 0xC3]

/-- The poison constant as an error pattern: its bytes in symbols 64 to 79. -/
def poisonPattern : List (Nat × Byte) := (List.range 16).map fun i => (64 + i, poisonConstant.getD i 0)

/-- The locator of a symbol: α to the power of its degree in the stored word. -/
def locator (s : Nat) : Byte := gfPow 2 (79 - s)

/-- The locators of the 80 symbols. -/
def locators : List Byte := (List.range 80).map locator

/-- The error in a symbol of a pattern. -/
def errorAt (e : List (Nat × Byte)) (s : Nat) : Byte := e.foldl (fun v p => if p.1 = s then v ^^^ p.2 else v) 0

/-- The 16 syndromes of a pattern. -/
def syndromes (e : List (Nat × Byte)) : List Byte :=
  (List.range 16).map fun j => e.foldl (fun v p => v ^^^ gfMul p.2 (gfPow (locator p.1) j)) 0

/-- The state of the search for a locator polynomial: the polynomial, the one before, its length, the gap, the discrepancy before. -/
structure Search where
  c : List Byte := [1]
  b : List Byte := [1]
  len : Nat := 0
  gap : Nat := 1
  disc : Byte := 1
  deriving DecidableEq, Repr

/-- One step of the search, on the n-th syndrome. -/
def searchStep (t : List Byte) (z : Search) (n : Nat) : Search :=
  let d := (List.range (z.len + 1)).foldl (fun v i => if i ≤ n then v ^^^ gfMul (z.c.getD i 0) (t.getD (n - i) 0) else v) (0 : Byte)
  if d = 0 then { z with gap := z.gap + 1 }
  else
    let c' := polyAdd z.c (List.replicate z.gap 0 ++ polyScale (gfMul d (gfInv z.disc)) z.b)
    if 2 * z.len ≤ n then { c := c', b := z.c, len := n + 1 - z.len, gap := 1, disc := d }
    else { z with c := c', gap := z.gap + 1 }

/-- The formal derivative of a polynomial. -/
def derivative (p : List Byte) : List Byte := (List.range (p.length - 1)).map fun i => if i % 2 = 0 then p.getD (i + 1) 0 else 0

/-- The pattern the decoder corrects, or none beyond its radius: up to 8 symbols in error, or, with a device erased, its 8 symbols and up to 4 more (R301). -/
def rsDecode (erased : Option Nat) (e : List (Nat × Byte)) : Option (List (Nat × Byte)) :=
  let s := syndromes e
  let gone := match erased with | some d => List.range' (8 * d) 8 | none => []
  let gamma := gone.foldl (fun p i => polyMul p [1, locator i]) [1]
  let t := ((polyMul s gamma).take 16).drop gone.length
  let z := (List.range (16 - gone.length)).foldl (searchStep t) {}
  if (16 - gone.length) / 2 < z.len then none
  else
    let lam := polyMul z.c gamma
    let omega := (polyMul s lam).take 16
    let places := (List.range 80).filter fun i => i ∈ gone || polyEval z.c (gfInv (locators.getD i 1)) = 0
    let fix := (places.map fun i =>
        let x := locators.getD i 1
        (i, gfMul x (gfMul (polyEval omega (gfInv x)) (gfInv (polyEval (derivative lam) (gfInv x)))))).filter fun p => p.2 ≠ 0
    if places.length = z.len + gone.length ∧ syndromes fix = s then some fix else none

/-- Outcomes of a decode (table "Decoder outcomes"), with the symbols corrected. -/
inductive Decoded where
  | clean (fix : List (Nat × Byte))
  | poisoned
  | uncorrectable
  deriving DecidableEq, Repr

/-- The decode of a read whose stored word differs from a codeword by an error pattern, P among it where the line is poisoned. -/
def decodeLine (erased : Option Nat) (e : List (Nat × Byte)) : Decoded :=
  match rsDecode erased e, rsDecode erased (e ++ poisonPattern) with
  | some f, none => .clean f
  | none, some _ => .poisoned
  | _, _ => .uncorrectable

end Sys2Proof.Machine
end

