-- ==== Sys2Proof/Machine/Integrity.lean ====
section
/-!
DEFINITION. Integrity of stored data (chapter 12): decodes of Loft lines, line recovery, hard faults and their remedies, parity errors, the scan engine and the Gleaner.
-/

namespace Sys2Proof.Machine

/-! ### Places -/

/-- The place of a Loft line (R272, R273). -/
def State.placeOf (s : State) (dpa : Nat) : LinePlace :=
  let (c, a) := s.channelOf dpa
  let (sub, rank, group, bank, row, column) := splitAddress a
  { channel := c, sub, rank, group, bank, row, column }

/-- The row of a place. -/
def rowOf (l : LinePlace) : LinePlace := { l with column := 0 }

/-- Two places lie in one (subchannel, rank) of a channel. -/
def sameRank (a b : LinePlace) : Bool := decide (a.channel = b.channel ∧ a.sub = b.sub ∧ a.rank = b.rank)

/-- The lowest bit of a rank's mark in ERASED. -/
def markBit (l : LinePlace) : Nat := 4 * (4 * l.sub + l.rank)

/-- The device marked erased in the rank of a place (R302). -/
def State.erasedAt (s : State) (l : LinePlace) : Option Nat :=
  let v := s.fld (pDC l.channel) 0x100 (markBit l + 3) (markBit l)
  if v = 15 then none else some v

/-! ### The end of a recovery in poison (R307, R308, R317, R318) -/

/-- A queue pair moved to ERROR by the device itself (R318). -/
def State.qpLost (s : State) (n : Nat) : State :=
  let q := s.qp n
  if q.state ≠ .ready then s
  else
    let f := inc32 q.cmsn
    ((s.setQp n { q with state := .error, failMsn := f, failCause := 0xF2 }).fire pTC 4).publish pTC 0x0A8 [0xF2 * 2 ^ 20 + n, f] 64

/-- A window that faults every access: its descriptor, or its object's entry, is lost (R318). -/
def State.windowLost (s : State) (idx : Nat) : State :=
  if (s.window idx).valid then (s.setWindow idx { s.window idx with valid := false }).freeCached idx 0 else s

/-- Windows lost, in order. -/
def State.windowsLost (s : State) : List Nat → State
  | [] => s
  | i :: l => (s.windowLost i).windowsLost l

/-- Map entries lost: they read as POISONED. -/
def State.mapsLost (s : State) : List Nat → State
  | [] => s
  | i :: l =>
    let page := if i < 2 ^ 30 then i else cellarBase + (i - 2 ^ 30)
    (s.changeMap page { s.mapOf page with state := .poisoned, loc := 0, hint := 0 }).mapsLost l

/-- What a reserve line held stops being used; it is published with REMEDY 5. -/
def State.reserveLost (s : State) (dpa : Nat) : State :=
  let o := dpa - s.reserveBase
  let r := s.regionOf (pageOf dpa)
  if dpa < s.reserveBase then s
  else
    let s : State :=
      if o < 0x10000000 then s.qpLost (o / 256)
      else if o < 0x20000000 then s
      else if o < 0x40000000 then
        let id := (o - 0x20000000) / 32
        s.windowsLost ((s.aliases id ++ s.aliases (id + 1)).map (·.1))
      else if o < 0x80000000 then s.windowLost ((o - 0x40000000) / 64)
      else if o < 0x15C0000000 then
        let i := (o - 0x80000000) / 5
        s.mapsLost (List.range' i ((o - 0x80000000 + 63) / 5 + 1 - i))
      else s
    (((s.publish (pRG r) 0x198 [5 * 2 ^ 28, 0, dpa / 16384] 64).fire (pRG r) 10).fire (pRG r) 13)

/-- A line beyond recovery written as poisoned; reads that wait go on; the poison records are published. -/
def State.lineLost (s : State) (dpa : Nat) : State :=
  let line := dpa / 64
  let page := pageOf dpa
  let r := s.regionOf page
  let s := match KM.get s.loft.recov line with
    | some (_, true) => s.notePass r false fun p => { p with poisoned := p.poisoned + 1 }
    | _ => s
  let s := (s.poisonLine line).recovered line
  let object := (s.mapOf page).object
  let s := (s.poisonRecords page object (if s.tenantsOf object = [] then [0] else s.tenantsOf object)).fire (pRG r) 12
  s.reserveLost (line * 64)

/-! ### Line recovery (R307, R308) -/

/-- The step of a line's recovery changed. -/
def State.recovStep (s : State) (line step : Nat) : State :=
  { s with loft.recov := KM.upd s.loft.recov line fun p => (step, p.2) }

/-- Step 2, the Cellar shadow, where the page is clean and has one; else step 3. -/
def State.recovShadow (s : State) (line : Nat) : State :=
  let page := line / 256
  let e := s.mapOf page
  if e.state = .mapped ∧ s.isDirty page = false then (s.recovStep line 2).park e.loc page 0 (.line (line * 64))
  else s.lineLost (line * 64)

/-- Step 1, the twin's copy, in PAIRED; else the next step. -/
def State.recovStart (s : State) (line : Nat) : State :=
  if s.pair = 1 then
    match s.askTwin (line * 64) 64 2 (.line (line * 64)) with
    | (true, s) => s.recovStep line 1
    | (false, s) => s.recovShadow line
  else s.recovShadow line

/-- Lines that wait for an entry take those that are free. -/
def State.recovKick (fuel : Nat) (s : State) (r : Nat) : State :=
  match fuel with
  | 0 => s
  | fuel + 1 =>
    match s.recovNext r with
    | none => s
    | some line => (s.recovStart line).recovKick fuel r

/-- A line goes into recovery. -/
def State.recover (s : State) (line : Nat) (glean : Bool) : State :=
  if s.recovering line then s
  else ({ s with loft.recov := KM.put s.loft.recov line (0, glean) }).recovKick 2 (s.regionOf (line / 256))

/-- A recovery step has failed: the next one. -/
def State.recovFails (s : State) (line : Nat) : State :=
  let r := s.regionOf (line / 256)
  (match KM.get s.loft.recov line with
   | some (1, _) => s.recovShadow line
   | some (2, _) => s.lineLost (line * 64)
   | _ => s).recovKick 64 r

/-- The shadow of a page has a line intact: its bytes. -/
def State.shadowLine (s : State) (line : Nat) : Option (List Byte) :=
  match KM.get s.cellar.flash (s.mapOf (line / 256)).loc with
  | some f =>
    if s.opens f ∧ line % 256 ∉ f.poison then some (contentRange (some f) (line % 256 * 64) 64).1 else none
  | none => none

/-- A recovery step ends. The twin's copy is taken where READ_DATA brings it; here the shadow is, or the step fails. -/
def execLineRecoveryDone (dpa : Nat) (ok : Bool) (s : State) : Res :=
  .next (
    let line := dpa / 64
    match KM.get s.loft.recov line with
    | some (2, _) =>
      (match if ok then s.shadowLine line else none with
       | some bs => (s.lineStored dpa bs true 0x194).recovKick 64 (s.regionOf (line / 256))
       | none => s.recovFails line)
    | some _ => if ok then s else s.recovFails line
    | none => s)

/-! ### Hard faults (R309 to R313) -/

/-- The correction memory of a region. -/
def State.corr (s : State) (r : Nat) : List CorrEntry := KM.getD [] s.integ.corr r

/-- The correction memory changed, and CORR_USED. -/
def State.setCorr (s : State) (r : Nat) (l : List CorrEntry) : State :=
  ({ s with integ.corr := KM.putD [] s.integ.corr r l }).setFld (pRG r) 0x184 24 16 l.length

/-- A hard-fault result published (R328). -/
def State.hardResult (s : State) (l : LinePlace) (remedy device page : Nat) : State :=
  let r := l.channel / 6
  let w := remedy * 2 ^ 28 + device * 2 ^ 24 + l.channel * 2 ^ 16 + l.sub * 2 ^ 15 + l.rank * 2 ^ 13 + l.group * 2 ^ 10 + l.bank * 2 ^ 8
  (s.publish (pRG r) 0x198 [w, l.column * 2 ^ 18 + l.row, page] 64).fire (pRG r) 10

/-- The device that DEVICE shows: 0xF for several. -/
def deviceField : List Nat → Nat
  | [d] => d
  | _ => 15

/-- The banks of a device and rank with lines classified hard in the last 24 h. -/
def State.hardBanks (s : State) (l : LinePlace) (d : Nat) : List Nat :=
  (s.integ.hard.filter fun h => sameRank h.line l && h.device == d && decide (s.rtcSeconds < h.time + 86400)).foldl
    (fun a h => insertSorted (h.line.group * 4 + h.line.bank) a) []

/-- A device is blamed. -/
def State.blamed (s : State) (l : LinePlace) (most d : Nat) : Bool :=
  decide (4 < most ∨ s.fld (pRG (l.channel / 6)) 0x180 3 0 ≤ (s.hardBanks l d).length)

/-- The key of a device's bank group. -/
def groupKey (l : LinePlace) (d : Nat) : Nat := (((l.channel * 2 + l.sub) * 4 + l.rank) * 8 + l.group) * 16 + d

/-- A soft repair is free in the bank group on each device. -/
def State.repairFree (s : State) (l : LinePlace) (devs : List Nat) : Bool :=
  devs.all fun d => decide (KM.getD 0 s.integ.used (groupKey l d) < Config.repairRows (groupKey l d))

/-- A second device of a rank is blamed: the channel fails, and its region follows (R313). -/
def State.secondDevice (s : State) (l : LinePlace) (d page : Nat) : State :=
  ((((s.hardResult l 4 d page).retirePage (pDC l.channel) 9).fire (pDC l.channel) 8).failRegion (l.channel / 6))

/-- A device marked erased: the entries that list only it are freed. -/
def State.markDevice (s : State) (l : LinePlace) (d page : Nat) : State :=
  let r := l.channel / 6
  let s := (s.setFld (pDC l.channel) 0x100 (markBit l + 3) (markBit l) d).fire (pDC l.channel) 6
  (s.setCorr r ((s.corr r).filter fun e => !(sameRank e.line l && e.devs.flatten.all (· == d)))).hardResult l 0 d page

/-- A soft repair of a row begins, and its hard repair is due. -/
def State.softRepair (s : State) (l : LinePlace) (devs : List Nat) (page : Nat) : State :=
  let x : SoftRepair := { row := rowOf l, devs }
  let used := devs.foldl (fun m d => KM.put m (groupKey l d) (KM.getD 0 m (groupKey l d) + 1)) s.integ.used
  let s := { s with integ.soft := s.integ.soft ++ [x], integ.used := used }
  let i := s.channelInfo l.channel
  let s := s.setChannelInfo l.channel { i with repairs := i.repairs ++ [(l.rank, l.row)] }
  (s.makeDue l.channel).hardResult l 1 (deviceField devs) page

/-- A line classified hard receives the first remedy that fits. -/
def State.hardLine (s : State) (l : LinePlace) (page most : Nat) (devs : List Nat) : State :=
  let r := l.channel / 6
  let s := s.bump (pRG r) 0x18C
  let s := { s with integ.hard := (s.integ.hard.filter fun (h : HardLine) => decide (s.rtcSeconds < h.time + 86400)) ++
                                    devs.map fun d => ({ time := s.rtcSeconds, line := l, device := d } : HardLine) }
  let one := match devs with | [d] => if s.blamed l most d then some d else none | _ => none
  match one, s.erasedAt l with
  | some d, none => s.markDevice l d page
  | some d, some _ => s.secondDevice l d page
  | none, _ =>
    if s.repairFree l devs then s.softRepair l devs page
    else if (s.integ.retiring.filter fun p => s.regionOf p == r).length < s.fld (pRG r) 0x184 8 0 then
      ({ s with integ.retiring := insertSorted page s.integ.retiring }).hardResult l 2 (deviceField devs) page
    else s.hardResult l 3 (deviceField devs) page

/-- The entry that a full memory gives up: the oldest last correction among those with one correction, else the oldest overall. -/
def evictEntry (l : List CorrEntry) : Option CorrEntry :=
  let pick := fun (x : List CorrEntry) => x.foldl (fun (a : Option CorrEntry) e => match a with
    | some b => if e.newer < b.newer then some e else some b
    | none => some e) none
  match pick (l.filter fun e => e.older.isNone) with
  | some e => some e
  | none => pick l

/-- A correction noted (R309): its devices, and the most symbols corrected in one of them. -/
def State.noteCorrection (s : State) (l : LinePlace) (page : Nat) (devs : List Nat) (most : Nat) : State :=
  let r := l.channel / 6
  let t := s.rtc
  let mem := s.corr r
  match mem.find? fun e => decide (e.line = l) with
  | none =>
    let x : CorrEntry := { line := l, newer := t, devs := [devs], most }
    if mem.length < 256 then s.setCorr r (mem ++ [x])
    else
      match evictEntry mem with
      | some e => (s.setCorr r (mem.erase e ++ [x])).bump (pRG r) 0x188
      | none => s
  | some e =>
    let rest := mem.erase e
    let all := devs :: e.devs
    let most := max most e.most
    match e.older with
    | some o =>
      if t < o + 86400 * 1024 then
        (s.setCorr r rest).hardLine l page most ((all.take 3).flatten.foldl (fun a d => insertSorted d a) [])
      else s.setCorr r (rest ++ [{ e with older := some e.newer, newer := t, devs := all.take 3, most }])
    | none => s.setCorr r (rest ++ [{ e with older := some e.newer, newer := t, devs := all.take 3, most }])

/-- A correction counts towards the retrain trigger unless its line is classified hard (R287, R306). -/
def State.countError (s : State) (l : LinePlace) : State :=
  if s.integ.hard.any fun h => decide (h.line = l) then s
  else
    let i := s.channelInfo l.channel
    let errors := s.now :: i.errors.filter fun t => decide (s.now < t + 3600 * second)
    let s := s.setChannelInfo l.channel { i with errors }
    if s.num (pRG (l.channel / 6)) 0x144 < errors.length then s.makeDue l.channel else s

/-! ### Decodes (R301, R302, R304 to R306) -/

/-- Two patterns put the same errors into the 80 symbols. -/
def samePattern (a b : List (Nat × Byte)) : Bool := (List.range 80).all fun i => errorAt a i = errorAt b i

/-- A word stored in place of a line that is not the line: what it decrypts to is a free value (log 2). -/
def State.garbleLine (s : State) (dpa : Nat) : Nat → State
  | 0 => s
  | n + 1 =>
    let (v, s) := s.fresh
    (s.loftPut dpa (leBytes 8 v.toNat)).garbleLine (dpa + 8) n

/-- Symbols corrected in a device. -/
def inDevice (fix : List (Nat × Byte)) (d : Nat) : Nat := (fix.filter fun p => symbolDevice p.1 = d).length

/-- WB_MAX with a write-back more: its time from the decode to the DIMM is a free value within the 2 µs of R304 (log 39). -/
def State.noteWriteback (s : State) (p : Nat) : State :=
  let (f, s) := s.fresh
  s.setMax p 0x110 (f.toNat % 2001)

/-- A line decoded clean with corrections: written back, counted and noted. A correction to another codeword is written back as well, and the line holds what that decrypts to. -/
def State.corrected (s : State) (dpa : Nat) (fix : List (Nat × Byte)) (right : Bool) (reader : LineReader) : State :=
  let l := s.placeOf dpa
  let p := pDC l.channel
  let mark := s.erasedAt l
  let devs := (List.range 10).filter fun d => decide (0 < inDevice fix d ∧ some d ≠ mark)
  let most := devs.foldl (fun m d => max m (inDevice fix d)) 0
  if devs = [] then s.bump p 0x114
  else
    let s := { s with hist.corrected := s.hist.corrected + 1 }
    let s := s.bump p 0x104
    let s : State := if reader = .scan then s
      else
        let s := ((s.bump p 0x10C).bump p 0x050).noteWriteback p
        if right then s else (s.garbleLine (dpa / 64 * 64) 8).setPoison (dpa / 64) false
    let s := if reader = .gleaner then
        s.notePass (l.channel / 6) false fun x => { x with corrected := x.corrected + 1, most := max x.most fix.length }
      else s
    let hard := s.num (pRG (l.channel / 6)) 0x18C
    let s := (s.countError l).noteCorrection l (pageOf dpa) devs most
    if reader = .gleaner ∧ hard < s.num (pRG (l.channel / 6)) 0x18C then s.notePass (l.channel / 6) false fun x => { x with hard := x.hard + 1 } else s

/-- A Loft line is read with an error pattern in its 80 symbols, and decoded in the mode of its rank. -/
def execLoftLineDecode (dpa : Nat) (errors : List (Nat × Byte)) (reader : LineReader) (s : State) : Res :=
  .next (
    let line := dpa / 64
    let l := s.placeOf dpa
    let p := pDC l.channel
    let errors := errors.filter fun e => decide (e.1 < 80)
    if s.loftTop ≤ dpa ∨ s.recovering line then s
    else
      let bad := s.poisoned line
      let s := (s.rowHit dpa).bump p 0x04C
      match decodeLine (s.erasedAt l) (if bad then errors ++ poisonPattern else errors) with
      | .clean fix =>
        let right := !bad && samePattern fix errors
        let s := if reader = .demand then s.bump (pXT l.channel) 0x048 else s
        if fix = [] ∧ right then s else s.corrected dpa fix right reader
      | .poisoned =>
        let s := s.bump p 0x11C
        let s := if reader = .demand then s.bump (pXT l.channel) 0x04C else s
        let s := if bad ∨ reader = .scan then s else s.poisonLine line
        if reader = .gleaner then s.notePass (l.channel / 6) false fun x => { x with found := x.found + 1 } else s
      | .uncorrectable =>
        let s := (s.bump p 0x108).fireLimited p 7
        if reader = .scan then s else s.recover line (reader = .gleaner))

/-- A soft repair of a row ends: its bank is unblocked (R311). -/
def execSoftRepairDone (channel sub rank group bank row : Nat) (s : State) : Res :=
  .next (
    let l : LinePlace := { channel, sub, rank, group, bank, row, column := 0 }
    if s.integ.soft.any fun x => decide (x.row = l) && x.running then
      let s := { s with integ.soft := s.integ.soft.map fun (x : SoftRepair) => if x.row = l then { x with running := false } else x }
      s.setFld (pDC channel) 0x118 15 0 (s.fld (pDC channel) 0x118 15 0 + 1)
    else s)

/-- Sense-margin probes of a region yield the spare page they use, and are tried again (R425). -/
def State.yieldSense (s : State) (r : Nat) : State :=
  { s with age.running := s.age.running.filter fun m => !decide (400 ≤ m ∧ (m - 400) / 6 = r) }

/-- The copy of a retired page is complete: the remap table sends its accesses to a spare page (R312). It waits while the object page's migration lock is held. -/
def execPageRetireDone (page : Nat) (s : State) : Res :=
  .next (
    let r := s.regionOf page
    let e := s.mapOf page
    let free := s.fld (pRG r) 0x184 8 0
    if page ∉ s.integ.retiring ∨ (KM.get s.win.locks (lockKey e.object e.index)).isSome ∨ free = 0 then s
    else
      let s := { s with integ.retiring := s.integ.retiring.filter (· ≠ page), integ.remap := KM.put s.integ.remap page (256 - free) }
      let s := (s.setFld (pRG r) 0x184 8 0 (free - 1)).yieldSense r
      if free - 1 < 32 then s.fire (pRG r) 11 else s)

/-! ### Parity (R321) -/

/-- A parity error of a data path. -/
def execParityError (page : Nat) (path : ParityPath) (s : State) : Res :=
  .next (
    let s := ((s.bump pCHK 0x078).setFld pCHK 0x07C 13 0 page).fireLimited pCHK 2
    match path with
    | .write a =>
      (match s.fab.placements.find? fun p => p.trig.arrival == a with
       | some p => ({ s with fab.placements := s.fab.placements.erase p }).notFresh p.qpn p.trig.psn
       | none => s)
    | .read q m rs off again =>
      if again then
        { s with fab.reads := s.fab.reads.map fun (j : ReadJob) =>
            if j.qpn = q ∧ j.msn = m ∧ j.resend = rs then
              { j with got := (j.left.filter fun p => p.1 == off).map (fun p => (p.1, contentRange none ((j.offset + p.1) % 16384) p.2)) ++
                                j.got.filter fun g => g.1 ≠ off }
            else j }
      else s
    | .control h => s.emit (.handshake h true))

/-! ### The scan engine (R322 to R324) -/

/-- The bits of a byte, highest first, or lowest first where the algorithm reflects. -/
def byteBits (reflect : Bool) (b : Byte) : List Bool :=
  let l := (List.range 8).map b.getLsbD
  if reflect then l else l.reverse

/-- One bit taken into a check register of w bits. -/
def crcShift (w : Nat) (poly r : BitVec 64) (b : Bool) : BitVec 64 :=
  let top := r.getLsbD (w - 1) != b
  let r := (r <<< 1) &&& BitVec.ofNat 64 (2 ^ w - 1)
  if top then r ^^^ poly else r

/-- The low w bits of a register in reverse order. -/
def reflectBits (w : Nat) (r : BitVec 64) : BitVec 64 :=
  (List.range w).foldl (fun a i => if r.getLsbD i then a ||| (1 <<< (w - 1 - i)) else a) 0

/-- A check value: width, polynomial, initial value, reflection, final value. -/
def crcOf (w : Nat) (poly init : BitVec 64) (reflect : Bool) (xor : BitVec 64) (bs : List Byte) : Nat :=
  let r := bs.foldl (fun r b => (byteBits reflect b).foldl (crcShift w poly) r) init
  ((if reflect then reflectBits w r else r) ^^^ xor).toNat

/-- The check value of a polynomial (table "Scan engine polynomials"). -/
def scanValue (poly : Nat) (bs : List Byte) : Nat :=
  match poly with
  | 0 => crcOf 32 0x1EDC6F41 0xFFFFFFFF true 0xFFFFFFFF bs
  | 1 => crcOf 32 0x04C11DB7 0xFFFFFFFF true 0xFFFFFFFF bs
  | 2 => crcOf 64 0x42F0E1EBA9EA3693 0 false 0 bs
  | _ => crcOf 16 0x1021 0xFFFF false 0 bs

/-- A scan ends: its result is published. -/
def State.endScan (s : State) (poly outcome : Nat) (bs : List Byte) : State :=
  let v := scanValue poly bs
  let s := ({ s with integ.scan := none }).setFld pCHK 0x040 31 31 0
  let v := if outcome = 3 ∨ outcome = 4 then 0 else v
  (s.publish pCHK 0x050 [v % 2 ^ 32, v / 2 ^ 32, bs.length / 64, outcome] 1).fire pCHK 3

/-- Polynomials other than CRC-32C are allowed now (R323). -/
def State.polyAllowed (s : State) : Bool := s.pg pPKG = .starting || s.pg pCHK = .drill || decide (s.phase = 6)

/-- The range of a scan is valid for its source. -/
def State.scanRange (s : State) (source addr len : Nat) : Bool :=
  match source with
  | 0 => decide (addr % 64 = 0 ∧ len % 64 = 0 ∧ 0 < len ∧ addr + len ≤ s.loftTop)
  | 1 => decide (0 < len ∧ addr + len ≤ s.win.cellarPages)
  | 2 => decide (0 < len ∧ addr + len ≤ 2 ^ 26)
  | _ => decide (0 < len)

/-- A write of SCAN_CTRL with START. -/
def execScanStart (req : Requester) (data : Word) (s : State) : Res :=
  .next (s.guarded req pCHK fun s =>
    if bit data 31 = false then s
    else
      let s := s.writeFields pCHK 0x040 data
      let source := s.fld pCHK 0x040 1 0
      let poly := s.fld pCHK 0x040 5 4
      let addr := s.reg64 pCHK 0x044 0x048
      let len := s.num pCHK 0x04C
      if s.integ.scan.isSome then s
      else if poly ≠ 0 ∧ s.polyAllowed = false then s.endScan poly 3 []
      else if s.scanRange source addr len = false then s.endScan poly 4 []
      else ({ s with integ.scan := some { source, addr, len, poly } }).setFld pCHK 0x040 31 31 1)

/-- Bytes a scan covers: a Cellar page has 16,416 B of user data. -/
def scanBytes (x : Scan) : Nat := if x.source = 1 then x.len * 16416 else x.len

/-- Where a scan meets its first poisoned Loft line, or the first Cellar page stored with poison, in bytes from its start. -/
def State.scanPoison (s : State) (x : Scan) : Option Nat :=
  match x.source with
  | 0 => (s.loft.poison.find? fun p => decide (x.addr ≤ p.1 * 64 ∧ p.1 * 64 < x.addr + x.len)).map fun p => p.1 * 64 - x.addr
  | 1 =>
    ((s.win.map.filter fun p => decide (cellarBase + x.addr ≤ p.1 ∧ p.1 < cellarBase + x.addr + x.len)).find? fun p =>
        match KM.get s.cellar.flash p.2.loc with
        | some f => p.2.state = MapState.mapped && f.poison ≠ []
        | none => false).map fun p => (p.1 - cellarBase - x.addr) * 16416
  | _ => none

/-- What a scan reads: the Attic's array from the state; what the other sources gave, stored ciphertext or host memory, from the command. -/
def State.scanData (s : State) (x : Scan) (bytes : List Byte) : List Byte :=
  if x.source = 2 then (List.range x.len).map fun i => s.atticByte (x.addr + i) else bytes.take (scanBytes x)

/-- A write of SCAN_CTRL with ABORT: the scan ends at the 64 B boundary after the bytes read so far. -/
def execScanAbort (req : Requester) (data : Word) (bytes : List Byte) (s : State) : Res :=
  .next (s.guarded req pCHK fun s =>
    if bit data 30 = false then s
    else
      let s := s.writeFields pCHK 0x040 data
      match s.integ.scan with
      | none => s
      | some x =>
        let n := min bytes.length ((s.scanPoison x).getD (scanBytes x)) / 64 * 64
        s.endScan x.poly 1 ((s.scanData x bytes).take n))

/-- A scan ends: at the end of its range, at poison, or at a source error. -/
def execScanDone (bytes : List Byte) (ok : Bool) (s : State) : Res :=
  .next (match s.integ.scan with
    | none => s
    | some x =>
      let d := s.scanData x bytes
      match s.scanPoison x with
      | some n => if ok ∨ n ≤ d.length then s.endScan x.poly 2 (d.take n) else s.endScan x.poly 5 d
      | none => s.endScan x.poly (if ok ∧ d.length = scanBytes x then 0 else 5) d)

/-! ### The Gleaner (R325 to R327) -/

/-- The Gleaner page of a region. -/
def pGL (r : Nat) : Nat := 0x0300 + 0x20 * r + 2

/-- LINES_PER_SLICE of a pass that starts now. -/
def State.sliceLines (s : State) (r : Nat) : Nat :=
  let n := s.fld (pGL r) 0x040 7 0 * 36000000
  (s.loftTop / 64 / s.regions + n - 1) / n

/-- A Cellar page read with EARLY_WARN, or not decoded, in a glean slice: rewritten by relocation, or sent down the ladder. -/
def State.gleanPages (s : State) (warn : Bool) : List Nat → State
  | [] => s
  | p :: l =>
    let e := s.mapOf p
    let r := s.regionOf p
    if e.state ≠ .mapped then s.gleanPages warn l
    else if warn then ((s.earlyWarn e.loc).notePass r true fun x => { x with corrected := x.corrected + 1 }).gleanPages warn l
    else
      let s := (s.park e.loc p 0 .glean).notePass r true fun x => { x with recovered := x.recovered + 1 }
      (match s.cellar.misses.find? fun (m : Miss) => m.loc == e.loc && m.step == 1 with
       | some m => s.stepFails m
       | none => s).gleanPages warn l

/-- A glean slice has read lines and Cellar pages, some of them with EARLY_WARN or a failed decode; or it is cut. It pauses while its region does not serve. -/
def execGleanSlice (region lines pages : Nat) (warns fails : List Nat) (cut : Bool) (s : State) : Res :=
  .next (if s.regions ≤ region ∨ s.regionMode region ≠ .normal ∨ 2 ≤ s.phase ∧ s.phase ≤ 5 then s
    else
      let p := pGL region
      let s := if s.num p 0x050 = 0 then s.setNum p 0x050 (s.sliceLines region) else s
      let s := if cut then (s.bump p 0x054).fireLimited p 0 else s
      let note := fun (n : Nat) (x : GleanPass) =>
        { x with start := if x.units = 0 then s.rtc else x.start, units := x.units + n, cut := x.cut + b2n cut }
      let s := if bit (s.reg p 0x040) 31 then
          let n := min lines (s.num p 0x050)
          let pos := s.num p 0x044 + 2 ^ 32 * s.fld p 0x048 3 0 + n
          ((s.setNum p 0x044 (pos % 2 ^ 32)).setFld p 0x048 3 0 (pos / 2 ^ 32)).notePass region false (note n)
        else s
      if bit (s.reg p 0x040) 30 then
        (((s.setNum p 0x04C (s.num p 0x04C + pages)).notePass region true (note pages)).gleanPages true warns).gleanPages false fails
      else s)

/-- The first 60 bytes of a summary (table "Glean summary"). -/
def State.summaryBytes (s : State) (r : Nat) (cellar : Bool) (x : GleanPass) : List Byte :=
  let n := s.num (pGL r) (if cellar then 0x05C else 0x058)
  leBytes 1 (1 + b2n cellar) ++ leBytes 1 r ++ leBytes 2 0 ++ leBytes 4 n ++ leBytes 8 x.start ++ leBytes 8 s.rtc ++ leBytes 8 x.units ++
    leBytes 4 x.corrected ++ leBytes 4 x.recovered ++ leBytes 4 x.found ++ leBytes 4 x.poisoned ++ leBytes 4 x.hard ++ leBytes 4 x.cut ++
    leBytes 2 x.most ++ leBytes 2 0

/-- Bytes as 32-bit words, least significant byte first. -/
def wordsOf : Nat → List Byte → List Nat
  | 0, _ => []
  | n + 1, bs => leNat (bs.take 4) :: wordsOf n (bs.drop 4)

/-- A pass of the Gleaner ends: its summary goes to the History Recorder and is published; the next pass starts at once. -/
def execGleanPassEnd (region : Nat) (cellar : Bool) (s : State) : Res :=
  .next (if s.regions ≤ region then s
    else
      let p := pGL region
      let x := KM.getD {} s.integ.passes (2 * region + b2n cellar)
      let s := s.bump p (if cellar then 0x05C else 0x058)
      let bs := s.summaryBytes region cellar x
      let bs := bs ++ leBytes 4 (crc32c bs).toNat
      let s := s.noteGlean x.start bs
      let s := if s.publishFull p 0x064 4 then s.bump p 0x060 else s.publish p 0x064 (wordsOf 16 bs) 4
      let s := { s with integ.passes := KM.put s.integ.passes (2 * region + b2n cellar) { start := s.rtc } }
      let s := if cellar then s.setNum p 0x04C 0 else ((s.setNum p 0x044 0).setFld p 0x048 3 0 0).setNum p 0x050 (s.sliceLines region)
      s.fire p 1)

/-- The Gleaner's positions are saved in the Attic, each hour. -/
def execGleanPositionSave (region : Nat) (s : State) : Res :=
  .next (if s.regions ≤ region then s
    else
      let p := pGL region
      { s with integ.positions := KM.put s.integ.positions region (s.num p 0x044 + 2 ^ 32 * s.fld p 0x048 3 0, s.num p 0x04C) })

end Sys2Proof.Machine
end

