-- ==== Sys2Proof/Machine/Rx.lean ====
section
/-!
DEFINITION. Packets arriving on the fabric: the receive checks of R106, the NAKs, the admission of WRITE and READ, the miss queues, PROBEs, and
the placement of WRITE payloads (chapters 04 to 06).
-/

namespace Sys2Proof.Machine

/-! ### Fields of a packet -/

/-- n bytes at an offset, in network order. -/
def be (b : List Byte) (off n : Nat) : Nat := beNat ((b.drop off).take n)

/-- The base header and trailer of a packet (tables "PXT base header" and "PXT trailer"). -/
structure Pxt where
  ver : Nat
  low : Nat
  opcode : Nat
  flags : Nat
  addr : Nat
  psn : Nat
  msn : Nat
  words : Nat
  tx : Nat
  plen : Nat
  fold : Nat
  icrc : Nat
  deriving DecidableEq, Repr

/-- A UDP payload as a packet. -/
def parsePxt (b : List Byte) : Pxt :=
  { ver := be b 0 1 / 16, low := be b 0 1 % 16, opcode := be b 1 1, flags := be b 2 2, addr := be b 4 4, psn := be b 8 4, msn := be b 12 4,
    words := be b 16 1, tx := be b 17 1, plen := be b 18 2, fold := be b (b.length - 8) 4, icrc := be b (b.length - 4) 4 }

/-- PLANE. -/
def Pxt.plane (h : Pxt) : Nat := h.addr / 2 ^ 28 % 8
/-- DQPN. -/
def Pxt.dqpn (h : Pxt) : Nat := h.addr % 2 ^ 20
/-- FLAGS.ACK_REQ. -/
def Pxt.ackReq (h : Pxt) : Bool := h.flags.testBit 15
/-- FLAGS.POISON. -/
def Pxt.poison (h : Pxt) : Bool := h.flags.testBit 14
/-- FLAGS.SEALED. -/
def Pxt.isSealed (h : Pxt) : Bool := h.flags.testBit 13
/-- FLAGS.RESEND. -/
def Pxt.resend (h : Pxt) : Bool := h.flags.testBit 11

/-! ### Format (step 7: R93 to R95, R103, R147) -/

/-- The first failing check of a list in ascending byte offset. -/
def firstBad : List (Nat × Bool) → Option Nat
  | [] => none
  | (o, b) :: l => if b then some o else firstBad l

/-- Checks of the base header: reserved bits, flags defined for the opcode, words of the extensions it must carry, payload length. -/
def baseChecks (h : Pxt) (flagsOk words : Nat) (plenOk : Bool) (len : Nat) : List (Nat × Bool) :=
  [(0, decide (h.low ≠ 0)),
   (2, !clearBits h.flags (0xFFFF - flagsOk)),
   (4, decide (h.addr / 2 ^ 31 ≠ 0 ∨ h.addr / 2 ^ 20 % 256 ≠ 0)),
   (16, decide (h.words ≠ words)),
   (18, !plenOk || decide (len ≠ 4 * h.words + h.plen + (if h.isSealed then 16 else 0) + 8))]

/-- Lines a payload touches, from its window offset and length. -/
def linesTouched (woff len : Nat) : Nat := (woff % 64 + len + 63) / 64

/-- Checks of the extension header at an offset: type, words, and the reserved bytes after them. -/
def extChecks (b : List Byte) (o ty words : Nat) : List (Nat × Bool) :=
  [(o, decide (be b o 1 ≠ ty)), (o + 1, decide (be b (o + 1) 1 ≠ words))]

/-- Checks of a WRITE. -/
def writeChecks (h : Pxt) (b : List Byte) : List (Nat × Bool) :=
  let woff := be b 28 8 + be b 40 4
  let po := if h.isSealed then 60 else 44
  let map := be b (po + 4) 8
  baseChecks h 0xE000 (5 + 6 + (if h.isSealed then 4 else 0) + (if h.poison then 3 else 0)) (decide (1 ≤ h.plen ∧ h.plen ≤ 4096)) b.length ++
  extChecks b 20 0x01 6 ++
  [(22, decide (be b 22 2 ≠ 0)), (36, decide (be b 36 4 = 0 ∨ 2 ^ 30 < be b 36 4)), (40, decide (be b 36 4 < be b 40 4 + h.plen))] ++
  (if h.isSealed then extChecks b 44 0x08 4 ++ [(46, decide (1 < be b 46 1)), (47, decide (be b 47 1 ≠ 0))] else []) ++
  (if h.poison then extChecks b po 0x09 3 ++ [(po + 2, decide (be b (po + 2) 2 ≠ 0)),
     (po + 4, decide (map = 0 ∨ 64 < linesTouched woff h.plen ∨ 2 ^ linesTouched woff h.plen ≤ map))] else [])

/-- Checks of a READ. -/
def readChecks (h : Pxt) (b : List Byte) : List (Nat × Bool) :=
  baseChecks h 0x8800 12 (decide (h.plen = 0)) b.length ++ extChecks b 20 0x02 7 ++
  [(22, decide (be b 22 2 ≠ 0)), (36, decide (be b 36 4 = 0 ∨ 2 ^ 30 < be b 36 4)),
   (40, if h.resend then decide (be b 36 4 < be b 40 4 + be b 44 4) else decide (be b 40 4 ≠ 0)),
   (44, if h.resend then decide (be b 44 4 = 0) else decide (be b 44 4 ≠ 0))]

/-- MARK extensions of a MARK_ECHO: plane, CE_BYTES, TOTAL_BYTES. -/
def marksOf (b : List Byte) : Nat → Nat → List (Nat × Nat × Nat)
  | 0, _ => []
  | k + 1, o => (be b (o + 2) 1, be b (o + 4) 4, be b (o + 8) 4) :: marksOf b k (o + 12)

/-- Checks of the MARK extensions from an offset on; planes rise strictly and are enabled in the peer entry. -/
def markChecks (b : List Byte) (planeEn : Nat) : Nat → Nat → Nat → List (Nat × Bool)
  | 0, _, _ => []
  | k + 1, o, least =>
    let p := be b (o + 2) 1
    extChecks b o 0x05 3 ++
    [(o + 2, decide (7 < p ∨ p < least) || !planeEn.testBit p), (o + 3, decide (be b (o + 3) 1 ≠ 0)),
     (o + 4, decide (be b (o + 8) 4 < be b (o + 4) 4))] ++ markChecks b planeEn k (o + 12) (p + 1)

/-- Number of MARK extensions that HDR_WORDS gives. -/
def markCount (h : Pxt) : Nat := min 8 (max 1 ((h.words - 5) / 3))

/-- Checks of a MARK_ECHO. -/
def echoChecks (h : Pxt) (b : List Byte) (planeEn : Nat) : List (Nat × Bool) :=
  baseChecks h 0 (5 + 3 * markCount h) (decide (h.plen = 0)) b.length ++ markChecks b planeEn (markCount h) 20 0

/-- The NAK of a format failure: MSG_TOO_LONG where MSG_LEN is beyond 1 GiB, else BAD_FORMAT with the offset of the field. -/
def formatNak (h : Pxt) (b : List Byte) (o : Nat) : Nat × Nat :=
  if o = 36 ∧ h.opcode ≠ 4 ∧ 2 ^ 30 < be b 36 4 then (0x22, 0) else (0x20, o)

/-! ### Access check (step 9: R67) -/

/-- The window table line, and the object table line, of a window are poisoned, so that the structure is out of use (R318). -/
def State.descriptorLost (s : State) (idx object : Nat) : Bool :=
  s.poisoned ((s.reserveBase + 0x40000000 + 64 * idx) / 64) || s.poisoned ((s.reserveBase + 0x20000000 + 32 * object) / 64)

/-- The first window page of a range that is a hole. -/
def State.firstHole (s : State) (o : Object) (first : Nat) : List Nat → Option Nat
  | [] => none
  | p :: l => if (s.objectPage o (first + p)).isNone then some p else s.firstHole o first l

/-- The window pages a range touches. -/
def windowPages (woff len : Nat) : List Nat := List.range' (woff / 16384) ((woff + len - 1) / 16384 + 1 - woff / 16384)

/-- The cause of an access fault with its DETAIL, none where the access is granted. -/
def State.accessFault (s : State) (tenant handle woff len : Nat) (write : Bool) : Option (Nat × Nat) :=
  let w := s.window (handle / 256)
  let o := s.object w.object
  if handle / 256 = 0 ∨ w.valid = false ∨ s.descriptorLost (handle / 256) w.object then some (1, 0)
  else if w.tenant ≠ tenant then some (2, 0)
  else if w.revoking then some (3, 0)
  else if w.gen ≠ handle % 256 then some (4, 0)
  else if (write ∧ w.write = false) ∨ (write = false ∧ w.read = false) then some (5, 0)
  else if w.sizePages * 16384 < woff + len then some (6, 0)
  else match s.firstHole o w.firstPage (windowPages woff len) with
    | some p => some (7, p)
    | none => none

/-- The syndrome a cause maps to (table "Window fault causes"). -/
def faultSyndrome (cause : Nat) : Nat :=
  match cause with
  | 1 => 0x10
  | 2 => 0x10
  | 3 => 0x11
  | 4 => 0x11
  | 5 => 0x12
  | 6 => 0x13
  | _ => 0x14

/-- An access fault noted: WINDOW_FAULTS, the last-fault registers, and the event. -/
def State.noteFault (s : State) (tenant handle cause : Nat) : State :=
  let s := (s.bump pTC 0x05C).setNum pTC 0x060 handle
  (s.setNum pTC 0x064 (tenant * 2 ^ 20 + cause)).fire pTC 1

/-- A range of window space as pieces of object pages: object page, offset in it, length. -/
def pieces (first woff : Nat) : Nat → Nat → List (Nat × Nat × Nat)
  | 0, _ => []
  | fuel + 1, len =>
    if len = 0 then []
    else
      let n := min len (16384 - woff % 16384)
      (first + woff / 16384, woff % 16384, n) :: pieces first (woff + n) fuel (len - n)

/-! ### Refusals -/

/-- A packet refused with a NAK: its PSN is under way no more, its message fails where the syndrome says so, and the NAK is owed. -/
def State.refuse (s : State) (n : Nat) (t : Trigger) (syn detail retry : Nat) (msn : Option Nat) : State :=
  let s := s.notFresh n t.psn
  let s := s.owe n t (some (syn, detail, retry))
  match msn with
  | some m => s.failMessage n m syn
  | none => s

/-- A packet received (R97, R128): its bit, and the ACK causes it brings. -/
def State.received (s : State) (n : Nat) (t : Trigger) (ackReq : Bool) : State :=
  let s := s.receive n t.psn
  let q := s.qp n
  let d := match q.delay with | some d => d | none => (t, s.now)
  let s := s.setQp n { q with sinceAck := q.sinceAck + 1, lastRx := some t, delay := some d }
  if ackReq ∨ q.ackEvery ≤ q.sinceAck + 1 then s.owe n t none else s

/-- A duplicate: counted, and answered with an ACK (R122). -/
def State.duplicate (s : State) (n : Nat) (t : Trigger) : State :=
  let q := s.qp n
  ((s.setQp n { q with dupPkts := min (q.dupPkts + 1) 0xFFFFFFFF }).bump pTC 0x0A4).owe n t none

/-! ### Admission (step 11: R124, R167, R219, R228, R235, R239) -/

/-- The appliance has fenced its fabric service: no lease and no verdict, YIELDED, not yet paired, or joining. -/
def State.fenced (s : State) : Bool :=
  match s.pair with
  | 3 => false
  | 1 => !s.leaseHeld
  | 2 => !s.leaseHeld
  | 5 => !s.leaseHeld || (match s.twin.resync with | some r => !r.sender && !r.resume | none => true)
  | _ => true

/-- A ROLE_SWAP withholds new write messages from a window. -/
def State.swapping (s : State) (idx : Nat) : Bool :=
  match s.twin.swap with
  | some w => decide (w.first ≤ idx ∧ idx ≤ w.last)
  | none => false

/-- No tracker is available to a queue pair. -/
def State.noTracker (s : State) (n : Nat) : Bool :=
  decide (65536 ≤ s.fab.trackers.length ∨ 1024 ≤ (s.qp n).openMsgs)

/-- RETRY_AFTER of a HOLD with DETAIL 5. -/
def State.trkRetry (s : State) : Nat := s.fld pTC 0x180 31 16

/-- Object pages of a request with the pages that back them. -/
def State.backing (s : State) (o : Object) (ps : List (Nat × Nat × Nat)) : List Nat := ps.filterMap fun p => s.objectPage o p.1

/-- A WRITE admitted (R167): its pages are charged to the object's owner, its message has a tracker, and it is on its way to placement. -/
def State.takeWrite (s : State) (n : Nat) (h : Pxt) (b : List Byte) (t : Trigger) : State :=
  let q := s.qp n
  let handle := be b 24 4
  let offset := be b 28 8
  let woff := offset + be b 40 4
  let w := s.window (handle / 256)
  let o := s.object w.object
  let ps := pieces w.firstPage woff 3 h.plen
  let pages := s.backing o ps
  let new := s.newlyDirty pages
  let s := s.chargeWrites o.owner pages
  let s := if (s.tracker n h.msn).isNone then
      s.newTracker n h.msn { read := false, handle, offset, msgLen := be b 36 4, lastArrival := s.now }
    else s
  let key := be b 46 1
  let hdr := 4 * h.words
  let aad := ((b.take hdr).set 17 0)
  let aad := (aad.set 4 (BitVec.ofNat 8 (be b 4 1 % 16))).set 2 (BitVec.ofNat 8 (be b 2 1 % 128))
  let po := if h.isSealed then 60 else 44
  { s with hist.admitted := s.hist.admitted + 1, fab.placements := s.fab.placements ++
    [{ qpn := n, trig := t, msn := h.msn, handle, woff, object := w.object, pieces := ps,
       newPages := (ps.filter fun p => match s.objectPage o p.1 with | some x => decide (x ∈ new) | none => false).map (·.1),
       owner := o.owner, fold := h.fold, poison := if h.poison then be b (po + 4) 8 else 0,
       sealing := if h.isSealed then some (if key = 0 then q.rxKey0 else q.rxKey1, (b.drop 48).take 12, aad, key) else none,
       tag := (b.drop (hdr + h.plen)).take 16, payload := (b.drop hdr).take h.plen, ackReq := h.ackReq }] }

/-- A WRITE that has passed steps 1 to 8 (R94, R101, R167): steps 9 to 11, then its way to placement. -/
def State.rxWrite (s : State) (n : Nat) (h : Pxt) (b : List Byte) (t : Trigger) : State :=
  let q := s.qp n
  let handle := be b 24 4
  let offset := be b 28 8
  let len := be b 36 4
  let woff := offset + be b 40 4
  let idx := handle / 256
  let w := s.window idx
  let o := s.object w.object
  match s.accessFault q.tenant handle woff h.plen true with
  | some (c, d) => (s.noteFault q.tenant handle c).refuse n t (faultSyndrome c) d 0 (some h.msn)
  | none =>
    if s.homeHere idx = false ∧ s.pair = 1 then (s.noteFault q.tenant handle 5).refuse n t 0x12 0 0 (some h.msn)
    else if q.sealReq ∧ h.isSealed = false then s.refuse n t 0x24 0 0 (some h.msn)
    else if h.isSealed ∧ q.rxKey0 = 0 ∧ q.rxKey1 = 0 then s.refuse n t 0x20 2 0 (some h.msn)
    else
      let tr := s.tracker n h.msn
      let mismatch := match tr with
        | some x => x.read || decide (x.handle ≠ handle ∨ x.offset ≠ offset ∨ x.msgLen ≠ len)
        | none => false
      if mismatch then s.refuse n t 0x23 h.msn 0 none
      else if s.fenced ∨ s.homeHere idx = false ∨ (tr.isNone ∧ s.swapping idx) then s.refuse n t 0x01 4 50000 none
      else
        let ps := pieces w.firstPage woff 3 h.plen
        let pages := s.backing o ps
        let regions := s.regionsOf pages
        match s.admitModes h.plen regions with
        | (some (d, r), s) => s.refuse n t 0x01 d r none
        | (none, s) =>
          if tr.isNone ∧ s.noTracker n then s.refuse n t 0x01 5 s.trkRetry none
          else
            match s.admitRegions o.owner pages regions with
            | (some r, s) => s.refuse n t 0x01 1 r none
            | (none, s) => s.takeWrite n h b t

/-- A range of a read message cut at every window offset that is a multiple of 4,096 (R96): message offset and length of each piece. -/
def cutRead (offset : Nat) : Nat → Nat → Nat → List (Nat × Nat)
  | 0, _, _ => []
  | fuel + 1, moff, len =>
    if len = 0 then []
    else
      let n := min len (4096 - (offset + moff) % 4096)
      (moff, n) :: cutRead offset fuel (moff + n) (len - n)

/-- The first region of a list that can serve no read: in an outage without a healthy twin (R25). -/
def State.deadRegion (s : State) (rs : List Nat) : Option Nat :=
  if s.twinHealthy then none else rs.find? fun r => decide (s.regionMode r = .outage)

/-- A READ admitted (R135): its message has a tracker, whose TRIGGER is the READ itself (DEDUCED, log 48), its data is fetched, and it is received. -/
def State.takeRead (s : State) (n : Nat) (h : Pxt) (b : List Byte) (t : Trigger) : State :=
  let q := s.qp n
  let handle := be b 24 4
  let offset := be b 28 8
  let len := be b 36 4
  let moff := if h.resend then be b 40 4 else 0
  let rlen := if h.resend then be b 44 4 else len
  let w := s.window (handle / 256)
  let s := if h.resend then s else
    s.newTracker n h.msn { read := true, handle, offset, msgLen := len, lastArrival := s.now, trigger := some t }
  let s := if h.resend then s else s.tallyAdd q.tenant 2 1
  let j : ReadJob := { arrival := t.arrival, qpn := n, msn := h.msn, resend := h.resend, handle, offset, msgLen := len, object := w.object,
                       firstPage := w.firstPage, left := cutRead offset (rlen / 4096 + 2) moff rlen }
  let s := ({ s with fab.reads := s.fab.reads ++ [j], hist.admitted := s.hist.admitted + 1 }).startRead j
  s.received n t h.ackReq

/-- A READ that has passed steps 1 to 8 (R95, R135, R137): steps 9 and 11, then it is received. -/
def State.rxRead (s : State) (n : Nat) (h : Pxt) (b : List Byte) (t : Trigger) : State :=
  let q := s.qp n
  let handle := be b 24 4
  let offset := be b 28 8
  let len := be b 36 4
  let moff := if h.resend then be b 40 4 else 0
  let rlen := if h.resend then be b 44 4 else len
  let w := s.window (handle / 256)
  let o := s.object w.object
  match s.accessFault q.tenant handle (offset + moff) rlen false with
  | some (c, d) => (s.noteFault q.tenant handle c).refuse n t (faultSyndrome c) d 0 (some h.msn)
  | none =>
    if s.fenced then s.refuse n t 0x01 4 50000 none
    else
      let ps := pieces w.firstPage (offset + moff) (rlen / 16384 + 2) rlen
      match s.deadRegion (s.regionsOf (s.backing o ps)) with
      | some r => let (x, s) := s.outageRetry r; s.refuse n t 0x01 3 x none
      | none =>
        if h.resend = false ∧ (s.tracker n h.msn).isSome then s.refuse n t 0x23 h.msn 0 none
        else if h.resend = false ∧ s.noTracker n then s.refuse n t 0x01 5 s.trkRetry none
        else s.takeRead n h b t

/-! ### Classification (step 8: R111, R122, R123) -/

/-- The state code that refuses a request, if any. -/
def stateRefuses (q : Qp) (m : Nat) (resend : Bool) : Option Nat :=
  match q.state with
  | .init => some 1
  | .closing => some 4
  | .error => if resend = false ∧ precedes m q.failMsn = false then some 3 else none
  | .ready => none
  | .free => some 0

/-- An arrival of a message noted in its tracker, and for message CMSN + 1 (R127). -/
def State.noteArrival (s : State) (n m : Nat) : State :=
  let s := match s.tracker n m with
    | some x => s.setTracker n m { x with lastArrival := s.now }
    | none => s
  let q := s.qp n
  if m = inc32 q.cmsn then s.setQp n { q with headArrival := s.now } else s

/-- A PSN under way, with a reorder slot where the queue pair needs one (R123). -/
def State.takePsn (s : State) (n psn : Nat) (needs : Bool) : State :=
  let q := s.qp n
  let s := s.setQp n { q with slot := q.slot || needs, fresh := insertSorted psn q.fresh }
  if needs then s.showSlots else s

/-- Step 8 of a WRITE or READ, then its further steps. -/
def State.rxRequest (s : State) (n : Nat) (h : Pxt) (b : List Byte) (t : Trigger) : State :=
  let q := s.qp n
  let resend := h.opcode = 2 ∧ h.resend
  let s := s.noteArrival n h.msn
  let d := dist32 q.cumPsn h.psn
  let dm := dist32 q.cmsn h.msn
  match stateRefuses q h.msn resend with
  | some code => s.owe n t (some (0x26, code, 0))
  | none =>
    if precedes h.psn q.cumPsn ∨ h.psn ∈ q.received then s.duplicate n t
    else if 4096 ≤ d then s.owe n t (some (0x27, q.cumPsn, 0))
    else if (resend = false) ∧ (dm = 0 ∨ 1024 < dm) then s.owe n t (some (0x27, q.cumPsn, 0))
    else
      let needs := decide (h.psn ≠ q.cumPsn) && !q.slot
      if needs ∧ 8192 ≤ s.num pTC 0x09C then (s.bump pTC 0x0A0).fireLimited pTC 7
      else
        let s := s.takePsn n h.psn needs
        if h.opcode = 1 then s.rxWrite n h b t else s.rxRead n h b t

/-! ### From step 5 on -/

/-- The register of a port's block. -/
def portReg (port off : Nat) : Nat := 0x080 + 0x20 * port + off

/-- Saturation of a 32-bit count. -/
def sat32 (n : Nat) : Nat := min n 0xFFFFFFFF

/-- MARK counts of an accepted MARK_ECHO added to the peer-plane inputs (R147). -/
def State.addEchoes (s : State) (peer : Nat) : List (Nat × Nat × Nat) → State
  | [] => s
  | (p, ce, total) :: l =>
    let v := s.pp peer p
    (s.setPp peer p { v with echoCe := sat32 (v.echoCe + ce), echoTotal := sat32 (v.echoTotal + total) }).addEchoes peer l

/-- IP length of an arriving packet (R98). -/
def ipLength (f : Frame) : Nat := (if f.v6 then 48 else 28) + f.payload.length

/-- The source of a packet is its queue pair's peer, at the address the peer has on the plane (step 5). -/
def State.sourceOk (s : State) (f : Frame) : Bool :=
  let q := s.qp (parsePxt f.payload).dqpn
  match s.peer q.peer with
  | some e => decide (q.state ≠ .free ∧ e.addr.getD f.port 0 = f.srcIp)
  | none => false

/-- The planes enabled in the peer entry of a queue pair. -/
def State.planesOf (s : State) (n : Nat) : Nat := match s.peer (s.qp n).peer with | some e => e.planeEn | none => 0

/-- A packet of a known source counted: the port's and the queue pair's counts, the marks and the arrival on the peer's plane (R120, R144). -/
def State.countPacket (s : State) (f : Frame) : State :=
  let n := (parsePxt f.payload).dqpn
  let q := s.qp n
  let en := s.planesOf n
  let s := s.bump pFPC (portReg f.port 0x04)
  let v := s.pp q.peer f.port
  let len := ipLength f
  let s := s.setPp q.peer f.port { v with seen := sat32 (v.seen + len), marked := if f.ecn = 3 then sat32 (v.marked + len) else v.marked,
                                          lastArrival := s.now }
  let s := if en.testBit f.port then s.ppUp q.peer f.port else s
  let s := s.setQp n { q with rxPkts := (q.rxPkts + 1) % 2 ^ 64, lastActivity := s.now / 1000 % 2 ^ 32 }
  { s with fab.arrivals := s.fab.arrivals + 1 }

/-- What the answers to a packet take from it. -/
def State.triggerOf (s : State) (f : Frame) : Trigger :=
  { arrival := s.fab.arrivals, plane := f.port, udpSrc := f.udpSrc, psn := (parsePxt f.payload).psn, txCount := (parsePxt f.payload).tx }

/-- The request sampler sees a WRITE or READ (R472). -/
def State.sampleRequest (s : State) (f : Frame) : State :=
  let b := f.payload
  let h := parsePxt b
  if h.opcode = 1 ∨ h.opcode = 2 then
    s.samplePacket { arrival := s.fab.arrivals, opcode := h.opcode, flags := b2n h.resend + 2 * b2n h.isSealed, txCount := h.tx, plane := f.port, qpn := h.dqpn,
                     tenant := (s.qp h.dqpn).tenant, len := h.plen, handle := be b 24 4, psn := h.psn, msn := h.msn, time := s.rtc }
  else s

/-- A packet served by its opcode: steps 6 and 7. -/
def State.serveFrame (s : State) (f : Frame) (delay : Nat) (t : Trigger) : State :=
  let b := f.payload
  let h := parsePxt b
  let n := h.dqpn
  let peer := (s.qp n).peer
  if h.opcode = 8 then
    s.sendCtrl (s.ctrl peer f.port f.udpSrc 0x09 0 (be b 24 4 % 2 ^ 20) 0 0 0 ((b.drop 20).take 20 ++ beBytes 4 delay))
  else if h.opcode = 9 then
    let v := s.pp peer f.port
    if v.probeId = some (be b 28 4) then s.setPp peer f.port { v with probeId := none, unanswered := 0 } else s
  else if h.opcode = 4 then
    match firstBad (echoChecks h b (s.planesOf n)) with
    | some o => s.owe n t (some (0x20, o, 0))
    | none => s.addEchoes peer (marksOf b (markCount h) 20)
  else if h.opcode = 1 ∨ h.opcode = 2 then
    match firstBad (if h.opcode = 1 then writeChecks h b else readChecks h b) with
    | some o => s.refuse n t (formatNak h b o).1 (formatNak h b o).2 0 (some h.msn)
    | none => s.rxRequest n h b t
  else s.owe n t (some (0x21, h.opcode, 0))

/-- A packet whose queue pair is at hand: the source check of step 5, the marks, then by opcode. -/
def State.rxPacket (s : State) (f : Frame) (delay : Nat) : State :=
  if s.sourceOk f = false then s.bump pFPC (portReg f.port 0x14)
  else
    let s := s.countPacket f
    (s.sampleRequest f).serveFrame f delay (s.triggerOf f)

/-! ### The miss queues (R116, R117) -/

/-- The miss queue of a plane. -/
def State.missq (s : State) (p : Nat) : List Waiting := KM.getD [] s.fab.missq p

/-- A miss queue changed, with its depth register. -/
def State.setMissq (s : State) (p : Nat) (l : List Waiting) : State :=
  ({ s with fab.missq := KM.putD [] s.fab.missq p l }).setNum pTC (0x0E0 + 4 * p) l.length

/-- A packet dropped at a miss queue. -/
def State.missDrop (s : State) (p : Nat) : State := (s.bump pTC (0x0C0 + 4 * p)).fireLimited pTC 6 second p

/-- A packet waits for its context, unless the queue is full. -/
def State.waitMiss (s : State) (f : Frame) (delay n : Nat) : State :=
  if 1024 ≤ (s.missq f.port).length then s.missDrop f.port
  else (s.setMissq f.port (s.missq f.port ++ [{ qpn := n, frame := f, delay, since := s.now }])).fetchQpc n

/-- An entry found: the most recently used of its set. -/
def State.touchQpc (s : State) (n : Nat) : State :=
  match s.qpcEntry n with
  | some e => s.setWays n (e :: (s.ways n).filter fun x => x.qpn ≠ n)
  | none => s

/-- A hit on an entry: an eviction not yet issued is cancelled, the entry is the most recently used, and the hit is counted (R115, R117). -/
def State.hitQpc (s : State) (n : Nat) (e : QpcEntry) : State :=
  let s := if e.victim then
      ((s.setWays n ((s.ways n).map fun x => if x.qpn = n then { x with victim := false } else x)).bump pTC 0x088).touchQpc n |>.kick n
    else s.touchQpc n
  s.bump pTC 0x080

/-- The lookup of step 5: a hit proceeds, and cancels an eviction not yet issued; a miss, or a context being written back, waits. -/
def State.lookupQp (s : State) (f : Frame) (delay : Nat) : State :=
  let n := (parsePxt f.payload).dqpn
  match s.qpcEntry n with
  | none => (s.bump pTC 0x084).waitMiss f delay n
  | some e =>
    if e.issued then (s.bump pTC 0x08C).waitMiss f delay n
    else (s.hitQpc n e).rxPacket f delay

/-! ### Frames (steps 1 to 4: R86, R105, R106) -/

/-- The VLAN check of a port. -/
def State.vlanOk (s : State) (f : Frame) : Bool :=
  let c := s.reg pFPC (portReg f.port 0)
  match f.vlan with
  | none => f.tags = 0 && bit c 13
  | some v => f.tags = 1 && decide (v = bits c 11 0)

/-- The frame checks of R86. -/
def State.frameOk (s : State) (f : Frame) : Bool :=
  let pl := s.plane f.port
  let own := if f.v6 then pl.ip6 else 0xFFFF00000000 + pl.ip4
  s.vlanOk f && f.headerOk && !f.fragment && decide (f.dstIp = own) && bit (s.reg pFPC 0x040) (if f.v6 then 17 else 16) &&
    decide (f.udpDst = s.fld pFPC 0x040 15 0 ∧ 0xC000 ≤ f.udpSrc ∧ 28 ≤ f.payload.length) &&
    (if f.udpSumZero then !f.v6 else f.udpSumOk)

/-- A frame arrives: a silent drop where the fabric is dark, the port does not run or the FCS fails; then steps 2 to 5. -/
def State.rxFrame (s : State) (f : Frame) (delay : Nat) : State :=
  let b := f.payload
  let h := parsePxt b
  if s.fabricDark ∨ s.planes ≤ f.port ∨ s.portRuns f.port = false ∨ f.fcsOk = false then s
  else if s.frameOk f = false then s.bump pFPC (portReg f.port 0x08)
  else if (crc32c (b.take (b.length - 4))).toNat ≠ h.icrc then s.bump pFPC (portReg f.port 0x0C)
  else if h.ver ≠ 1 then s.bump pFPC (portReg f.port 0x10)
  else if h.plane ≠ f.port then (s.bump pFPC (portReg f.port 0x10)).fireLimited pFPC 0 second f.port
  else (s.lookupQp f delay).settleAll

/-- A WRITE packet arrives. -/
def execPxtWriteRx (f : Frame) (s : State) : Res := .next (s.rxFrame f 0)

/-- A READ packet arrives. -/
def execPxtReadRx (f : Frame) (s : State) : Res := .next (s.rxFrame f 0)

/-- A MARK_ECHO arrives. -/
def execMarkEchoRx (f : Frame) (s : State) : Res := .next (s.rxFrame f 0)

/-- A PROBE arrives; the reply leaves after a delay in ns that it reports (R99). -/
def execProbeRx (f : Frame) (delay : Nat) (s : State) : Res := .next (s.rxFrame f (min delay 50000))

/-- A PROBE_REPLY arrives. -/
def execProbeReplyRx (f : Frame) (s : State) : Res := .next (s.rxFrame f 0)

/-- A frame that fails the frame checks. -/
def execNonPxtFrameRx (f : Frame) (s : State) : Res :=
  .next (if s.fabricDark ∨ s.planes ≤ f.port ∨ s.portRuns f.port = false ∨ f.fcsOk = false ∨ s.frameOk f then s
    else s.bump pFPC (portReg f.port 0x08))

/-- An ARP, ND or echo frame (R88): the VLAN check; at most 64 queued, and 10,000 admitted in a second. -/
def execExceptionFrameRx (kind : ExceptionKind) (f : Frame) (s : State) : Res :=
  .next (if s.planes ≤ f.port ∨ s.portRuns f.port = false ∨ f.fcsOk = false then s
    else if s.vlanOk f = false then s.bump pFPC (portReg f.port 0x08)
    else
      let v := s.plane f.port
      let sec := s.now / second
      let n := if v.second = sec then v.admitted else 0
      if 64 ≤ v.exceptions.length ∨ 10000 ≤ n then (s.bump pFPC (portReg f.port 0x1C)).fire pFPC 2
      else
        let s := s.bump pFPC (portReg f.port 0x18)
        if s.pairRuns then (s.setPlane f.port { v with admitted := n + 1, second := sec }).emit (.exception f.port kind)
        else s.setPlane f.port { v with admitted := n + 1, second := sec, exceptions := v.exceptions ++ [kind] })

/-! ### Fetches and write-backs (R115 to R117) -/

/-- Packets that waited for a context proceed, in arrival order. -/
def State.proceed (s : State) : List Waiting → State
  | [] => s
  | w :: l => (s.rxPacket w.frame w.delay).proceed l

/-- Packets waiting for a queue pair taken out of the miss queue of each plane. -/
def State.takeWaiting (s : State) (n : Nat) : List Nat → List Waiting × State
  | [] => ([], s)
  | p :: ps =>
    let mine := (s.missq p).filter fun w => w.qpn == n
    let s := if mine = [] then s else s.setMissq p ((s.missq p).filter fun w => w.qpn ≠ n)
    let (rest, s) := s.takeWaiting n ps
    (mine ++ rest, s)

/-- A fetch ends (R116, R117): a stale one is discarded and looked up again; else the context is installed and its packets proceed. A context that is not
valid is not kept. -/
def execQpcFetchDone (qpn : Nat) (s : State) : Res :=
  .next (match s.fab.fetches.find? fun f => f.qpn == qpn && f.issued with
    | none => s
    | some f =>
      let rest := s.fab.fetches.filter fun x => x.qpn ≠ qpn
      if f.stale then
        ({ s with fab.fetches := rest ++ [({ qpn, issued := true, stale := false } : QpcFetch)] }).bump pTC 0x058
      else
        let s := { s with fab.fetches := rest }
        let s := s.setWays qpn ({ qpn, dirty := false } :: s.ways qpn)
        let (ws, s) := s.takeWaiting qpn (List.range 8)
        let s := s.proceed ws
        let s := if (s.qp qpn).state = .free then s.dropEntry qpn else s
        (s.kick qpn).settleAll)

/-- A packet has waited 20 µs since every way of its set is held (R116): the oldest such packet of the plane is dropped. -/
def execMissqWaitExpire (plane : Nat) (s : State) : Res :=
  .next (match (s.missq plane).find? fun w => s.fab.fetches.any fun f => f.qpn == w.qpn && !f.issued && (s.ways w.qpn).all fun e => s.heldQp e.qpn with
    | none => s
    | some w =>
      let s := (s.setMissq plane ((s.missq plane).erase w)).missDrop plane
      if (List.range 8).any fun p => (s.missq p).any fun x => x.qpn == w.qpn then s
      else { s with fab.fetches := s.fab.fetches.filter fun f => f.qpn ≠ w.qpn })

/-- A write-back ends (R115, R117): the Loft copy is current, the way is free, and the fetches that wait find ways. -/
def execQpcWritebackDone (qpn : Nat) (s : State) : Res :=
  .next (match s.qpcEntry qpn with
    | none => s
    | some e =>
      if e.issued = false then s
      else
        let s := { s with fab.saved := KM.putD {} s.fab.saved qpn (s.qp qpn) }
        s.dropEntry qpn)

/-! ### Placement (steps 12 and 13: R100, R105, R125, R163 to R166) -/

/-- The object page a migration works on. -/
def headPage (m : Migration) : Option Nat :=
  match m.work with
  | (p, _, _) :: _ => some p
  | [] => none

/-- The page stands still for a switch of MIGRATE or its stall: writes to it wait (R82). -/
def State.stalled (s : State) (object i : Nat) : Bool :=
  s.win.migrations.any fun m => decide (m.object = object ∧ (m.phase = .stalled ∨ m.phase = .switching) ∧ headPage m = some i)

/-- Lines written while a migration copies their page, noted for its next round (R82). -/
def State.noteLines (s : State) (object i off n : Nat) : State :=
  { s with win.migrations := s.win.migrations.map fun m =>
      if m.object = object ∧ headPage m = some i then
        { m with lines := (linesOf off n).foldl (fun l x => insertSorted x l) m.lines }
      else m }

/-- One piece of a packet placed; its segments of the mirror frame, and the page. -/
def State.placePiece (s : State) (p : Placement) (i off : Nat) (bs : List Byte) (map : Nat) : List Segment × List Nat × State :=
  match s.objectPage (s.object p.object) i with
  | none => ([], [], s)
  | some page =>
    let s := (s.placeIn page off bs map).noteLines p.object i off bs.length
    (s.segmentsOf (page * 16384 + off) p.owner map (decide (i ∈ p.newPages)) bs, [page], s)

/-- The pieces of a packet placed in order: the payload and the poison map run on from one to the next. -/
def State.placePieces (s : State) (p : Placement) (bs : List Byte) (map : Nat) : List (Nat × Nat × Nat) → List Segment × List Nat × State
  | [] => ([], [], s)
  | (i, off, n) :: l =>
    let k := linesTouched off n
    let (a, pa, s) := s.placePiece p i off (bs.take n) (map % 2 ^ k)
    let (b, pb, s) := s.placePieces p (bs.drop n) (map / 2 ^ k) l
    (a ++ b, pa ++ pb, s)

/-- The plaintext of a packet, where its tag verifies; the key of a slot being rewritten serves the requests from before the rewrite (R340). -/
def State.openPacket (s : State) (p : Placement) : Option (List Byte) :=
  match p.sealing with
  | none => some p.payload
  | some (n, nonce, aad, _) =>
    let k := s.slot n
    if k.state ≠ .empty ∧ Config.gcmOk k.key nonce aad p.payload p.tag then some (Config.gcmOpen k.key nonce p.payload) else none

/-- A sealed packet that must wait for a rewrite of its key slot (R340). -/
def State.waitsRewrite (s : State) (p : Placement) : Bool :=
  match p.sealing with
  | none => false
  | some (n, _, _, _) => decide ((s.slot n).state = .shadowed ∧ (s.slot n).preRewrite < p.trig.arrival)

/-- An admitted packet placed and forked to the mirror. -/
def State.placePacket (s : State) (p : Placement) (data : List Byte) : State :=
  let (segs, pages, s) := s.placePieces p data p.poison p.pieces
  let q := s.qp p.qpn
  let n := p.payload.length
  let s := s.setQp p.qpn { q with rxBytes := (q.rxBytes + n) % 2 ^ 64 }
  let s := s.tallyAdd q.tenant 1 n
  let s := if p.sealing.isSome then s.tallyAdd q.tenant 6 n else s
  let s := match s.tracker p.qpn p.msn with
    | some x => s.setTracker p.qpn p.msn { x with placed := x.placed + n, single := x.placed = 0 && decide (x.msgLen ≤ n), trigger := if x.msgLen ≤ x.placed + n then some p.trig else x.trigger }
    | none => s
  let s := s.sendSeq (.mirrorData segs) [(p.qpn, p.msn, n)] pages
  (s.received p.qpn p.trig p.ackReq).judge p.qpn p.msn

/-- An admitted packet reaches its placement point. -/
def execPacketPlacement (qpn psn : Nat) (s : State) : Res :=
  .next (match s.fab.placements.find? fun p => p.qpn == qpn && p.trig.psn == psn with
    | none => s
    | some p =>
      if (p.pieces.any fun x => s.stalled p.object x.1) ∨ s.waitsRewrite p then s
      else
        let s := { s with fab.placements := s.fab.placements.erase p }
        let q := s.qp qpn
        (if precedes psn q.cumPsn ∨ psn ∈ q.received then s.duplicate qpn p.trig
         else
           match s.openPacket p with
           | none =>
             let key := match p.sealing with | some (_, _, _, k) => k | none => 0
             (s.bump pLD 0x05C).refuse qpn p.trig 0x25 key 0 (some p.msn)
           | some data =>
             if p.fold ≠ foldOf p.handle p.woff then ((s.bump pFPC 0x048).fire pFPC 1).notFresh qpn psn
             else s.placePacket p data).settleAll)

/-! ### Timers of a queue pair (R127, R128) and PROBEs (R120) -/

/-- ACK_DELAY has passed since the first packet received after the last ACK. -/
def execAckDelayExpire (qpn : Nat) (s : State) : Res :=
  .next (match (s.qp qpn).delay, (s.qp qpn).lastRx with
    | some _, some t => (s.owe qpn t none).settleAll
    | _, _ => s)

/-- A message times out (R127); one that has already failed does not. -/
def execTrackerTimeout (qpn msn : Nat) (s : State) : Res :=
  .next (
    let q := s.qp qpn
    let fail := fun c => (((s.failMessage qpn msn c).bump pTC 0x098).fire pTC 5).settleAll
    if (s.tracker qpn msn).isSome then fail 0xF0
    else if msn = inc32 q.cmsn ∧ ¬(q.state = .error ∧ msn = q.failMsn) ∧ (s.openOf qpn).any (fun p => !p.2.read && decide (p.2.state = .mirrored)) then fail 0xF1
    else s)

/-- A PROBE sent to a peer on a plane. -/
def State.sendProbe (s : State) (peer plane id : Nat) (e : Peer) : State :=
  let ext := [0x07, 6, BitVec.ofNat 8 plane, 0] ++ beBytes 4 e.probeLocal ++ beBytes 4 id ++ beBytes 8 s.now ++ beBytes 4 0
  let src := 0xC000 + ((s.qp e.probeLocal).entropyBase + plane) % 16384
  let s := s.setPp peer plane { s.pp peer plane with probeId := some id, probeAt := s.now }
  (s.bump pFPC 0x190).sendCtrl (s.ctrl peer plane src 0x08 0 e.probePeer 0 0 0 ext)

/-- The device probes a peer on a plane: the peer has a queue pair in READY, the plane is enabled and in service. -/
def State.mayProbe (s : State) (peer plane : Nat) (e : Peer) : Bool :=
  s.peerReady peer && e.planeEn.testBit plane && s.inService plane && !s.fabricDark

/-- PROBE_IDLE has passed without a packet from a peer on a plane. -/
def execProbeIdleExpire (peer plane : Nat) (s : State) : Res :=
  .next (match s.peer peer with
    | none => s
    | some e =>
      let v := s.pp peer plane
      if s.mayProbe peer plane e = false ∨ (v.up ∧ v.probeId.isSome) then s
      else ({ s with fab.nextProbe := (s.fab.nextProbe + 1) % 2 ^ 32 }).sendProbe peer plane s.fab.nextProbe e)

/-- A PROBE stays unanswered for PROBE_TIMEOUT. -/
def execProbeTimeoutExpire (peer plane : Nat) (s : State) : Res :=
  .next (match s.peer peer with
    | none => s
    | some e =>
      let v := s.pp peer plane
      match v.probeId with
      | none => s
      | some id =>
        let s := s.bump pFPC 0x194
        let s := s.setPp peer plane { v with unanswered := v.unanswered + 1, probeId := none }
        if v.up = false then s
        else if s.fld pFPC 0x184 19 16 ≤ v.unanswered + 1 then s.ppDown peer plane
        else if s.mayProbe peer plane e then s.sendProbe peer plane id e
        else s)

end Sys2Proof.Machine
end

