-- ==== Sys2Proof/Machine/Migrate.lean ====
section
/-!
DEFINITION. Migration (chapter 03, R80 to R85): the pages of an object moved between the tiers, one at a time, copy, recopy, stall and switch.
-/

namespace Sys2Proof.Machine

/-! ### What a page holds -/

/-- The plaintext of a page, as bytes that are not 0 by offset, and its poisoned lines; none where its flash copy cannot be opened or it is beyond recovery (R82, R216). -/
def State.pageData (s : State) (page : Nat) : Option (KMap Byte × List Nat) :=
  let stored := fun (loc : Nat) =>
    match KM.get s.cellar.flash loc with
    | some f => if s.opens f then some (f.data, f.poison) else none
    | none => none
  let here := fun (p : Nat) => (((KM.keep (fun a _ => a / 16384 = p) s.loft.bytes).map fun x => (x.1 - p * 16384, x.2)), (s.loft.poison.filter fun x => x.1 / 256 == p).map fun x => x.1 % 256)
  let e := s.mapOf page
  if isCellar page then
    match e.state with
    | .mapped => stored e.loc
    | .empty => some ([], [])
    | .gather =>
      (match KM.get (s.dirty (s.regionOf e.loc)).gather e.loc with
       | none => none
       | some g =>
         let (a, p) := here e.loc
         if g.present.length = 256 then some (a, p)
         else
           match g.source with
           | none => some (a, p)
           | some l =>
             (stored l).map fun f =>
               ((KM.keep (fun o _ => decide (o / 64 ∈ g.present)) a).foldl (fun m x => KM.put m x.1 x.2) (KM.keep (fun o _ => !decide (o / 64 ∈ g.present)) f.1),
                (p.filter fun i => decide (i ∈ g.present)) ++ f.2.filter fun i => !decide (i ∈ g.present)))
    | _ => none
  else if (KM.get s.loft.away page).isSome ∧ e.state = MapState.mapped then stored e.loc
  else some (here page)

/-- Bytes of a range of page data. -/
def dataRange (d : KMap Byte) (off n : Nat) : List Byte := (List.range n).map fun i => KM.getD 0 d (off + i)

/-! ### Locks and the end of a migration (R80) -/

/-- MIG_LOCKS follows the locks. -/
def State.setLocks (s : State) (l : KMap Nat) : State := ({ s with win.locks := l }).setNum pTC 0x068 l.length

/-- The migration of an operation. -/
def State.migration (s : State) (op : Nat) : Option Migration := s.win.migrations.find? fun m => m.op == op

/-- A migration changed. -/
def State.setMigration (s : State) (m : Migration) : State :=
  { s with win.migrations := s.win.migrations.map fun (x : Migration) => if x.op = m.op then m else x }

/-- The destination of the page a migration works on, once it is claimed. -/
def claimed (m : Migration) : Option Nat :=
  match m.work with
  | (_, d, _) :: _ => if m.phase = .claim then none else some d
  | [] => none

/-- The destination of the page a migration works on released, on both appliances, and its lock given back. -/
def State.dropPage (s : State) (m : Migration) : State :=
  let s := match claimed m with
    | some d =>
      let s := s.releasePage d
      s.mirrorMeta (s.mapRecords [d]) [d]
    | none => s
  match m.work with
  | (i, _, _) :: _ => if KM.get s.win.locks (lockKey m.object i) = some m.op then s.setLocks (KM.del s.win.locks (lockKey m.object i)) else s
  | [] => s

/-- A migration ends with a status: the page it works on stays at its source. -/
def State.endMigration (s : State) (m : Migration) (a : Answer) : State :=
  let s := s.dropPage m
  ({ s with win.migrations := s.win.migrations.filter fun x => x.op ≠ m.op }).complete m.op a

/-- Migrations ended, in order. -/
def State.endMigrations (s : State) (f : Migration → Answer) : List Migration → State
  | [] => s
  | m :: l => (s.endMigration m (f m)).endMigrations f l

/-- The twin is lost: every migration ends, as no switch can be confirmed (R84). -/
def State.loseMigrations (s : State) : State :=
  s.endMigrations (fun m => { status := stTWIN_UNAVAILABLE, r0 := m.switched }) s.win.migrations

/-- The destruction of an object ends the migration that works on it (R85). -/
def State.stopMigration (s : State) (object : Nat) : State :=
  s.endMigrations (fun m => { status := stSTATE_CONFLICT, r0 := m.switched }) (s.win.migrations.filter fun m => m.object == object)

/-! ### Beginning a page (R80 to R82, R85) -/

/-- The handle of a window that pins an object page, if any (R81). -/
def State.pinnedBy (s : State) (object i : Nat) : Option Nat :=
  ((s.aliases object).find? fun p => p.2.pinSet && decide (p.2.firstPage + p.2.pinFirst ≤ i ∧ i < p.2.firstPage + p.2.pinFirst + p.2.pinCount)).map fun p =>
    handleOf p.1 p.2.gen

/-- RESULT0 of a page whose region cannot copy now (R85): what remains of its BYPASS or of its outage. -/
def State.regionLeft (s : State) (r : Nat) : Option Nat × State :=
  match s.regionMode r with
  | .normal => (none, s)
  | .buffered => (some (s.bypassLeft r), s)
  | .outage => let (n, s) := s.outageRetry r; (some n, s)

/-- The checks of the first page of a migration, in the order of R80 to R85: the answer that ends the command, if any. -/
def State.migCheck (s : State) (m : Migration) (i dest : Nat) : Option Answer × State :=
  let o := s.object m.object
  let stop := fun (st : Nat) (r1 : Nat) => some { status := st, r0 := m.switched, r1 : Answer }
  if s.pair ≠ 1 ∧ s.pair ≠ 3 then (stop stTWIN_UNAVAILABLE 0, s)
  else
    match KM.get s.win.locks (lockKey m.object i) with
    | some other => if other = m.op then (none, s) else (some { status := stCONTENDED, r0 := m.switched, op := some other }, s)
    | none =>
      if 1024 ≤ s.win.locks.length then (some { status := stBUSY_RETRY, r0 := 20 }, s)
      else
        match s.objectPage o i with
        | none => (stop stINVALID_FIELD i, s)
        | some src =>
          if isCellar src = m.demote ∨ isCellar dest ≠ m.demote ∨ s.bindable dest = false ∨ (s.mapOf dest).state = .retired then (stop stINVALID_FIELD i, s)
          else if (s.mapOf dest).state ≠ .free then (stop stSTATE_CONFLICT i, s)
          else
            match (if m.demote then s.pinnedBy m.object i else none) with
            | some h => (stop stSTATE_CONFLICT h, s)
            | none =>
              match s.regionLeft (s.regionOf src) with
              | (some n, s) => (some { status := stBUSY_RETRY, r0 := n }, s)
              | (none, s) =>
                match s.pageData src with
                | none => (stop stPOISONED 0, s)
                | some (_, poison) =>
                  if poison ≠ [] then (stop stPOISONED 0, s)
                  else if m.demote ∧ (s.dirty (s.regionOf dest)).gatherFree = [] then
                    (some { status := stBUSY_RETRY, r0 := 100 }, s.fireLimited (pRG (s.regionOf dest)) 3)
                  else (none, s)

/-- A page begun: its lock taken and, where the budget has room and mirror credit stands, its destination claimed and charged to tenant 0 (R170, R186); else it waits. -/
def State.beginPage (s : State) (m : Migration) (i dest : Nat) : State :=
  let s := s.setLocks (KM.put s.win.locks (lockKey m.object i) m.op)
  let src := (s.objectPage (s.object m.object) i).getD 0
  if s.bar2Fits [dest] 0 then
    let s := s.changeMap dest { state := .empty, object := m.object, index := i }
    let s := s.mirrorMeta (s.mapRecords [dest]) [dest]
    let s := s.chargeWrites 0 [dest]
    s.setMigration { m with phase := .copy, source := src, todo := [], lines := [], stalled := false }
  else s.setMigration { m with phase := .claim, source := src }

/-- A migration takes up its next page, or completes. -/
def State.nextPage (s : State) (op : Nat) : State :=
  match s.migration op with
  | none => s
  | some m =>
    match m.work with
    | [] => s.endMigration m { status := stSUCCESS, r0 := m.switched, r1 := m.rounds + 2 ^ 32 * m.stalls }
    | (i, dest, _) :: _ =>
      match s.migCheck m i dest with
      | (some a, s) => s.endMigration { m with phase := .claim } a
      | (none, s) => s.beginPage m i dest

/-- A MIGRATE accepted (R77, R80): TARGET the object, PARAM0 and PARAM1 the pages, the buffer their destinations. -/
def State.migrate (s : State) (c : AdminCmd) (op : Nat) (demote : Bool) : State × Option Answer :=
  let o := s.object c.target
  if o.valid = false ∨ o.destroying ∨ c.p2 ≠ (if demote then 2 else 1) ∨ c.p1 = 0 ∨ 4096 < c.p1 ∨ o.sizePages < c.p0 + c.p1 ∨ (proper c).length < 8 * c.p1 then
    (s, bad stINVALID_FIELD)
  else if s.objectHome c.target = false ∨ s.streaming c.target then (s, bad stSTATE_CONFLICT)
  else
    let dests := (List.range c.p1).map fun k => leNat (((proper c).drop (8 * k)).take 8)
    if dests.any fun d => decide (d % 16384 ≠ 0) then (s, bad stINVALID_FIELD)
    else
      let work := (List.range c.p1).map fun k => (c.p0 + k, (dests.getD k 0) / 16384, false)
      let m : Migration := { op, object := c.target, demote, work, phase := .claim, source := 0 }
      (({ s with win.migrations := s.win.migrations ++ [m] }).nextPage op, none)

/-- MIGRATE to the Loft. -/
def execMigratePromote (c : AdminCmd) (s : State) : Res := .next (s.adminRun 0x18 c fun op s => s.migrate c op false)

/-- MIGRATE to the Cellar. -/
def execMigrateDemote (c : AdminCmd) (s : State) : Res := .next (s.adminRun 0x18 c fun op s => s.migrate c op true)

/-! ### Copying and switching (R82) -/

/-- Ranges of a page copied to its destination and forked to the mirror; the first carries NEW_PAGE where a credit was spent. -/
def State.copyRanges (s : State) (dest : Nat) (d : KMap Byte) (new : Bool) : List (Nat × Nat) → State
  | [] => s
  | (off, n) :: l =>
    let bs := dataRange d off n
    let s := s.placeIn dest off bs 0
    let s := s.sendSeq (.mirrorData (s.segmentsOf (dest * 16384 + off) 0 0 new bs)) [] [dest]
    s.copyRanges dest d false l

/-- The switch sent to the mirror: the page-list entry that will name the destination. -/
def State.sendSwitch (s : State) (m : Migration) (i dest : Nat) : State :=
  let n := s.mseqTx
  let s := s.mirrorMeta [.pageList ((s.object m.object).pageList + 8 * i) (entryValue dest)] [dest]
  s.setMigration { m with phase := .switching, switchMseq := n }

/-- A copy pass, a recopy round, or the copy under the stall ends. -/
def execMigrateCopyRoundDone (op : Nat) (s : State) : Res :=
  .next (match s.migration op with
    | none => s
    | some m =>
      match m.work with
      | [] => s
      | (i, dest, _) :: _ =>
        match m.phase with
        | .claim => s.nextPage op
        | .switching => s
        | _ =>
          match s.pageData m.source with
          | none => s.endMigration m { status := stPOISONED, r0 := m.switched }
          | some (d, poison) =>
            if poison ≠ [] then s.endMigration m { status := stPOISONED, r0 := m.switched }
            else
              let ranges := match m.phase with
                | .copy => [(0, 4096), (4096, 4096), (8192, 4096), (12288, 4096)]
                | _ => m.todo.map fun k => (64 * k, 64)
              let s := s.copyRanges dest d (m.phase = .copy) ranges
              let m : Migration := { m with rounds := m.rounds + (match m.phase with | .recopy _ => 1 | _ => 0) }
              if m.lines = [] ∨ m.phase = .stalled then s.sendSwitch m i dest
              else
                match m.phase with
                | .recopy 3 => s.setMigration { m with phase := .stalled, stalled := true, stalls := m.stalls + 1, todo := m.lines, lines := [] }
                | .recopy k => s.setMigration { m with phase := .recopy (k + 1), todo := m.lines, lines := [] }
                | _ => s.setMigration { m with phase := .recopy 1, todo := m.lines, lines := [] })

/-- The mirror has applied every frame up to an MSEQ, or the mirror condition is waived in SOLO. -/
def State.appliedTo (s : State) (mseq : Nat) : Bool := s.pair = 3 || s.twin.sent.all fun f => decide (mseq < f.frame.mseq)

/-- The mirror confirms a switch: the page-list entry is rewritten, the translation invalidated, the source released, the lock given back; then the next page. -/
def execMigrateSwitchConfirmed (op : Nat) (s : State) : Res :=
  .next (match s.migration op with
    | none => s
    | some m =>
      match m.work with
      | [] => s
      | (i, dest, _) :: rest =>
        if m.phase ≠ .switching ∨ s.appliedTo m.switchMseq = false then s
        else
          let dpa := (s.object m.object).pageList + 8 * i
          let s := ((s.chargePage (pageOf dpa) 0).countStore dpa false true).loftPut dpa (leBytes 8 (entryValue dest))
          let s := s.logPage (pageOf dpa)
          let s := s.transInvalidate fun o p => o == m.object && p == i
          let s := s.releasePage m.source
          let s := s.mirrorMeta (s.mapRecords [m.source]) [m.source]
          let s := s.setLocks (KM.del s.win.locks (lockKey m.object i))
          let s := s.setMigration { m with work := rest, phase := .claim, switched := m.switched + 1, stalled := false }
          (s.nextPage op).wakeBar2)

/-- The stall limit (R83): the page is abandoned at its source on both appliances; the command tries it once more after its other pages. -/
def execMigrateStallLimit (op : Nat) (s : State) : Res :=
  .next (match s.migration op with
    | none => s
    | some m =>
      match m.work with
      | [] => s
      | (i, dest, retry) :: rest =>
        if m.phase ≠ .stalled ∧ m.phase ≠ .switching then s
        else
          let s := s.fire pTC 3
          let s := if m.phase = .switching then
              s.mirrorMeta [.pageList ((s.object m.object).pageList + 8 * i) (entryValue m.source)] [m.source] else s
          if retry then s.endMigration m { status := stBUSY_RETRY, r0 := 100 }
          else
            let s := s.dropPage m
            (s.setMigration { m with work := rest ++ [(i, dest, true)], phase := .claim, stalled := false }).nextPage op)

end Sys2Proof.Machine
end

