-- ==== Sys2Proof/Machine/Larder.lean ====
section
/-!
DEFINITION. The Larder (chapter 13): its slots as commands change them, its requests and engines, its random numbers and alarms, and streamed opens.
-/

namespace Sys2Proof.Machine

/-! ### Slots (R329 to R331) -/

/-- Slots that no command writes, rewrites or zeroises (R330). -/
def fixedSlot (n : Nat) : Bool := n = 0 || n = 1 || n = 5 || n = 6 || n = 7

/-- A slot is the current STORAGE slot of its tenant. -/
def State.isCurrent (s : State) (n : Nat) : Bool := decide ((s.slot n).kind = 3 ∧ s.storageSlot (s.slot n).owner = n) || n = 6

/-- The key check value of a key (R335). -/
def kcvOf (key : Nat) : Nat := (Config.kcv key).toNat

/-! ### Requests (R346 to R348) -/

/-- Codes of the response descriptor. -/
def lsOK : Nat := 0
/-- TAG_FAIL. -/
def lsTAG_FAIL : Nat := 1
/-- KEY_LOST. -/
def lsKEY_LOST : Nat := 2
/-- SLOT_EMPTY. -/
def lsSLOT_EMPTY : Nat := 3
/-- KIND_MISMATCH. -/
def lsKIND_MISMATCH : Nat := 4
/-- NONCE_LIMIT. -/
def lsNONCE_LIMIT : Nat := 5
/-- NONCE_EXHAUSTED. -/
def lsNONCE_EXHAUSTED : Nat := 6
/-- ENGINE_FAULT. -/
def lsENGINE_FAULT : Nat := 7

/-- A request answered. -/
def State.answer (s : State) (q : LarderReq) (status : Nat) : State :=
  let s := if status = lsTAG_FAIL then s.bump pLD 0x05C else if status = lsKEY_LOST then s.bump pLD 0x060 else s
  s.emit (.larder q.client q.tag status q.salt q.counter)

/-- Requests answered, in order. -/
def State.answers (s : State) (status : Nat) : List LarderReq → State
  | [] => s
  | q :: l => (s.answer q status).answers status l

/-- The uses a slot's KIND serves, by OP of the descriptor: SEAL, OPEN, HMAC, WRAP, UNWRAP, STREAM_SEG (DEDUCED from the tables of kinds and device slots, log 15). -/
def kindServes (op slot : Nat) (k : Slot) : Bool :=
  match op with
  | 1 => decide (k.kind = 2 ∨ k.kind = 3 ∨ k.kind = 4 ∨ slot = 6)
  | 2 => decide (k.kind = 2 ∨ k.kind = 3 ∨ k.kind = 4 ∨ slot = 6)
  | 3 => decide (k.kind = 2 ∨ slot = 2)
  | 4 => decide (slot = 0 ∨ slot = 5)
  | 5 => decide (k.kind = 5 ∨ slot = 0 ∨ slot = 5)
  | 7 => decide (k.kind = 4)
  | _ => false

/-- The status that refuses a request at once, if any. RANDOM names no slot. -/
def State.reqCheck (s : State) (q : LarderReq) : Option Nat :=
  let k := s.slot q.slot
  if s.classD then some lsKEY_LOST
  else if q.op = 6 then none
  else if k.state = .empty then some lsSLOT_EMPTY
  else if kindServes q.op q.slot k = false ∨ ((q.op = 1 ∨ q.op = 2) ∧ 16384 < q.len) then some lsKIND_MISMATCH
  else if q.op = 1 ∧ exhausted k then some lsNONCE_EXHAUSTED
  else if q.op = 1 ∧ (k.kind = 3 ∨ q.slot = 6) ∧ 2 ^ 48 ≤ k.counter + 1 then some lsNONCE_LIMIT
  else none

/-- A waiting request may be dispatched: its slot is not held up by a rewrite, and a seal has a counter below the programmed mark. -/
def State.dispatchable (s : State) (q : LarderReq) : Bool :=
  let k := s.slot q.slot
  !(decide (k.state = .shadowed ∧ q.slot ≠ 7) && !q.pre) && !(decide (q.op = 1) && beyondMark k)

/-- Engines in service and idle, in order. -/
def State.idleEngines (s : State) : List Nat :=
  (List.range 32).filter fun e => bit (s.reg pLD 0x044) e && (KM.get s.larder.engines e).isNone

/-- Depths of the urgent and bulk queues shown. -/
def State.showDepths (s : State) : State :=
  s.setNum pLD 0x064 ((s.larder.queue.filter fun q => q.prio == 0).length % 65536 * 65536 + (s.larder.queue.filter fun q => q.prio == 2).length % 65536)

/-- A request starts on an engine; a seal takes its nonce. -/
def State.startUnit (s : State) (e : Nat) (q : LarderReq) : State :=
  let s := { s with larder.queue := s.larder.queue.erase q }
  let (salt, ctr, s) := if q.op = 1 ∧ q.failedOn = none then s.sealCount q.slot else (q.salt, q.counter, s)
  ({ s with larder.engines := KM.put s.larder.engines e { q with salt, counter := ctr } }).showDepths

/-- A unit that may be suspended at its next block boundary: not an urgent one, suspended fewer than 8 times. -/
def suspendable (q : LarderReq) : Bool := decide (q.prio ≠ 0 ∧ q.suspended < 8)

/-- The engine that runs the lowest-priority suspendable unit. -/
def pickVictimUnit : KMap LarderReq → Option Nat
  | [] => none
  | (e, q) :: l =>
    match pickVictimUnit l with
    | some v => if suspendable q && (match KM.get l v with | some x => decide (x.prio ≤ q.prio) | none => true) then some e else some v
    | none => if suspendable q then some e else none

/-- An idle engine that did not fail the request's unit (R347). -/
def pickEngine (q : LarderReq) (l : List Nat) : Option Nat := l.find? fun e => some e ≠ q.failedOn

/-- The waiting request to dispatch next: by priority, then order of arrival. -/
def State.nextReq (s : State) : Option LarderReq :=
  let ready := s.larder.queue.filter fun q => s.dispatchable q
  match ready.find? fun q => q.prio == 0 with
  | some q => some q
  | none => match ready.find? fun q => q.prio == 1 with | some q => some q | none => ready.head?

/-- Requests dispatched while engines are idle: urgent ones first, then units that wait suspended, then the rest. An urgent one with no idle engine suspends a unit (R348). -/
def State.dispatch (fuel : Nat) (s : State) : State :=
  match fuel with
  | 0 => s
  | fuel + 1 =>
    let idle := s.idleEngines
    match s.nextReq with
    | some q =>
      if q.prio = 0 then
        match pickEngine q idle with
        | some e => (s.startUnit e q).dispatch fuel
        | none =>
          match pickVictimUnit s.larder.engines with
          | none => s
          | some e =>
            if some e = q.failedOn then s
            else
              match KM.get s.larder.engines e with
              | none => s
              | some u =>
                let late := decide (u.suspended ≠ 0 ∧ u.since + 50000 ≤ s.now)
                if late then s
                else
                  let s := { s with larder.engines := KM.del s.larder.engines e,
                                    larder.paused := s.larder.paused ++ [{ u with suspended := u.suspended + 1, since := s.now }] }
                  let s := (s.bump pLD 0x058).bump (0x0060 + e) 0x050
                  (s.startUnit e q).dispatch fuel
      else
        match s.larder.paused, idle with
        | u :: rest, e :: _ => ({ s with larder.paused := rest, larder.engines := KM.put s.larder.engines e u }).dispatch fuel
        | _, _ =>
          match pickEngine q idle with
          | some e => (s.startUnit e q).dispatch fuel
          | none => s
    | none =>
      match s.larder.paused, idle with
      | u :: rest, e :: _ => ({ s with larder.paused := rest, larder.engines := KM.put s.larder.engines e u }).dispatch fuel
      | _, _ => s

/-- Everything that can be dispatched is. -/
def State.dispatchAll (s : State) : State := (s.dispatch (2 * s.larder.queue.length + s.larder.paused.length + 2)).showDepths

/-- Seals that wait for a mark are counted once, as they are queued (R338). -/
def State.noteStall (s : State) (q : LarderReq) : State :=
  if q.op = 1 ∧ beyondMark (s.slot q.slot) then (s.bump pLD 0x054).fireLimited pLD 5 else s

/-- A request descriptor reaches the Larder. -/
def execLarderRequest (op prio slot client tag aadLen len salt counter dataRef : Nat) (s : State) : Res :=
  .next (
    let q : LarderReq := { op := op % 16, prio := prio % 4, slot := slot % 8192, client := client % 256, tag := tag % 2 ^ 24, aadLen, len, salt := salt % 2 ^ 32,
                           counter := counter % 2 ^ 64, dataRef := dataRef % 2 ^ 32 }
    if 2 < q.prio ∨ 4096 < aadLen then s.answer q lsKIND_MISMATCH
    else
      match s.reqCheck q with
      | some st => (if st = lsNONCE_EXHAUSTED then s.fire pLD 4 else s).answer q st
      | none => (({ s with larder.queue := s.larder.queue ++ [q] }).noteStall q).dispatchAll)

/-! ### Alarms (R347, R350) -/

/-- A class D alarm: every volatile key goes, each request ends KEY_LOST, streams end; the Attic keeps its records (R350, R351). -/
def State.alarmD (s : State) : State :=
  let reqs := s.larder.queue ++ s.larder.engines.map (·.2) ++ s.larder.paused
  let s := { s with larder.queue := [], larder.engines := [], larder.paused := [],
                    larder.stash := if s.classD then s.larder.stash else s.larder.slots.map fun (p : Nat × Slot) => (p.1, { p.2 with shadow := none, state := .active, marking := false }),
                    larder.slots := [] }
  let s := s.answers lsKEY_LOST reqs
  (((s.setFld pLD 0x040 13 0 0).setFld pLD 0x048 3 3 1).fire pLD 3).showDepths

/-- An engine retired: FAILED, which clears its bit of ENGINES_IN_SERVICE, and ALARM_B. -/
def State.retireEngine (s : State) (e : Nat) : State :=
  ((s.retirePage (0x0060 + e) 3).fire pLD 1)

/-- Pages written so far by a stream. -/
def State.streamWritten (s : State) (x : Stream) : List Nat :=
  (List.range' x.first ((x.ct.length + 16383) / 16384)).filterMap fun i => s.objectPage (s.object x.object) i

/-- Pages written as poisoned, at home and mirror alike. -/
def State.poisonPages (s : State) : List Nat → State
  | [] => s
  | p :: l =>
    let s := ((s.countPage p true).zeroPageBytes p).poisonLines p (List.range 256)
    let z := List.replicate 4096 (0 : Byte)
    let segs := [0, 4096, 8192, 12288].map fun o => s.segment (p * 16384 + o) 0 (2 ^ 64 - 1) false z
    let s := segs.foldl (fun s g => s.sendSeq (.mirrorData [g]) [] [p]) s
    (s.logPage p).poisonPages l

/-- A stream ends without its tag: every line of every page it wrote is poisoned (R355). -/
def State.failStream (s : State) (x : Stream) (status : Nat) : State :=
  let pages := s.streamWritten x
  let s := { s with larder.streams := s.larder.streams.filter fun y => y.op ≠ x.op }
  ((s.poisonPages pages).fire pLD 7).complete x.op { status, r0 := pages.length }

/-- Streams ended, in order. -/
def State.failStreams (s : State) (status : Nat) : List Stream → State
  | [] => s
  | x :: l => (s.failStream x status).failStreams status l

/-- A sensor of K11 is out of range. -/
def execClassDSensor (s : State) : Res := .next (s.alarmD.failStreams stKEY_LOST s.larder.streams)

/-- A seal engine finishes a unit: its two results are compared. -/
def execSealUnitDone (engine : Nat) (matched tagOk : Bool) (s : State) : Res :=
  .next (match KM.get s.larder.engines engine with
    | none => s
    | some q =>
      let p := 0x0060 + engine
      let s := { s with larder.engines := KM.del s.larder.engines engine }
      if matched then
        let s := s.bump p 0x040
        let s := s.set64 p 0x044 0x048 ((s.reg64 p 0x044 0x048 + (q.len + 15) / 16) % 2 ^ 64)
        (s.answer q (if (q.op = 2 ∨ q.op = 5) ∧ tagOk = false then lsTAG_FAIL else lsOK)).dispatchAll
      else
        let s := ((s.bump p 0x04C).fire p 0).fireLimited pLD 0
        let again := match KM.get s.larder.mismatchAt engine with | some t => decide (s.now < t + 3600 * second) | none => false
        let s := { s with larder.mismatchAt := KM.put s.larder.mismatchAt engine s.now }
        let s := if again then s.retireEngine engine else s
        match q.failedOn with
        | some _ => ((s.answer q lsENGINE_FAULT).alarmD).failStreams stKEY_LOST s.larder.streams
        | none => ({ s with larder.queue := { q with failedOn := some engine } :: s.larder.queue }).dispatchAll)

/-- A high-water mark record is programmed: the slot's waiting seals proceed (R338). -/
def execHwmRecordProgrammed (slot : Nat) (s : State) : Res :=
  .next (
    let k := s.slot slot
    if k.marking then (s.setSlot slot { k with marking := false, mark := nextMark k.counter }).dispatchAll else s)

/-- The DRBG reseeds (R349). -/
def execDrbgReseed (s : State) : Res := .next (if bit (s.reg pLD 0x048) 1 then s.bump pLD 0x050 else s)

/-- A health-test sample fails: class A; the third within 1 s is class C, which stops the DRBG (R350). -/
def execHealthTestFail (s : State) : Res :=
  .next (
    let recent := s.now :: s.larder.healthFails.filter fun t => decide (s.now < t + second)
    let s := (({ s with larder.healthFails := recent }).bump pLD 0x04C).fireLimited pLD 0
    if 3 ≤ recent.length ∧ s.drbgStopped = false then
      (((s.setFld pLD 0x048 2 2 1).setFld pLD 0x048 1 0 0).fire pLD 2)
    else s)

/-- After 10 s of passing tests the DRBG is instantiated again. -/
def execDrbgReinstantiate (s : State) : Res :=
  .next (if s.drbgStopped then ({ s with larder.healthFails := [] }).setFld pLD 0x048 2 0 3 else s)

/-! ### Reloading (R329, R330, R338) -/

/-- A device slot filled at the first start, where the Attic keeps no record of it. -/
def State.firstKey (s : State) (n : Nat) : State :=
  if (s.slot n).state = .empty then
    let (key, s) := s.drawKey
    s.loadSlot n 1 0 key
  else s

/-- The slots reloaded at a power-on or a chip reset: each from its Attic record, its counter resumed above its latest mark; slot 7 is not kept; slots 0, 1, 5 and 6
hold keys from the first start on. Alarms end, and the random number generator starts afresh. -/
def State.reloadSlots (s : State) : State :=
  let m := if s.classD then s.larder.stash else s.larder.slots
  let resume := fun (k : Slot) =>
    ({ k with state := .active, shadow := none, marking := false, rewriteOp := 0, preRewrite := 0, mark := k.mark + 2 ^ 24, counter := k.mark + 2 ^ 24 } : Slot)
  let m : KMap Slot := KM.mapV (fun _ k => resume k) (KM.del m 7)
  let s := { s with larder.slots := m, larder.stash := [], larder.queue := [], larder.engines := [], larder.paused := [], larder.healthFails := [], larder.streams := [] }
  let s := (((s.firstKey 0).firstKey 1).firstKey 5).firstKey 6
  let s := s.setFld pLD 0x040 13 0 s.larder.slots.length
  (s.setNum pLD 0x048 3).setNum pLD 0x064 0

/-! ### Imports (R332 to R335) -/

/-- The KIND and slot of KEY_IMPORT_WRAPPED pair (R332). -/
def pairsWrapped (kind slot tenant : Nat) : Bool :=
  decide ((kind = 2 ∧ (slot = 3 ∨ slot = 4) ∧ tenant = 0) ∨ (kind = 4 ∧ 16 ≤ slot ∧ slot < 8192) ∨ (kind = 5 ∧ 16 ≤ slot ∧ slot < 8192 ∧ tenant ≠ 0))

/-- The two further pairings of KEY_IMPORT_ECDH (R333). -/
def pairsEcdh (kind slot tenant : Nat) : Bool :=
  pairsWrapped kind slot tenant || decide ((kind = 1 ∧ slot = 2 ∧ tenant = 0) ∨ (kind = 5 ∧ slot = 8 ∧ tenant = 0))

/-- PARAM0 of an import is well formed: KIND in bits 2:0, tenant in bits 27:16, nothing else. -/
def importParam (p : Nat) : Bool := decide (p / 2 ^ 28 = 0 ∧ p / 8 % 2 ^ 13 = 0)

/-- The slots of the KEK that an import may name: slot 8, or a KEK slot of the tenant. -/
def State.mayUnwrap (s : State) (n tenant : Nat) : Bool :=
  let k := s.slot n
  decide (k.state ≠ .empty ∧ k.kind = 5 ∧ (n = 8 ∨ k.owner = tenant))

/-- What an import meets while the Larder is under an alarm (R350). -/
def State.alarmed (s : State) : Option (Option Answer) :=
  if s.classD then some (bad stKEY_LOST) else if s.drbgStopped then some (bad stBUSY_RETRY 1000000) else none

/-- KEY_IMPORT_WRAPPED. -/
def execKeyImportWrapped (c : AdminCmd) (s : State) : Res :=
  .next (s.adminRun 0x40 c fun _ s =>
    let kind := c.p0 % 8
    let tenant := c.p0 / 65536 % 4096
    if importParam c.p0 = false ∨ 8191 < c.p1 ∨ pairsWrapped kind c.target tenant = false ∨ (proper c).length < 40 then (s, bad stINVALID_FIELD)
    else
      match s.alarmed with
      | some a => (s, a)
      | none =>
        if s.mayUnwrap c.p1 tenant = false then (s, bad stINVALID_FIELD)
        else if (s.slot c.target).state ≠ .empty then (s, bad stSTATE_CONFLICT)
        else
          match Config.unwrap3394 (s.slot c.p1).key ((proper c).take 40) with
          | none => (s, bad stINVALID_FIELD 0 1)
          | some key => (s.loadSlot c.target kind tenant key, good (kcvOf key)))

/-- FixedInfo of the key derivation (R333). -/
def State.fixedInfo (s : State) (target tenant : Nat) : List Byte :=
  ([0x50, 0x57, 0x38, 0x38, 0x34, 0x30, 0x2D, 0x4B, 0x54] : List Byte) ++ beBytes 2 target ++ beBytes 2 tenant ++ beBytes 8 (s.reg64 pPKG 0x044 0x048)

/-- The requests in flight on a slot when its rewrite is accepted belong to the old key (R340). -/
def State.markPre (s : State) (n : Nat) : State :=
  let f := fun (q : LarderReq) => if q.slot = n then { q with pre := true } else q
  { s with larder.queue := s.larder.queue.map f, larder.engines := KM.mapV (fun _ q => f q) s.larder.engines, larder.paused := s.larder.paused.map f }

/-- A rewrite begins: the new key goes into the shadow. -/
def State.beginRewrite (s : State) (n key op : Nat) : State :=
  let k := s.slot n
  (s.markPre n).setSlot n { k with state := .shadowed, shadow := some key, preRewrite := s.fab.arrivals, rewriteOp := op }

/-- KEY_IMPORT_ECDH. -/
def execKeyImportEcdh (c : AdminCmd) (s : State) : Res :=
  .next (s.adminRun 0x41 c fun op s =>
    let kind := c.p0 % 8
    let tenant := c.p0 / 65536 % 4096
    let b := proper c
    if importParam c.p0 = false ∨ pairsEcdh kind c.target tenant = false ∨ b.length < 144 then (s, bad stINVALID_FIELD)
    else
      match s.alarmed with
      | some a => (s, a)
      | none =>
        let k := s.slot c.target
        if k.state ≠ .empty ∧ ¬(c.target = 2 ∧ k.state = .active) then (s, bad stSTATE_CONFLICT)
        else if b.take 1 ≠ [4] ∨ Config.onCurve (b.take 97) = false then (s, bad stINVALID_FIELD 0 2)
        else
          let kek := Config.ecdhKek (s.slot 1).key (b.take 97) (s.fixedInfo c.target tenant)
          match Config.unwrap3394 kek ((b.drop 104).take 40) with
          | none => (s, bad stINVALID_FIELD 0 1)
          | some key =>
            if k.state = .active then (s.beginRewrite c.target key op, none)
            else (s.loadSlot c.target kind tenant key, good (kcvOf key)))

/-! ### Rewrite and zeroise (R340 to R343) -/

/-- KEY_REWRITE of a slot of KIND 2, 4 or 5. -/
def execKeyRewrite (c : AdminCmd) (s : State) : Res :=
  .next (s.adminRun 0x42 c fun op s =>
    let k := s.slot c.target
    if 8191 < c.target ∨ fixedSlot c.target ∨ c.p0.testBit 31 ∨ 8191 < c.p1 ∨ (proper c).length < 40 then (s, bad stINVALID_FIELD)
    else
      match s.alarmed with
      | some a => (s, a)
      | none =>
        if k.state ≠ .active ∨ k.kind = 1 ∨ k.kind = 3 then (s, bad stSTATE_CONFLICT)
        else if s.mayUnwrap c.p1 k.owner = false then (s, bad stINVALID_FIELD)
        else
          match Config.unwrap3394 (s.slot c.p1).key ((proper c).take 40) with
          | none => (s, bad stINVALID_FIELD 0 1)
          | some key => (s.beginRewrite c.target key op, none))

/-- KEY_REWRITE with NEW_STORAGE: a new current STORAGE slot for the tenant. -/
def execKeyRewriteNewStorage (c : AdminCmd) (s : State) : Res :=
  .next (s.adminRun 0x42 c fun _ s =>
    let k := s.slot c.target
    if 8191 < c.target ∨ fixedSlot c.target ∨ c.p0.testBit 31 = false then (s, bad stINVALID_FIELD)
    else
      match s.alarmed with
      | some a => (s, a)
      | none =>
        if k.state ≠ .active ∨ k.kind ≠ 3 ∨ s.isCurrent c.target = false then (s, bad stSTATE_CONFLICT)
        else
          match s.freeSlot, KM.get s.win.tenants k.owner with
          | some n, some t =>
            let (key, s) := s.drawKey
            let s := s.loadSlot n 3 k.owner key
            let s := { s with win.tenants := KM.put s.win.tenants k.owner { t with slot := n } }
            (s.dropRef c.target, good n)
          | _, _ => (s, bad stNO_RESOURCE))

/-- Requests in flight on a slot from before its rewrite: packets, descriptors, streams. -/
def State.preCount (s : State) (n : Nat) : Nat :=
  (s.fab.placements.filter fun p => (match p.sealing with | some (k, _, _, _) => decide (k = n ∧ p.trig.arrival ≤ (s.slot n).preRewrite) | none => false)).length +
  ((s.larder.queue ++ s.larder.engines.map (·.2) ++ s.larder.paused).filter fun q => decide (q.slot = n) && q.pre).length +
  (s.larder.streams.filter fun x => x.slot == n).length

/-- The last request of the old key has ended: the shadow becomes the key. -/
def execRewriteSwitch (slot : Nat) (s : State) : Res :=
  .next (
    let k := s.slot slot
    match k.shadow with
    | none => s
    | some key =>
      if k.state ≠ .shadowed ∨ s.preCount slot ≠ 0 then s
      else
        let (salt, s) := s.drawSalt slot k.kind 3
        let s := s.setSlot slot { state := .active, kind := k.kind, owner := k.owner, key, salt }
        let s := { s with larder.tombs := insertSorted slot s.larder.tombs }
        (s.complete k.rewriteOp { status := stSUCCESS, r0 := kcvOf key }).dispatchAll)

/-- Packets under way that a zeroised slot would open: refused with TAG_FAIL, their messages fail. -/
def State.losePackets (s : State) (n : Nat) : List Placement → State
  | [] => s
  | p :: l =>
    match p.sealing with
    | some (k, _, _, sel) =>
      if k = n then
        let s := { s with fab.placements := s.fab.placements.erase p }
        ((s.bump pLD 0x060).refuse p.qpn p.trig 0x25 sel 0 (some p.msn)).losePackets n l
      else s.losePackets n l
    | none => s.losePackets n l

/-- A slot zeroised whatever is in flight: its requests end KEY_LOST. Answers how many. -/
def State.zeroise (s : State) (n : Nat) : Nat × State :=
  let packets := s.fab.placements.filter fun p => (match p.sealing with | some (k, _, _, _) => k == n | none => false)
  let reqs := (s.larder.queue ++ s.larder.engines.map (·.2) ++ s.larder.paused).filter fun q => decide (q.slot = n ∧ q.op ≠ 6)
  let streams := s.larder.streams.filter fun x => x.slot == n
  let rewriting := (s.slot n).state = .shadowed
  let op := (s.slot n).rewriteOp
  let s := s.zeroSlot n
  let live := fun (q : LarderReq) => decide (q.slot ≠ n ∨ q.op = 6)
  let s := { s with larder.queue := s.larder.queue.filter live, larder.engines := KM.keep (fun _ q => live q) s.larder.engines,
                    larder.paused := s.larder.paused.filter live }
  let s := s.losePackets n packets
  let s := (s.answers lsKEY_LOST reqs).failStreams stKEY_LOST streams
  let s := if rewriting then s.complete op { status := stKEY_LOST } else s
  let count := packets.length + reqs.length + streams.length
  (count, ((if count = 0 then s else s.fire pLD 6).settleAll).dispatchAll)

/-- KEY_ZEROISE. -/
def execKeyZeroise (c : AdminCmd) (s : State) : Res :=
  .next (s.adminRun 0x43 c fun _ s =>
    let k := s.slot c.target
    if 8191 < c.target ∨ fixedSlot c.target then (s, bad stINVALID_FIELD)
    else if (k.state ≠ .empty ∧ k.kind = 3 ∧ (0 < s.slotRefs c.target ∨ s.isCurrent c.target)) ∨ ((c.target = 3 ∨ c.target = 4) ∧ c.target = s.linkSlot) then
      (s, bad stSTATE_CONFLICT)
    else
      let (n, s) := s.zeroise c.target
      (s, good n))

/-- A write of PROBE_SLOT (R356): ignored while a result is published. -/
def execSlotProbeWrite (req : Requester) (data : Word) (s : State) : Res :=
  .next (s.guarded req pLD fun s =>
    if s.resultValid pLD 0x06C then s
    else
      let n := bits data 12 0
      let k := s.slot n
      let code := match k.state with | .empty => 0 | .active => 1 | .shadowed => 2
      let inFlight := (s.fab.placements.filter fun p => (match p.sealing with | some (m, _, _, _) => m == n | none => false)).length +
        ((s.larder.queue ++ s.larder.engines.map (·.2) ++ s.larder.paused).filter fun q => decide (q.slot = n ∧ q.op ≠ 6)).length +
        (s.larder.streams.filter fun x => x.slot == n).length
      s.publish pLD 0x06C
        [code * 2 ^ 30 + k.kind * 2 ^ 27 + b2n (decide (k.state ≠ .empty) && s.isCurrent n) * 2 ^ 26 + k.owner, k.salt, k.counter % 2 ^ 32, k.counter / 2 ^ 32,
         min 65535 (s.slotRefs n) * 65536 + min 65535 inFlight, if k.state = .empty then 0 else kcvOf k.key] 1)

/-! ### Streamed opens (R352 to R355) -/

/-- STREAM_OPEN accepted. -/
def execStreamOpen (c : AdminCmd) (s : State) : Res :=
  .next (s.adminRun 0x44 c fun op s =>
    let b := proper c
    let at_ := fun (o n : Nat) => leNat ((b.drop o).take n)
    let aadLen := at_ 12 4
    let ctLen := at_ 16 8
    let segs := at_ 24 2
    let list := 64 + (aadLen + 15) / 16 * 16
    let sum := ((List.range segs).map fun i => at_ (list + 16 * i + 8) 4).foldl (· + ·) 0
    let o := s.object c.p0
    let k := s.slot c.target
    let pages := (ctLen + 16383) / 16384
    if 8191 < c.target ∨ o.valid = false ∨ o.destroying ∨ k.state = .empty ∨ k.kind ≠ 4 ∨ k.owner ≠ o.owner ∨ 4096 < aadLen ∨ ctLen = 0 ∨ 2 ^ 34 < ctLen ∨ segs = 0 ∨
        b.length < list + 16 * segs ∨ sum ≠ ctLen ∨ o.sizePages < c.p1 + pages then (s, bad stINVALID_FIELD)
    else if s.pair ≠ 1 ∧ s.pair ≠ 3 then (s, bad stTWIN_UNAVAILABLE)
    else
      let range := List.range' c.p1 pages
      let badPage := range.any fun i =>
        (match s.objectPage o i with | some p => isCellar p || s.pendingTag p | none => true) || (KM.get s.win.locks (lockKey c.p0 i)).isSome
      if 0 < o.aliasCount ∨ badPage ∨ bit (s.reg pPLD 0x044) 8 then (s, bad stSTATE_CONFLICT)
      else if 4 ≤ s.larder.streams.length then (s, bad stNO_RESOURCE)
      else
        ({ s with larder.streams := s.larder.streams ++
            [{ op, slot := c.target, salt := beNat (b.take 4), counter := beNat ((b.drop 4).take 8), aad := (b.drop 64).take aadLen, tag := (b.drop 32).take 16,
               object := c.p0, first := c.p1, ctLen }] }, none))

/-- The nonce of a stream, as bytes. -/
def streamNonce (x : Stream) : List Byte := beBytes 4 x.salt ++ beBytes 8 x.counter

/-- One page of a stream placed, charged to tenant 0 and mirrored like a BAR2 write; bytes after the plaintext are zero. -/
def State.placeStream (s : State) (page : Nat) (bs : List Byte) : State :=
  let full := bs ++ List.replicate (16384 - bs.length) 0
  let new := s.newlyDirty [page] ≠ []
  let s := s.chargeWrites 0 [page]
  let s := s.placeIn page 0 full 0
  let cut := fun (o : Nat) => s.segmentsOf (page * 16384 + o) 0 0 (new && o == 0) ((full.drop o).take 4096)
  [0, 4096, 8192, 12288].foldl (fun s o => s.sendSeq (.mirrorData (cut o)) [] [page]) s

/-- A segment unit of a stream ends, with its 16 KiB of ciphertext; the last one verifies the tag. -/
def execStreamSegDone (op : Nat) (ciphertext : List Byte) (xferOk : Bool) (s : State) : Res :=
  .next (match s.larder.streams.find? fun x => x.op == op with
    | none => s
    | some x =>
      let n := min 16384 (x.ctLen - x.ct.length)
      let k := s.slot x.slot
      if xferOk = false then s.failStream x stDATA_XFER_ERROR
      else if k.state = .empty then s.failStream x stKEY_LOST
      else if ciphertext.length ≠ n then s
      else
        match s.objectPage (s.object x.object) (x.first + x.ct.length / 16384) with
        | none => s.failStream x stTAG_FAIL
        | some page =>
          if s.bar2Fits [page] n = false then s
          else
            let ct := x.ct ++ ciphertext
            let s := s.tallyAdd (s.object x.object).owner 6 n
            let s := s.placeStream page ((Config.gcmOpen k.key (streamNonce x) ct).drop x.ct.length |>.take n)
            let x : Stream := { x with ct }
            let s := { s with larder.streams := s.larder.streams.map fun (y : Stream) => if y.op = op then x else y }
            if ct.length < x.ctLen then s
            else if Config.gcmOk k.key (streamNonce x) x.aad ct x.tag then
              ({ s with larder.streams := s.larder.streams.filter fun y => y.op ≠ op }).complete op { status := stSUCCESS, r0 := (streamPages x).length }
            else (s.bump pLD 0x05C).failStream x stTAG_FAIL)

end Sys2Proof.Machine
end

