-- ==== Sys2Proof/Machine/Reads.lean ====
section
/-!
DEFINITION. Read responses, rate control and tenant shares (chapters 05 and 06): R135 to R139, R144 to R158.
-/

namespace Sys2Proof.Machine

/-! ### The length of a response (R93, R96) -/

/-- An address is IPv4, carried as ::ffff:a.b.c.d. -/
def isV4 (a : Nat) : Bool := a / 2 ^ 32 == 0xFFFF

/-- The address of a peer on a plane. -/
def State.peerAddr (s : State) (peer plane : Nat) : Nat := match s.peer peer with | some e => e.addr.getD plane 0 | none => 0

/-- A queue pair seals its responses: TX_KEY0 is set (R135). -/
def sealsResp (q : Qp) : Bool := decide (q.txKey0 ≠ 0)

/-- HDR_WORDS of a READ_RESP. -/
def respWords (sealed_ : Bool) (poison : Nat) : Nat := 8 + (if sealed_ then 4 else 0) + (if poison = 0 then 0 else 3)

/-- IP length of a READ_RESP on a plane. -/
def State.respLength (s : State) (r : Response) (plane : Nat) : Nat :=
  let sl := sealsResp (s.qp r.qpn)
  (if isV4 (s.peerAddr r.peer plane) then 28 else 48) + 4 * respWords sl r.poison + r.data.length + (if sl then 16 else 0) + 8

/-! ### Buckets (R151, R155) -/

/-- The rate of a peer-plane in 1/32 Gb/s; with RC_EN 0 it is held at line rate (R158). -/
def State.rateOf (s : State) (peer plane : Nat) : Nat := if bit (s.reg pTC 0x100) 31 then (s.pp peer plane).rate else 32 * s.lineRate plane

/-- The level of a peer-plane bucket now, in 1/256 B: it fills at RATE and holds at most 16 KiB. -/
def State.bucket (s : State) (peer plane : Nat) : Nat :=
  let v := s.pp peer plane
  min (16384 * 256) (v.bucket + s.rateOf peer plane * (s.now - v.bucketAt))

/-- The depth of a cap bucket, in 1/8 B: the larger of 16 KiB and 8 µs of CAP. -/
def capDepth (cap : Nat) : Nat := max (16384 * 8) (cap * 8000)

/-- The cap of a tenant in Gb/s, 0 for none. -/
def State.capOf (s : State) (t : Nat) : Nat := (KM.getD {} s.win.tenants t).cap

/-- The level of a tenant's cap bucket now, in 1/8 B; one never used is full. -/
def State.capLevel (s : State) (t : Nat) : Nat :=
  match KM.get s.fab.capBuckets t with
  | some (l, at_) => min (capDepth (s.capOf t)) (l + s.capOf t * (s.now - at_))
  | none => capDepth (s.capOf t)

/-! ### The plane of a response (R136, R152) -/

/-- Planes that qualify for a response of a queue pair. -/
def State.qualifying (s : State) (q : Qp) : List Nat :=
  match s.peer q.peer with
  | none => []
  | some e =>
    (List.range 8).filter fun p =>
      q.respPlanes.testBit p && s.inService p && (s.plane p).draining.isNone && !(s.plane p).out && e.planeEn.testBit p && (s.pp q.peer p).up

/-- The time in ns until a peer-plane bucket lets a response go that is queued behind those already queued there for the peer (DEDUCED, log 14). -/
def State.departsIn (s : State) (r : Response) (plane : Nat) : Nat :=
  let ahead := ((s.plane plane).queue.filter fun x => x.peer == r.peer).foldl (fun a x => a + s.respLength x plane) 0
  let need := (ahead + s.respLength r plane) * 256 - s.bucket r.peer plane
  let rate := s.rateOf r.peer plane
  if rate = 0 then need * 1000000 else (need + rate - 1) / rate

/-- The plane with the earliest departure; ties go to the first after the one of the queue pair's previous response. -/
def State.choosePlane (s : State) (r : Response) : Option Nat :=
  let q := s.qp r.qpn
  let l := s.qualifying q
  let l := (l.filter fun p => decide (q.lastPlane < p)) ++ l.filter fun p => decide (p ≤ q.lastPlane)
  l.foldl (fun b p => match b with | none => some p | some x => if s.departsIn r p < s.departsIn r x then some p else some x) none

/-- Responses of a read built and queued to their planes, as long as their data is at hand and a plane qualifies. -/
def State.buildResponses (fuel : Nat) (s : State) (j : ReadJob) : State :=
  match fuel with
  | 0 => s.setJob j
  | fuel + 1 =>
    match j.left with
    | [] => { s with fab.reads := s.fab.reads.filter fun (x : ReadJob) => decide (x.arrival ≠ j.arrival) }
    | p :: rest =>
      match s.pieceData j p with
      | none => (s.setJob j).askPiece j p
      | some (data, map) =>
        let q := s.qp j.qpn
        let r : Response := { qpn := j.qpn, tenant := q.tenant, peer := q.peer, msn := j.msn, resend := j.resend, handle := j.handle,
                              offset := j.offset, msgLen := j.msgLen, msgOff := p.1, poison := map, data, last := decide (rest = []) }
        match s.choosePlane r with
        | none => s.setJob j
        | some k =>
          let s := s.setPlane k { s.plane k with queue := (s.plane k).queue ++ [r] }
          let s := s.setQp j.qpn { s.qp j.qpn with lastPlane := k }
          s.buildResponses fuel { j with left := rest, got := j.got.filter fun g => g.1 ≠ p.1 }

/-- Data of a read is at hand: its responses are built and queued. -/
def execReadDataReady (qpn msn : Nat) (resend : Bool) (s : State) : Res :=
  .next (match s.fab.reads.find? fun j => decide (j.qpn = qpn ∧ j.msn = msn ∧ j.resend = resend) with
    | none => s
    | some j => s.buildResponses (j.left.length + 1) j)

/-! ### Departure (R100, R137, R151, R154 to R156) -/

/-- A queued response still has a message to answer. -/
def State.live (s : State) (r : Response) : Bool := r.resend || (s.tracker r.qpn r.msn).isSome

/-- A response of the same message with a lower offset is queued somewhere (R135). -/
def State.laterPiece (s : State) (r : Response) : Bool :=
  (List.range 8).any fun p => (s.plane p).queue.any fun x => decide (x.qpn = r.qpn ∧ x.msn = r.msn ∧ x.resend = r.resend ∧ x.msgOff < r.msgOff)

/-- The key slot of a queue pair's responses. -/
def txSlot (q : Qp) : Nat := if q.txKeySel then q.txKey1 else q.txKey0

/-- A response may depart but for its tenant's cap: its peer-plane bucket holds its length, nothing of its message must go first, and its key slot is not being rewritten. -/
def State.paced (s : State) (r : Response) (plane : Nat) : Bool :=
  decide (s.respLength r plane * 256 ≤ s.bucket r.peer plane) && !s.laterPiece r &&
    !(sealsResp (s.qp r.qpn) && decide ((s.slot (txSlot (s.qp r.qpn))).state = .shadowed))

/-- A tenant's cap bucket lets a length go. -/
def State.capAllows (s : State) (t n : Nat) : Bool := decide (s.capOf t = 0 ∨ n * 8 ≤ s.capLevel t)

/-- Queue pairs of a list in round-robin order after one. -/
def roundFrom (last : Nat) (l : List Nat) : List Nat := (l.filter fun n => decide (last < n)) ++ l.filter fun n => decide (n ≤ last)

/-- The response a tenant would send next on a plane without regard to its cap: its queue pairs in turn, each with its first response. -/
def State.nextOf (s : State) (plane t : Nat) : Option Response :=
  let v := s.plane plane
  let mine := v.queue.filter fun r => r.tenant == t
  let qps := mine.foldl (fun l r => insertSorted r.qpn l) []
  (roundFrom (KM.getD 0 v.lastQp t) qps).findSome? fun n =>
    match mine.find? fun r => r.qpn == n with
    | some r => if s.paced r plane then some r else none
    | none => none

/-- The header of a READ_RESP as it is authenticated: base header and extensions with TX_COUNT, PLANE and ACK_REQ zero. -/
def respHeader (q : Qp) (r : Response) (psn flags : Nat) (ext : List Byte) : List Byte :=
  [0x10, 0x11] ++ beBytes 2 flags ++ beBytes 4 q.peerQpn ++ beBytes 4 psn ++ beBytes 4 r.msn ++
    [BitVec.ofNat 8 (5 + ext.length / 4), 0] ++ beBytes 2 r.data.length ++ ext

/-- A response leaves its plane's queue. -/
def State.unqueue (s : State) (plane : Nat) (r : Response) : State :=
  let v := s.plane plane
  s.setPlane plane { v with queue := v.queue.erase r }

/-- A response departs: it takes the next response PSN, is sealed where the queue pair has keys, and is charged to its buckets; the last of a message completes the
read. A slot zeroised meanwhile lets nothing leave: the queue pair enters ERROR (R343). -/
def State.depart (s : State) (plane : Nat) (r : Response) : State :=
  let n := s.respLength r plane
  let s := s.unqueue plane r
  let q := s.qp r.qpn
  let sl := sealsResp q
  let k := s.slot (txSlot q)
  if sl ∧ s.canSeal (txSlot q) = false then ((s.noteExhausted (txSlot q)).failMessage r.qpn r.msn 0xF2).settleAll
  else
    let (salt, ctr, s) := if sl then s.sealCount (txSlot q) else (0, 0, s)
    let poisonExt := if r.poison = 0 then [] else [0x09, 3, 0, 0] ++ beBytes 8 r.poison
    let sealExt := if sl then [0x08, 4, BitVec.ofNat 8 (b2n q.txKeySel), 0] ++ beBytes 4 salt ++ beBytes 8 ctr else []
    let ext := [0x03, 3, 0, 0] ++ beBytes 4 r.msgLen ++ beBytes 4 r.msgOff ++ sealExt ++ poisonExt
    let flags := (if r.poison = 0 then 0 else 2 ^ 14) + (if sl then 2 ^ 13 else 0)
    let (body, tag) := if sl then Config.gcmSeal k.key (beBytes 4 salt ++ beBytes 8 ctr) (respHeader q r q.respPsn flags ext) r.data else (r.data, [])
    let p : PxtOut :=
      { plane, tag := s.txTag plane, dstIp := s.peerAddr r.peer plane, udpSrc := 0xC000 + (q.entropyBase + plane) % 16384,
        ecn := if bit (s.reg pFPC 0x044) 16 then 2 else 0, dscp := s.fld pFPC 0x044 5 0, opcode := 0x11, flags, dqpn := q.peerQpn, psn := q.respPsn,
        msn := r.msn, txCount := 0, ext, payloadLen := r.data.length, payload := body ++ tag, fold := foldOf r.handle (r.offset + r.msgOff) }
    let s := ((s.bump pFPC (0x1C0 + 8 * plane)).emit (.fabric p)).tallyAdd r.tenant 0 r.data.length
    let s := if sl then s.tallyAdd r.tenant 6 r.data.length else s
    let s := s.setQp r.qpn { s.qp r.qpn with respPsn := inc32 q.respPsn, txRespBytes := (q.txRespBytes + r.data.length) % 2 ^ 64 }
    let level := s.bucket r.peer plane
    let s := s.setPp r.peer plane { s.pp r.peer plane with bucket := level - n * 256, bucketAt := s.now, sent := true }
    let s := if s.capOf r.tenant = 0 then s else
      { s with fab.capBuckets := KM.put s.fab.capBuckets r.tenant (s.capLevel r.tenant - n * 8, s.now) }
    let ceiling := s.fld pTC (0x140 + 4 * plane) 9 0
    let v := s.plane plane
    let next := if ceiling < s.lineRate plane ∧ ceiling ≠ 0 then s.now + (n * 8 + ceiling - 1) / ceiling else v.ceilingAt
    let s := s.setPlane plane { v with ceilingAt := next, lastQp := KM.put v.lastQp r.tenant r.qpn }
    if r.last ∧ r.resend = false then
      (match s.tracker r.qpn r.msn with
       | some t => ((s.setTracker r.qpn r.msn { t with state := .mirrored }).completeMsgs r.qpn).settleAll
       | none => s)
    else s

/-- The quantum of a tenant, in bytes (R154). -/
def State.quantum (s : State) (t : Nat) : Nat := (KM.getD {} s.win.tenants t).weight * 1024

/-- Tenants with a response queued on a plane, ascending. -/
def State.queuedTenants (s : State) (plane : Nat) : List Nat := (s.plane plane).queue.foldl (fun l r => insertSorted r.tenant l) []

/-- Tenants of a plane visited in turn: an eligible one adds its quantum, up to twice it, and sends where its next response does not exceed its deficit; one held only by its
cap is passed over and counted. -/
def State.visit (fuel : Nat) (s : State) (plane : Nat) : List Nat → State
  | [] => s
  | t :: l =>
    match fuel with
    | 0 => s
    | fuel + 1 =>
      match s.nextOf plane t with
      | none => s.visit fuel plane l
      | some r =>
        let n := s.respLength r plane
        if s.capAllows t n = false then (s.bump pTC 0x118).visit fuel plane l
        else
          let v := s.plane plane
          let d := min (2 * s.quantum t) (KM.getD 0 v.deficits t + s.quantum t)
          if n ≤ d then (s.setPlane plane { v with current := t, deficits := KM.putD 0 v.deficits t (d - n) }).depart plane r
          else (s.setPlane plane { v with deficits := KM.putD 0 v.deficits t d }).visit fuel plane l

/-- One response leaves a plane where the buckets, the caps, the power ceiling and the scheduler allow it. The tenant being served goes on while its deficit lasts; then the
round moves on. Five rounds give any tenant a deficit of more than one response. -/
def execReadRespDepart (plane : Nat) (s : State) : Res :=
  .next (if 8 ≤ plane ∨ s.portRuns plane = false ∨ s.fabricDark then s
    else
      let v := s.plane plane
      let s := s.setPlane plane { v with queue := v.queue.filter fun r => s.live r }
      let ts := s.queuedTenants plane
      let v := s.plane plane
      let s := s.setPlane plane { v with deficits := KM.keep (fun t _ => decide (t ∈ ts)) v.deficits }
      let ceiling := s.fld pTC (0x140 + 4 * plane) 9 0
      if ceiling < s.lineRate plane ∧ (ceiling = 0 ∨ s.now < v.ceilingAt) then s
      else
        let go := match s.nextOf plane v.current with
          | some r =>
            let n := s.respLength r plane
            if n ≤ KM.getD 0 (s.plane plane).deficits v.current ∧ s.capAllows v.current n then some (r, n) else none
          | none => none
        match go with
        | some (r, n) =>
          let v := s.plane plane
          (s.setPlane plane { v with deficits := KM.putD 0 v.deficits v.current (KM.getD 0 v.deficits v.current - n) }).depart plane r
        | none =>
          let round := roundFrom v.current ts
          s.visit (5 * round.length + 5) plane (round ++ round ++ round ++ round ++ round))

/-! ### Rate control (R148 to R150, R158) -/

/-- RATE, ALPHA and CLEAN of a peer-plane after a batch. -/
def batchRate (g hai ai haiStep minRate line ce total : Nat) (v : PeerPlane) : PeerPlane :=
  let bound := fun r => max (32 * minRate) (min r (32 * line))
  if total = 0 then { v with clean := 0, rate := bound v.rate }
  else
    let f := min 0xFFFF (ce * 65536 / total)
    let alpha := v.alpha - v.alpha / 2 ^ g + f / 2 ^ g
    if 0 < ce then { v with alpha, rate := bound (v.rate - v.rate * alpha / 131072), clean := 0 }
    else
      let clean := min 63 (v.clean + 1)
      { v with alpha, clean, rate := bound (v.rate + 32 * (if hai ≤ clean then haiStep else ai)) }

/-- The peer-planes of a batch updated: those whose peer has a queue pair in READY, UP, and on a plane in service. -/
def State.batch (s : State) : List Nat → State
  | [] => s
  | k :: l =>
    let peer := k / 8
    let plane := k % 8
    let v := s.pp peer plane
    let s :=
      if s.peerReady peer = false ∨ v.up = false ∨ s.inService plane = false then s
      else
        let silent := v.sent && decide (v.echoTotal = 0)
        let w := batchRate (s.fld pTC 0x100 27 24) (s.fld pTC 0x100 5 0) (s.fld pTC 0x104 7 0) (s.fld pTC 0x104 15 8) (s.fld pTC 0x108 9 0)
          (s.lineRate plane) v.echoCe v.echoTotal v
        let level := s.bucket peer plane
        let n := if silent then v.silent + 1 else if v.echoTotal = 0 then v.silent else 0
        let s := if 0 < v.echoCe then s.bump pTC 0x110 else s
        let s := if silent then s.bump pTC 0x114 else s
        let s := s.setPp peer plane { w with echoCe := 0, echoTotal := 0, bucket := level, bucketAt := s.now, silent := n, sent := false }
        if silent ∧ 16 ≤ n then s.fireLimited pTC 10 second k else s
    s.batch l

/-- The rate-control batch, every 8 µs; one abandoned changes nothing and keeps its inputs (R149). With RC_EN 0 batches stop. -/
def execRateBatch (done : Bool) (s : State) : Res :=
  .next (if bit (s.reg pTC 0x100) 31 = false then s
    else if done = false then (s.bump pTC 0x10C).fireLimited pTC 9
    else s.batch (s.fab.peerPlanes.map (·.1)))

/-- A write of the rate probe register: ignored while a result is published. -/
def execRateProbeWrite (req : Requester) (data : Word) (s : State) : Res :=
  .next (s.guarded req pTC fun s =>
    if s.resultValid pTC 0x124 then s
    else
      let v := s.pp (bits data 11 0) (bits data 14 12)
      s.publish pTC 0x124 [s.rateOf (bits data 11 0) (bits data 14 12), v.alpha * 65536 + b2n v.up * 128 + v.clean] 1)

end Sys2Proof.Machine
end

