-- ==== Sys2Proof/Machine/Revoke.lean ====
section
/-!
DEFINITION. Revocation of windows, destruction of objects (chapter 03, R74 to R78), and the erasure of a tenant (R344).
-/

namespace Sys2Proof.Machine

/-! ### Fences (R74) -/

/-- A window's revocation begins: REVOKING, its cache entry freed, its fence running. -/
def State.revoke (s : State) (idx op : Nat) : State :=
  let s := s.setWindow idx { s.window idx with revoking := true }
  let s := s.freeCached idx 1
  let f : Fence := { idx, kind := .revoke, op, since := s.now, abandoned := 0, late := false }
  { s with win.fences := s.win.fences ++ [f] }

/-- WINDOW_REVOKE of a handle. -/
def execWindowRevoke (c : AdminCmd) (s : State) : Res :=
  .next (s.adminRun 0x13 c fun op s =>
    if c.p0 ≠ 0 then (s, bad stINVALID_FIELD)
    else
      match s.checkHome c.target with
      | some st => (s, bad st)
      | none => (s.revoke (c.target / 256) op, none))

/-! ### The end of an object (R66, R72, R76) -/

/-- Pages an object names, by object page. -/
def State.pagesOf (s : State) (o : Object) : List Nat := (List.range o.sizePages).filterMap fun i => s.entryAt (o.pageList + 8 * i)

/-- The pages of a GATHER object leave the pools of their regions. -/
def State.leavePools (s : State) : List Nat → State
  | [] => s
  | p :: l =>
    let r := s.regionOf p
    let d := s.dirty r
    (s.setDirty r { d with gatherFree := d.gatherFree.filter (· ≠ p) }).leavePools l

/-- An object destroyed: its migration ends, its translations go, its pages are released, and its list is bound no longer once they are. Answers the pages released. -/
def State.destroy (s : State) (id : Nat) : Nat × State :=
  let o := s.object id
  if o.valid = false then (0, s)
  else
    let s := s.stopMigration id
    let pages := s.pagesOf o
    let s := s.setObject id { o with valid := false, destroying := true }
    let s := s.transInvalidate fun x _ => x == id
    let s := if o.gather then s.leavePools pages else s
    let s := s.releasePages pages
    let s := s.mirrorMeta (s.mapRecords pages ++ [s.objectRecord id]) pages
    (pages.length, s.endDestroy id)

/-- Objects destroyed, in order. -/
def State.destroys (s : State) : List Nat → Nat × State
  | [] => (0, s)
  | id :: l =>
    let (n, s) := s.destroy id
    let (m, s) := s.destroys l
    (n + m, s)

/-- A gather page of an object is in use (DESIGN CHOICE, log 16: such an object is not destroyed). -/
def State.gatherBusy (s : State) (o : Object) : Bool :=
  o.gather && (s.pagesOf o).any fun p => (KM.get (s.dirty (s.regionOf p)).gather p).isSome

/-! ### Withdrawals (R76, R344) -/

/-- A withdrawal changed. -/
def State.setWithdraw (s : State) (w : Withdraw) : State :=
  { s with win.withdraws := s.win.withdraws.map fun (x : Withdraw) => if x.op = w.op then w else x }

/-- The slots of a tenant zeroised. Answers how many. -/
def State.zeroiseAll (s : State) : List Nat → Nat × State
  | [] => (0, s)
  | n :: l =>
    let (_, s) := s.zeroise n
    let (k, s) := s.zeroiseAll l
    (k + 1, s)

/-- Slots of a tenant that hold keys. -/
def State.tenantSlots (s : State) (t : Nat) : List Nat :=
  (s.larder.slots.filter fun p => decide (p.2.state ≠ .empty ∧ p.2.owner = t ∧ 16 ≤ p.1)).map (·.1)

/-- The objects of a withdrawal destroyed; a TENANT_ERASE then zeroises the tenant's slots and waits for the erase of the key records, any other command completes. -/
def State.endWithdraw (s : State) (w : Withdraw) : State :=
  let (pages, s) := s.destroys w.objects
  match w.tenant with
  | some t =>
    let (n, s) := s.zeroiseAll (s.tenantSlots t)
    s.setWithdraw { w with objects := [], released := w.released + pages, zeroised := n, erasing := true }
  | none =>
    let s := { s with win.withdraws := s.win.withdraws.filter fun x => x.op ≠ w.op }
    match s.afterMirror w.op { status := stSUCCESS, r0 := w.abandoned } with
    | (s, some a) => s.complete w.op a
    | (s, none) => s

/-- A withdrawal goes on: the fence of its next window, or its end. -/
def State.goOn (s : State) (op : Nat) : State :=
  match s.win.withdraws.find? fun w => w.op == op with
  | none => s
  | some w =>
    match w.windows with
    | i :: _ => s.revoke i op
    | [] => s.endWithdraw w

/-- WINDOW_REVOKE of an object. -/
def execWindowRevokeObject (c : AdminCmd) (s : State) : Res :=
  .next (s.adminRun 0x13 c fun op s =>
    let o := s.object c.target
    if c.p0 ≠ 1 ∨ o.valid = false ∨ o.destroying then (s, bad stINVALID_FIELD)
    else if s.objectHome c.target = false ∨ s.streaming c.target ∨ s.gatherBusy o then (s, bad stSTATE_CONFLICT)
    else
      let w : Withdraw := { windows := (s.aliases c.target).map (·.1), objects := [c.target], tenant := none, op }
      (({ s with win.withdraws := s.win.withdraws ++ [w] }).goOn op, none))

/-! ### The fence drains -/

/-- A packet or a response reaches into what a fence withdraws. -/
def withdrawn (f : Fence) (write : Bool) (first last : Nat) : Bool :=
  match f.kind with
  | .revoke => true
  | .modify w r n => (if write then w else r) || decide (n * 16384 < last) || decide (last < first)

/-- A fence still waits for a packet admitted under its window. -/
def State.fenceBusy (s : State) (f : Fence) : Bool :=
  s.fab.placements.any fun p => decide (p.handle / 256 = f.idx) && withdrawn f true p.woff (p.woff + p.payload.length)

/-- Reads admitted under the window are dropped, and their responses never leave. -/
def State.dropReads (s : State) (f : Fence) : State :=
  let job := fun (j : ReadJob) => decide (j.handle / 256 = f.idx) && withdrawn f false j.offset (j.offset + j.msgLen)
  let resp := fun (r : Response) => decide (r.handle / 256 = f.idx) && withdrawn f false r.offset (r.offset + r.msgOff + r.data.length)
  { s with fab.reads := s.fab.reads.filter fun j => !job j,
           fab.planes := KM.mapV (fun _ (v : Plane) => { v with queue := v.queue.filter fun r => !resp r }) s.fab.planes }

/-- Incomplete write messages to a window, those that only await their order among them (R126; DEDUCED, log 47): queue pair and MSN. -/
def State.incompleteWrites (s : State) (idx : Nat) : List (Nat × Nat) :=
  (s.fab.trackers.filter fun p => !p.2.read && decide (p.2.handle / 256 = idx)).map fun p => (p.1 / 2 ^ 32, p.1 % 2 ^ 32)

/-- Messages failed by a revocation. -/
def State.abandon (s : State) : List (Nat × Nat) → State
  | [] => s
  | (n, m) :: l => (s.failMessage n m 0xF3).abandon l

/-- The descriptor of a revoked window written with VALID 0; the object of WINDOW_CREATE goes with its last alias (R76). -/
def State.endWindow (s : State) (idx : Nat) : Nat × State :=
  let w := s.window idx
  if w.valid = false then (0, s)
  else
    let s := s.setWindow idx { w with valid := false, revoking := false, pinSet := false, pinFirst := 0, pinCount := 0 }
    let s := { s with win.freeWindows := s.win.freeWindows ++ [idx] }
    let o := s.object w.object
    let s := s.setObject w.object { o with aliasCount := o.aliasCount - 1 }
    let s := s.mirrorMeta [s.windowRecord idx, s.objectRecord w.object]
    if o.single ∧ o.aliasCount ≤ 1 then s.destroy w.object else (0, s)

/-- One fence of a window has drained. -/
def State.fenceDone (s : State) (f : Fence) : State :=
  let s := { s with win.fences := s.win.fences.erase f }
  let s := s.dropReads f
  match f.kind with
  | .modify _ _ _ =>
    (match s.afterMirror f.op { status := stSUCCESS } with
     | (s, some a) => s.complete f.op a
     | (s, none) => s)
  | .revoke =>
    let lost := s.incompleteWrites f.idx
    let s := s.abandon lost
    let (pages, s) := s.endWindow f.idx
    match s.win.withdraws.find? fun w => w.op == f.op with
    | some w =>
      let w : Withdraw := { w with windows := w.windows.filter (· ≠ f.idx), abandoned := w.abandoned + lost.length, revoked := w.revoked + 1,
                                   released := w.released + pages }
      (s.setWithdraw w).goOn f.op
    | none =>
      match s.afterMirror f.op { status := stSUCCESS, r0 := lost.length } with
      | (s, some a) => s.complete f.op a
      | (s, none) => s

/-- Fences of a window that have drained, in order. -/
def State.fencesDone (s : State) : List Fence → State
  | [] => s
  | f :: l => (if s.fenceBusy f then s else s.fenceDone f).fencesDone l

/-- The fence of a window drains: no packet admitted under it is still under way. -/
def execRevokeFenceDrained (idx : Nat) (s : State) : Res :=
  .next ((s.fencesDone (s.win.fences.filter fun f => f.idx == idx)).settleAll.wakeBar2)

/-- A revocation's fence has not drained after 8 µs. -/
def execRevokeLate (idx : Nat) (s : State) : Res :=
  .next (if s.win.fences.any fun f => decide (f.idx = idx ∧ f.kind = .revoke) && !f.late then
      ({ s with win.fences := s.win.fences.map fun (f : Fence) => if f.idx = idx then { f with late := true } else f }).fire pTC 2
    else s)

/-! ### TENANT_ERASE (R344) -/

/-- TENANT_ERASE: queue pairs closed, windows revoked, objects destroyed, slots zeroised; it completes with the erase of the key records. -/
def execTenantErase (c : AdminCmd) (s : State) : Res :=
  .next (s.adminRun 0x11 c fun op s =>
    match KM.get s.win.tenants c.target with
    | none => (s, bad stINVALID_FIELD)
    | some t =>
      if bit (s.reg pPLD 0x044) 8 ∨ t.erasing then (s, bad stSTATE_CONFLICT)
      else
        let s := { s with win.tenants := KM.put s.win.tenants c.target { t with erasing := true } }
        let s := s.clearQps ((s.fab.qps.filter fun p => decide (p.2.state ≠ .free ∧ p.2.tenant = c.target)).map (·.1))
        let owned := (s.win.objects.filter fun p => p.2.valid && p.2.owner == c.target).map (·.1)
        let s := s.failStreams stKEY_LOST (s.larder.streams.filter fun x => decide (x.object ∈ owned))
        let wins := (s.win.windows.filter fun p => p.2.valid && (p.2.tenant == c.target || decide (p.2.object ∈ owned))).map (·.1)
        let w : Withdraw := { windows := wins, objects := owned, tenant := some c.target, op }
        (({ s with win.withdraws := s.win.withdraws ++ [w] }).goOn op, none))

/-- TENANT_ERASEs whose slots are zeroised end: the tenant is free. -/
def State.endErases (s : State) : List Withdraw → State
  | [] => s
  | w :: l =>
    let s := { s with win.withdraws := s.win.withdraws.filter fun x => x.op ≠ w.op,
                      win.tenants := match w.tenant with | some t => KM.del s.win.tenants t | none => s.win.tenants }
    let s := match w.tenant with | some t => s.countHeld.tallyEnd t | none => s
    (s.complete w.op { status := stSUCCESS, r0 := w.revoked, r1 := w.zeroised + 2 ^ 32 * w.released }).endErases l

/-- Key-record blocks that hold tombstones have their live records copied and are erased (R349). -/
def execKeyRecordBlockErase (s : State) : Res :=
  .next (({ s with larder.tombs := [] }).endErases (s.win.withdraws.filter fun w => w.erasing))

end Sys2Proof.Machine
end

