-- ==== Sys2Proof/Machine/Status.lean ====
section
/-!
DEFINITION. The pair state, the STATUS word, the conditions of TWIN_COVERED and the budget: what the twin (chapter 09) and the Granary (chapter 08) share.
-/

namespace Sys2Proof.Machine

/-! ### The budget (R171, R173, R196) -/

/-- A region's registers follow the budget; one whose D_r now exceeds B_r and did not before enters HOLD and raises OVER_BUDGET (R173). -/
def State.fitRegion (s : State) (r : Nat) : State :=
  let before := bit (s.reg (pRG r) 0x054) 19
  let s := s.setDirty r (s.dirty r)
  if bit (s.reg (pRG r) 0x054) 19 ∧ before = false then (s.enterHold r).fire (pRG r) 1 else s

/-- Regions follow the budget, in order. -/
def State.fitRegions (s : State) : List Nat → State
  | [] => s
  | r :: l => (s.fitRegion r).fitRegions l

/-- A new B takes effect at write admission. -/
def State.setBudget (s : State) (b : Nat) : State :=
  (((s.set64 pLG 0x044 0x048 b).fitRegions (List.range s.regions))).wakeBar2

/-! ### The STATUS word (R228) -/

/-- The power-loss flush has started: PHASE 2 to 5. -/
def State.flushing (s : State) : Bool := decide (2 ≤ s.phase ∧ s.phase ≤ 5)

/-- The STATUS word (table "STATUS word in LEASE, LEASE_GRANT, NOTICE and HELLO"). -/
def State.statusWord (s : State) : Nat :=
  s.pair + 8 * b2n (decide (s.pair = 3)) + 16 * b2n s.flushing + 32 * b2n (decide (s.phase = 6)) + 64 * b2n (!s.power.tripped) +
    128 * b2n (bit (s.reg pPLD 0x044) 8)

/-- A NOTICE on every port in service (R229). -/
def State.notice (s : State) (code : Nat) : State := s.sendAll (.notice code s.statusWord)

/-! ### TWIN_COVERED (R200) -/

/-- The twin's STATUS word allows TWIN_COVERED: in service, not in solo mode, not flushing, not restoring, VBUS_OK. -/
def twinAllows (w : Nat) : Bool := decide (w % 8 = 1) && !w.testBit 3 && !w.testBit 4 && !w.testBit 5 && w.testBit 6

/-- Every condition of R200 holds. -/
def State.tcHolds (s : State) : Bool :=
  decide (s.fld pLG 0x040 1 0 = 2 ∧ s.pair = 1 ∧ s.twinPorts ≠ []) && s.leaseHeld && twinAllows s.twin.twinStatus

/-- B under STRICT from the last period; 0 while it is forced to 0 (R198). -/
def State.strictBudget (s : State) : Nat := if s.fld pLG 0x058 1 0 = 3 then 0 else min s.power.base s.power.zone

/-- The conditions of R200 looked at again: where one fails, TWIN_COVERED leaves force at once. -/
def State.checkTc (s : State) : State :=
  if s.tcHolds then
    (match s.power.tcSince with
     | none => { s with power.tcSince := some 0 }
     | some _ => s)
  else
    let s := { s with power.tcSince := none }
    if bit (s.reg pLG 0x040) 31 then ((s.setFld pLG 0x040 31 31 0).setBudget s.strictBudget).fire pLG 3 else s

/-! ### The pair state (R234) -/

/-- LEASE_HELD, LEASE_REMAIN and LINK_UP shown as they stand now. -/
def State.showLease (s : State) : State :=
  let s := (s.setFld pTWC 0x044 6 6 (b2n s.leaseHeld)).setFld pTWC 0x044 5 5 (b2n (decide (s.twinPorts ≠ [])))
  s.setNum pTWC 0x04C ((s.twin.leaseUntil - s.now) / 1000000)

/-- A pair state entered; the twin is told (R229). -/
def State.setPair (s : State) (v : Nat) : State := (((s.setFld pTWC 0x044 2 0 v).showLease).notice 4).checkTc

/-- The STATUS word of the twin taken in; TWIN_TC_OK shows what it allows. -/
def State.takeStatus (s : State) (w : Nat) : State :=
  (({ s with twin.twinStatus := w }).setFld pTWC 0x044 7 7 (b2n (twinAllows w))).checkTc

/-- Credits held and granted set to 0, and the reservations behind the credits granted released (R227). -/
def State.clearCredits (s : State) : List Nat → State
  | [] => s
  | r :: l =>
    let s := (s.setNum pTWC (0x090 + 4 * r) 0).setNum pTWC (0x0A0 + 4 * r) 0
    (s.setDirty r { s.dirty r with reserved := 0 }).clearCredits l

/-- The log starts (R237): the pages named by frames the twin has not applied, and from now on every page placed or changed. -/
def State.startLog (s : State) : State := ({ s with twin.logging := true }).logPages (s.twin.sent.flatMap SentFrame.pages)

/-- The log cleared (R234). -/
def State.clearLog (s : State) : State :=
  (({ s with twin.logging := false, twin.logLoft := [], twin.logCellar := [] }).setNum pTWC 0x07C 0).setNum pTWC 0x080 0

/-- Reads that wait for the twin's copy under PURPOSE 1 are served by the region once it can (R238): they may ask again. -/
def State.forgetAsked (s : State) : State := { s with fab.reads := s.fab.reads.map fun (j : ReadJob) => { j with asked := [] } }

/-- What ends with PAIRED: a role swap, an audit, migrations, streams, the credits; TWIN_COVERED; the bypasses that need a healthy twin. -/
def State.endPaired (s : State) : State :=
  let s := match s.twin.swap with
    | some w => ({ s with twin.swap := none }).complete w.op { status := stTWIN_UNAVAILABLE }
    | none => s
  let s := match s.twin.audit with
    | some a => ({ s with twin.audit := none }).complete a.op
        { status := stTWIN_UNAVAILABLE, r0 := a.compared + 2 ^ 32 * a.mismatches, r1 := a.repaired }
    | none => s
  let s := (s.loseMigrations).failStreams stTWIN_UNAVAILABLE s.larder.streams
  ((s.clearCredits [0, 1, 2, 3]).checkTc).twinLost

/-- A resync in progress ends without completing. -/
def State.dropResync (s : State) : State :=
  match s.twin.resync with
  | some x =>
    ((({ s with twin.resync := none }).setFld pTWC 0x044 8 8 0).setNum pTWC 0x084 0).complete x.op { status := stTWIN_UNAVAILABLE, r0 := x.copied }
  | none => s

/-- SUSPECT entered (R230, R234, R237): the witness request is published with its CAUSE, and vector 35 signalled. -/
def State.enterSuspect (s : State) (cause : Nat) : State :=
  let s := { s with twin.survive := false, twin.yielded := false }
  let s := (s.startLog.setPair 2).dropResync.endPaired
  (((s.publish pTWC 0x054 [cause] 1).signalBoth 35).fire pTWC 0)

/-- Trackers whose bytes are all placed judged again. -/
def State.judgeAll (s : State) : List (Nat × Tracker) → State
  | [] => s
  | p :: l => (s.judge (p.1 / 2 ^ 32) (p.1 % 2 ^ 32)).judgeAll l

/-- Answers that waited for the mirror given: those whose frames lie below an MSEQ (R57). -/
def State.completeWaits (s : State) (applied : Nat) : State :=
  let ready := s.twin.waits.filter fun w => decide (w.1 ≤ applied)
  let s := { s with twin.waits := s.twin.waits.filter fun w => !decide (w.1 ≤ applied) }
  ready.foldl (fun s w => s.complete w.2.1 { status := w.2.2.1, r0 := w.2.2.2.1, r1 := w.2.2.2.2 }) s

/-- Every window and object is home here. -/
def State.homeAll (s : State) (side : Nat) : State :=
  { s with twin.homes := KM.keep (fun _ v => v ≠ 0) (s.win.windows.map fun p => (p.1, side)),
           win.objects := s.win.objects.map fun (p : Nat × Object) => (p.1, { p.2 with homeSide := side }) }

/-- Pages left behind asked of the twin (R215), once each. -/
def State.askBehind (s : State) : List Nat → State
  | [] => s
  | p :: l =>
    (if s.twin.reqs.any fun (q : ReadReq) => q.waiter == .leftBehind p then s else (s.askTwin (p * 16384) 16384 3 (.leftBehind p)).2).askBehind l

/-- Sequenced frames forgotten: what they carried counts for nothing at the twin. -/
def State.forgetSent (s : State) : State := { s with twin.sent := [] }

/-- SOLO entered (R233, R234): the epoch rises, every window is home here, and every rule that requires the mirror is waived. -/
def State.enterSolo (s : State) : State :=
  let s := (s.setNum pTWC 0x048 (s.epoch + 1)).homeAll s.side
  let s := (if s.twin.logging then s else s.startLog).forgetSent
  let s := (s.setPair 3).endPaired
  let s := s.judgeAll s.fab.trackers
  let s := (s.completeWaits (2 ^ 65)).postBar2 (2 ^ 65)
  (s.settleAll.wakeBar2).fire pTWC 1

end Sys2Proof.Machine
end

