-- ==== Sys2Proof/Machine/Twin.lean ====
section
/-!
DEFINITION. The twin (chapter 09): frames received, the mirror sequence, credits, leases, the pair states, reads from the twin, resync and resume, role swap and audits.
-/

namespace Sys2Proof.Machine

/-! ### Frames received (R220, R222) -/

/-- A twin port carries frames: in service with its link up, and no flush has powered it down (R204). -/
def State.portCarries (s : State) (p : Nat) : Bool := decide (p ∈ s.twinPorts) && !s.flushing

/-- A frame arrives on a port: none is heard on a port that is down, one with this side's own SIDE is dropped and counted (R220), else it is accepted and counted. -/
def State.hear (s : State) (f : TwinFrame) : Option State :=
  if s.portCarries f.port = false then none
  else if f.side = s.side then some (s.bump (pTP f.port) 0x050)
  else some (s.bump (pTP f.port) 0x048)

/-- A frame taken in where it is accepted. -/
def State.heard (s : State) (f : TwinFrame) (k : State → State) : State :=
  match s.hear f with
  | none => s
  | some t => if f.side = s.side then t else k t

/-- A frame of another epoch refused (R222, R233). -/
def State.staleEpoch (s : State) : State := (s.bump pTWC 0x078).fireLimited pTWC 3

/-- A frame of this appliance's epoch taken in. -/
def State.sameEpoch (s : State) (f : TwinFrame) (k : State → State) : State := if f.epoch = s.epoch then k s else s.staleEpoch

/-- A twin frame with a bad format or tag. -/
def execTwinFrameDrop (port : Nat) (tagFailed : Bool) (s : State) : Res :=
  .next (if s.portCarries port = false then s
    else
      let s := s.bump (pTP port) 0x050
      if tagFailed then s.fireLimited pTWC 7 else s)

/-! ### Applying mirrored data (R166, R168, R226, R227) -/

/-- A page of a segment charged at the mirror: a clean page becomes dirty for the owner, without a credit of this side's. -/
def State.mirrorCharge (s : State) (owner page : Nat) : State :=
  let s := s.markWritten page
  match s.pageNeed page with
  | .none => (match s.gatherOf page with | some g => s.touchGather g | none => s.chargePage page owner)
  | .charge => s.chargePage page owner
  | .gather => s.takeGather page owner

/-- The reservation behind one granted credit given up: it becomes the page's charge, or is released. -/
def State.useReservation (s : State) (r : Nat) : State :=
  let s := s.setNum pTWC (0x0A0 + 4 * r) (s.num pTWC (0x0A0 + 4 * r) - 1)
  s.setDirty r { s.dirty r with reserved := (s.dirty r).reserved - 1 }

/-- One segment applied. -/
def State.applySegment (s : State) (mseq : Nat) (g : Segment) : State :=
  let page := pageOf g.dpa
  let s := if g.newPage then s.useReservation (s.regionOf page) else s
  let s := s.mirrorCharge g.tenant page
  let s := s.placeIn page (g.dpa % 16384) g.data g.poison
  { s with twin.written := KM.put s.twin.written page mseq }

/-- Segments applied, in order. -/
def State.applySegments (s : State) (mseq : Nat) : List Segment → State
  | [] => s
  | g :: l => (s.applySegment mseq g).applySegments mseq l

/-! ### Applying metadata (R57, R58, table "MIRROR_META records") -/

/-- A window descriptor written. A new window is home at the sender; one that ends leaves the cache, and its index is released. -/
def State.applyWindow (s : State) (side idx : Nat) (w : Window) : State :=
  let old := s.window idx
  let s := s.setWindow idx w
  let s := if w.valid && !old.valid then { s with twin.homes := KM.putD 0 s.twin.homes idx side, win.freeWindows := s.win.freeWindows.filter (· ≠ idx) } else s
  let s := if old.valid && !w.valid then { s with win.freeWindows := s.win.freeWindows ++ [idx] } else s
  if old = w then s else s.freeCached idx (b2n (old.valid && !w.valid))

/-- The tenant of an object that a mirror does not hold yet is created (R58). -/
def State.implyTenant (s : State) (t : Nat) : State :=
  if s.tenantExists t then s
  else match s.makeTenant t 0 true with
    | some s => s.fire pTC 11
    | none => s

/-- The object page that claims a page noted in the map. -/
def State.noteClaims (s : State) (id : Nat) : List (Nat × Nat) → State
  | [] => s
  | (i, page) :: l => (s.setMap page { s.mapOf page with object := id, index := i }).noteClaims id l

/-- Object pages with the pages that back them. -/
def State.backed (s : State) (o : Object) : List (Nat × Nat) :=
  (List.range o.sizePages).filterMap fun i => (s.entryAt (o.pageList + 8 * i)).map fun p => (i, p)

/-- An object entry written, with this appliance's own STORAGE slot of the owner. -/
def State.applyObject (s : State) (id : Nat) (o : Object) : State :=
  let old := s.object id
  let s := if o.valid then s.implyTenant o.owner else s
  let o : Object := if o.valid then { o with keySlot := s.storageSlot o.owner } else o
  let s := s.setObject id o
  let s := if o.valid then { s with win.freeObjects := s.win.freeObjects.filter (· ≠ id) }
    else if old.valid ∨ old.destroying then { s with win.freeObjects := s.win.freeObjects ++ [id] } else s
  let s := s.transInvalidate fun x _ => x == id
  let s := if o.valid then s.noteClaims id (s.backed o) else s
  if old.valid && !o.valid then s.dropRef old.keySlot else s

/-- A page-list entry written: it names the page that backs an object page from now on. -/
def State.applyEntry (s : State) (dpa entry : Nat) : State :=
  let s := (s.countStore dpa false true).loftPut dpa (leBytes 8 entry)
  match s.win.objects.find? fun p => p.2.valid && decide (p.2.pageList ≤ dpa ∧ dpa < p.2.pageList + 8 * p.2.sizePages) with
  | none => s
  | some (id, o) =>
    let i := (dpa - o.pageList) / 8
    let s := s.transInvalidate fun x y => x == id && y == i
    match s.entryAt dpa with
    | some page => s.setMap page { s.mapOf page with object := id, index := i }
    | none => s

/-- A map state written: location fields stay local (table "MIRROR_META records"), so that a page the home shows MAPPED or GATHER keeps the state it has here. -/
def State.applyMapState (s : State) (page code : Nat) : State :=
  let e := s.mapOf page
  match mapStateOf code with
  | .mapped => s
  | .gather => s
  | .free =>
    let s := if e.state = .free ∨ e.state = .scrubbing then s else s.releasePage page
    let s := if isCellar page then s else (s.countPage page false).zeroPageBytes page
    { s.changeMap page {} with twin.harvested := KM.del s.twin.harvested page, twin.written := KM.del s.twin.written page }
  | .scrubbing => if e.state = .free ∨ e.state = .scrubbing then s.changeMap page { e with state := .scrubbing } else s.releasePage page
  | st => s.changeMap page { e with state := st, loc := 0, hint := 0 }

/-- The home of a range of windows set, and of the objects whose first window lies in it. -/
def State.applyRole (s : State) (first last side : Nat) : State :=
  let inRange := fun (i : Nat) => decide (first ≤ i ∧ i ≤ last)
  { s with twin.homes := (s.win.windows.filter fun p => inRange p.1).foldl (fun m p => KM.putD 0 m p.1 side) s.twin.homes }

/-- One record applied. -/
def State.applyRecord (s : State) (side : Nat) : MetaRecord → State
  | .window i valid revoking write read pinSet gen tenant object firstPage sizePages pinFirst pinCount =>
    s.applyWindow side i { valid, revoking, write, read, pinSet, gen, tenant, object, firstPage, sizePages, pinFirst, pinCount }
  | .object id valid readOnly gather destroying homeSide owner sizePages pageList aliasCount single =>
    s.applyObject id { valid, readOnly, gather, destroying, homeSide, owner, sizePages, pageList, aliasCount, single }
  | .pageList dpa entry => s.applyEntry dpa entry
  | .mapState page st => s.applyMapState page st
  | .harvested page mseq => { s with twin.harvested := KM.put s.twin.harvested page mseq }
  | .role first last side => s.applyRole first last side
  | .extentBegin _ => s
  | .extentEnd _ => s

/-- Records applied, in order. -/
def State.applyRecords (s : State) (side : Nat) : List MetaRecord → State
  | [] => s
  | r :: l => (s.applyRecord side r).applyRecords side l

/-! ### Audits at the mirror, reads for the twin (R238, R240) -/

/-- Poisoned lines as a map. -/
def mapOfLines (l : List Nat) : Nat := l.foldl (fun m i => withBit m i) 0

/-- The plaintext of a page and its poison map, with the bytes of poisoned lines as zero; a page that cannot be read has every line poisoned. -/
def State.auditContent (s : State) (page : Nat) : List Byte × Nat :=
  match s.pageData page with
  | some (d, p) => ((List.range 16384).map fun i => if i / 64 ∈ p then 0 else KM.getD 0 d i, mapOfLines p)
  | none => (List.replicate 16384 0, 2 ^ 256 - 1)

/-- The digest of a page: HMAC-SHA-256 under the link key in use, truncated to 16 bytes. -/
def State.digest (s : State) (page : Nat) : List Byte × Nat :=
  let (bs, p) := s.auditContent page
  ((beBytes 32 (Config.hmacSha256 (s.slot s.linkSlot).key (bs ++ leBytes 32 p)).toNat).take 16, p)

/-- A READ_REQ answered (R238): a Cellar page that lies in flash is recovered first, short of asking back. -/
def State.answerRead (s : State) (id dpa len : Nat) : State :=
  let page := pageOf dpa
  let e := s.mapOf page
  if len = 0 ∨ 16384 < dpa % 16384 + len then s
  else if e.state = .mapped ∧ (isCellar page ∨ (KM.get s.loft.away page).isSome) then s.park e.loc page 0 (.twin id dpa len)
  else
    let (bs, p) := match s.pageData page with
      | some (d, lines) => contentRange (some { kind := 0, page, slot := 0, salt := 0, ctr := 0, poison := lines, data := d }) (dpa % 16384) len
      | none => contentRange none (dpa % 16384) len
    s.sendOne (.readData id dpa p bs)

/-- READ_REQs of the twin whose AFTER_SEQ has been reached are answered. -/
def State.answerReads (s : State) : List (Nat × Nat × Nat × Nat) → State
  | [] => s
  | (id, dpa, len, after) :: l =>
    (if s.mseqApplied < after then { s with twin.asks := s.twin.asks ++ [(id, dpa, len, after)] } else s.answerRead id dpa len).answerReads l

/-- A READ_REQ arrives. -/
def execReadReqRx (f : TwinFrame) (s : State) : Res :=
  .next (s.heard f fun s =>
    match f.body with
    | .readReq id dpa len after _ => s.answerReads [(id, dpa, len, after)]
    | _ => s)

/-! ### The mirror sequence, received (R222, R223, R320) -/

/-- Every segment of a frame passes its check. -/
def checksPass (f : TwinFrame) : Bool :=
  match f.body with
  | .mirrorData segs => segs.all fun g => decide (g.check = segmentCheck g.dpa f.epoch g.data)
  | _ => true

/-- A frame put into the reorder buffer, by MSEQ. -/
def insertFrame (f : TwinFrame) : List TwinFrame → List TwinFrame
  | [] => [f]
  | g :: l => if f.mseq < g.mseq then f :: g :: l else if f.mseq = g.mseq then g :: l else g :: insertFrame f l

/-- The segments of a frame find the gather pages they need (DESIGN CHOICE, log 18: a frame that finds none waits, and is tried again at each MACK). -/
def State.canApply (s : State) (f : TwinFrame) : Bool :=
  match f.body with
  | .mirrorData segs => segs.all fun g => s.pageNeed (pageOf g.dpa) ≠ .gather || decide (segs.length ≤ (s.dirty (s.regionOf (pageOf g.dpa))).gatherFree.length)
  | _ => true

/-- A frame applied. -/
def State.applyFrame (s : State) (f : TwinFrame) : State :=
  let s := match f.body with
    | .mirrorData segs => s.applySegments f.mseq segs
    | .mirrorMeta recs => s.applyRecords f.side recs
    | .auditReq page id => let (d, p) := s.digest page; s.sendOne (.auditDigest id d p)
    | _ => s
  s.set64 pTWC 0x06C 0x070 (f.mseq + 1)

/-- Frames of the reorder buffer applied as far as they are in sequence. -/
def State.drain (fuel : Nat) (s : State) : State :=
  match fuel with
  | 0 => s
  | fuel + 1 =>
    match s.twin.reorder with
    | [] => s
    | f :: l =>
      if f.mseq = s.mseqApplied ∧ s.canApply f then (({ s with twin.reorder := l }).applyFrame f).drain fuel else s

/-- The sequence looked at again: frames applied, and the twin's READ_REQs that waited for them answered. -/
def State.drainAll (s : State) : State :=
  let s := s.drain (s.twin.reorder.length + 1)
  let asks := s.twin.asks
  (({ s with twin.asks := [] }).answerReads asks).settleAll

/-- The first MSEQ from one on that has not been received. -/
def firstMissing (n : Nat) : List TwinFrame → Nat
  | [] => n
  | f :: l => if f.mseq = n then firstMissing (n + 1) l else if f.mseq < n then firstMissing n l else n

/-- Credits granted for a region in a MACK (R227): as many as CREDIT_MAX and the region's budget leave room for, outside SOLO. -/
def State.creditRoom (s : State) (r : Nat) : Nat :=
  if s.regions ≤ r ∨ ¬(s.pair = 1 ∨ s.pair = 5) then 0
  else min (s.fld pTWC 0x0B0 15 0 - s.num pTWC (0x0A0 + 4 * r)) (s.budgetR / 16384 - dirtyPages (s.dirty r))

/-- Credits of regions granted: each reserves a page. -/
def State.grantCredits (s : State) : List Nat → List Nat × State
  | [] => ([], s)
  | r :: l =>
    let n := s.creditRoom r
    let s := if n = 0 then s
      else (s.setNum pTWC (0x0A0 + 4 * r) (s.num pTWC (0x0A0 + 4 * r) + n)).setDirty r { s.dirty r with reserved := (s.dirty r).reserved + n }
    let (rest, s) := s.grantCredits l
    (n :: rest, s)

/-- A MACK sent on a port (R223). The credit grants are those of this MACK (DESIGN CHOICE, log 18). -/
def State.sendMack (s : State) (port : Nat) : State :=
  let s := s.drainAll
  let (grants, s) := s.grantCredits [0, 1, 2, 3]
  let applied := s.mseqApplied
  let rx := firstMissing applied s.twin.reorder
  let map := s.twin.reorder.foldl (fun m (f : TwinFrame) => if rx < f.mseq ∧ f.mseq ≤ rx + 256 then withBit m (f.mseq - rx - 1) else m) 0
  let (q, x) := KM.getD (0, 0) s.twin.lastRx port
  ({ s with twin.rxSince := KM.putD 0 s.twin.rxSince port 0 }).sendFrame (s.plainFrame port (.mack applied rx map q x grants))

/-- A sequenced frame arrives: its check, its place in the sequence, and a MACK after every 8 frames of a port. -/
def State.rxSeq (s : State) (f : TwinFrame) : State :=
  s.sameEpoch f fun s =>
    if checksPass f = false then
      let s := s.bump pCHK 0x070
      if f.mseq ∈ s.twin.checkFails then s.fire pCHK 1 else { s with twin.checkFails := f.mseq :: s.twin.checkFails }
    else
      let n := KM.getD 0 s.twin.rxSince f.port + 1
      let s := { s with twin.lastRx := KM.put s.twin.lastRx f.port (f.mseq, f.txCount), twin.rxSince := KM.put s.twin.rxSince f.port n,
                        twin.checkFails := s.twin.checkFails.filter (· ≠ f.mseq) }
      let s := if f.mseq < s.mseqApplied ∨ s.mseqApplied + 8192 ≤ f.mseq then s
        else ({ s with twin.reorder := insertFrame f s.twin.reorder }).drainAll
      if 8 ≤ n then s.sendMack f.port else s

/-- A MIRROR_DATA frame arrives. -/
def execMirrorDataRx (f : TwinFrame) (s : State) : Res :=
  .next (s.heard f fun s => match f.body with | .mirrorData _ => s.rxSeq f | _ => s)

/-- A MIRROR_META frame arrives. -/
def execMirrorMetaRx (f : TwinFrame) (s : State) : Res :=
  .next (s.heard f fun s => match f.body with | .mirrorMeta _ => s.rxSeq f | _ => s)

/-- An AUDIT_REQ arrives; the digest is computed as it is applied. -/
def execAuditReqRx (f : TwinFrame) (s : State) : Res :=
  .next (s.heard f fun s => match f.body with | .auditReq _ _ => s.rxSeq f | _ => s)

/-- The MACK timer of a port. -/
def execMackSendTimer (port : Nat) (s : State) : Res :=
  .next (if s.portCarries port then s.sendMack port else s)

/-! ### The mirror sequence, sent (R223, R224) -/

/-- The port a frame is sent on next: another one than before where there is one. -/
def State.otherPort (s : State) (p : Nat) : Option Nat :=
  match s.twinPorts.find? fun q => decide (p < q) with
  | some q => some q
  | none => s.twinPorts.head?

/-- A frame resent: the same ciphertext, TX_COUNT + 1. Where no port is in service it waits for one. -/
def State.resend (s : State) (x : SentFrame) : State :=
  let port := x.frame.port
  let put := fun (y : SentFrame) => s.twin.sent.map fun (z : SentFrame) => if z.frame.mseq = x.frame.mseq then y else z
  match s.otherPort port with
  | none => { s with twin.sent := put { x with queued := true } }
  | some q =>
    let f : TwinFrame := { x.frame with port := q, txCount := min 255 (x.frame.txCount + 1) }
    let s := { s with twin.sent := put { x with frame := f, lastAt := s.now } }
    ((s.bump pTWC 0x074).bump (pTP q) 0x044).emit (.twin f)

/-- A transmission lost: counted at its port, and the frame resent. -/
def State.loseFrame (s : State) (mseq : Nat) : State :=
  match s.twin.sent.find? fun x => x.frame.mseq == mseq with
  | some x => if x.queued then s else (s.bump (pTP x.frame.port) 0x04C).resend x
  | none => s

/-- Transmissions lost, in order. -/
def State.loseFrames (s : State) : List Nat → State
  | [] => s
  | n :: l => (s.loseFrame n).loseFrames l

/-- Frames that wait their turn sent, while fewer than 8,192 are unapplied and a port is in service. -/
def State.sendQueued (s : State) : List SentFrame → State
  | [] => s
  | x :: l =>
    let under := (s.twin.sent.filter fun (y : SentFrame) => decide (y.frame.mseq < x.frame.mseq)).length < 8192
    match s.twinPorts with
    | [] => s
    | ports =>
      if x.queued ∧ under then
        let f : TwinFrame := { x.frame with port := ports.getD (x.frame.mseq % ports.length) 0 }
        let s := { s with twin.sent := s.twin.sent.map fun (z : SentFrame) =>
                            if z.frame.mseq = f.mseq then { x with frame := f, queued := false, firstAt := s.now, lastAt := s.now } else z }
        (s.sendFrame f).sendQueued l
      else s.sendQueued l

/-- SRTT and RTTVAR of a port after a sample (R132, R224). -/
def State.sampleRtt (s : State) (port r : Nat) : State :=
  let srtt := s.num (pTP port) 0x054
  let srtt' := (7 * srtt + r) / 8
  let d := if r < srtt' then srtt' - r else r - srtt'
  let v := KM.getD 0 s.twin.rttvar port
  ({ s with twin.rttvar := KM.put s.twin.rttvar port ((3 * v + d) / 4) }).setNum (pTP port) 0x054 srtt'

/-- Frames that a MACK shows lost: sent on its port before the frame its TRIGGER names, and not shown received. -/
def lostBy (l : List SentFrame) (port applied rx map q x : Nat) : List Nat :=
  match l.find? fun (y : SentFrame) => decide (y.frame.mseq = q ∧ y.frame.txCount = x ∧ y.frame.port = port) with
  | none => []
  | some t =>
    (l.filter fun (y : SentFrame) =>
      decide (y.frame.port = port ∧ applied ≤ y.frame.mseq ∧ rx ≤ y.frame.mseq ∧ y.frame.mseq ≠ q ∧
        (y.lastAt < t.lastAt ∨ y.lastAt = t.lastAt ∧ y.frame.mseq < q)) && !y.queued &&
      !(decide (rx < y.frame.mseq) && map.testBit (y.frame.mseq - rx - 1))).map fun y => y.frame.mseq

/-- Credits received added to those held, outside the states in which they lapse. -/
def State.takeGrants (s : State) (r : Nat) : List Nat → State
  | [] => s
  | n :: l => (if s.pair = 1 ∨ s.pair = 5 ∨ s.pair = 3 ∧ s.twin.resync.isSome then s.setCredit r (s.credit r + n) else s).takeGrants (r + 1) l

/-- A ROLE_SWAP whose record has been applied ends: the map changes, and the command completes (R239). -/
def State.endSwap (s : State) (applied : Nat) : State :=
  match s.twin.swap with
  | some w =>
    (match w.sentAt with
     | some m =>
       if m < applied then
         (({ s with twin.swap := none }).applyRole w.first w.last (1 - s.side)).complete w.op { status := stSUCCESS }
       else s
     | none => s)
  | none => s

/-! ### Resync: the copies (R235, R236) -/

/-- Pages of an extent that an object claims: four pages of the Loft, 64 of the Cellar. -/
def State.extentPages (s : State) (cellar : Bool) (n : Nat) : List Nat :=
  (if cellar then List.range' (cellarBase + 64 * n) 64 else List.range' (4 * n) 4).filter fun p =>
    (KM.get s.win.map p).isSome && decide ((s.mapOf p).state ≠ .retired)

/-- A page copied to the twin: 16 KiB in MIRROR_DATA frames of 4 KiB, the first drawing a credit; its map state goes ahead. -/
def State.copyPage (s : State) (page : Nat) : State :=
  let s := s.mirrorMeta [.mapState page (if (s.mapOf page).state = .empty then 2 else 1)] [page]
  if (s.mapOf page).state = .empty ∨ (s.mapOf page).state = .scrubbing then s
  else
    let (bs, p) := s.auditContent page
    let s := s.setCredit (s.regionOf page) (s.credit (s.regionOf page) - 1)
    let cut := fun (o : Nat) => [s.segment (page * 16384 + o) (s.object (s.mapOf page).object).owner (p / 2 ^ (o / 64) % 2 ^ 64) (decide (o = 0)) ((bs.drop o).take 4096)]
    [0, 4096, 8192, 12288].foldl (fun s o => s.sendSeq (.mirrorData (cut o)) [] [page]) s

/-- Pages copied, in order. -/
def State.copyPages (s : State) : List Nat → State
  | [] => s
  | p :: l => (s.copyPage p).copyPages l

/-- The number an extent has in EXTENT_BEGIN and EXTENT_END: the Cellar's follow the Loft's. -/
def extentNumber (x : Bool × Nat) : Nat := (if x.1 then 2 ^ 32 else 0) + x.2

/-- Extents copied in order while the credits held cover the pages of the next one (R235). -/
def State.copyExtents (fuel : Nat) (s : State) : State :=
  match fuel with
  | 0 => s
  | fuel + 1 =>
    match s.twin.resync with
    | none => s
    | some x =>
      match x.left with
      | [] => s
      | e :: l =>
        let pages := s.extentPages e.1 e.2
        if [0, 1, 2, 3].all fun r => decide ((pages.filter fun p => s.regionOf p == r).length ≤ s.credit r) then
          let s := s.mirrorMeta [.extentBegin (extentNumber e)] []
          let s := s.copyPages pages
          let s := s.mirrorMeta [.extentEnd (extentNumber e)] []
          (({ s with twin.resync := some { x with left := l, copied := x.copied + 1 } }).setNum pTWC 0x084 l.length).copyExtents fuel
        else s

/-- Copies go on as far as the credits allow. -/
def State.goCopy (s : State) : State :=
  match s.twin.resync with
  | some x => if x.sender then s.copyExtents (x.left.length + 1) else s
  | none => s

/-- A MACK arrives. -/
def execMackRx (f : TwinFrame) (s : State) : Res :=
  .next (s.heard f fun s =>
    match f.body with
    | .mack applied rx map q x grants =>
      let s := match s.twin.sent.find? fun (y : SentFrame) => decide (y.frame.mseq = q ∧ y.frame.txCount = x ∧ y.frame.port = f.port) with
        | some t => s.sampleRtt f.port (s.now - t.lastAt)
        | none => s
      let done := s.twin.sent.filter fun (y : SentFrame) => decide (y.frame.mseq < applied)
      let lost := lostBy s.twin.sent f.port applied rx map q x
      let s := { s with twin.sent := s.twin.sent.filter fun (y : SentFrame) => decide (applied ≤ y.frame.mseq) }
      let s := s.mirrored (done.flatMap SentFrame.bytes)
      let s := ((s.postBar2 applied).completeWaits applied).endSwap applied
      let s := (s.loseFrames lost).takeGrants 0 grants
      ((s.sendQueued s.twin.sent).goCopy.wakeBar2).settleAll
    | _ => s)

/-- The timer of a frame expires (R224). -/
def execTwinRtoExpire (mseq : Nat) (s : State) : Res := .next (s.loseFrame mseq)

/-- The twin is lost: PAIRED and JOINING end in SUSPECT (R230, R234). -/
def State.twinGone (s : State) (cause : Nat) : State := if s.pair = 1 ∨ s.pair = 5 then s.enterSuspect cause else s

/-- A frame stays unapplied for 50 ms. -/
def execMirrorUnappliedLimit (mseq : Nat) (s : State) : Res :=
  .next (if s.twin.sent.any fun x => x.frame.mseq == mseq then s.twinGone 3 else s)

/-! ### Leases (R228, R230) -/

/-- The lease timer: a LEASE on every port in PAIRED and SUSPECT. -/
def execLeaseSendTimer (s : State) : Res :=
  .next (if s.pair = 1 ∨ s.pair = 2 then
      let id := s.twin.nextLease
      let s := { s with twin.nextLease := (id + 1) % 2 ^ 32,
                        twin.leases := KM.put (KM.keep (fun _ t => decide (s.now < t + 150000000)) s.twin.leases) id s.now }
      s.sendAll (.lease id s.statusWord)
    else s)

/-- A LEASE arrives: granted in PAIRED and SUSPECT, but for a SUSPECT that has taken a verdict. -/
def execLeaseRx (f : TwinFrame) (s : State) : Res :=
  .next (s.heard f fun s =>
    match f.body with
    | .lease id w =>
      s.sameEpoch f fun s =>
        let s := s.takeStatus w
        if s.pair = 1 ∨ s.pair = 2 ∧ s.twin.survive = false ∧ s.twin.yielded = false then
          ({ s with twin.grantTx := s.now }).sendFrame (s.plainFrame f.port (.leaseGrant id s.statusWord 150))
        else s
    | _ => s)

/-- A LEASE_GRANT arrives: the lease holds for 150 ms from when its LEASE was sent; in SUSPECT the appliance returns to PAIRED (R234), where credits start from zero. -/
def execLeaseGrantRx (f : TwinFrame) (s : State) : Res :=
  .next (s.heard f fun s =>
    match f.body with
    | .leaseGrant id w _ =>
      s.sameEpoch f fun s =>
        match KM.get s.twin.leases id with
        | none => s.takeStatus w
        | some t =>
          if ¬(s.pair = 1 ∨ s.pair = 2) then s.takeStatus w
          else
            let s := { s with twin.leaseUntil := max s.twin.leaseUntil (t + 150000000), twin.grantRx := s.now, twin.readFailed := false }
            let s := if s.pair = 2 then ((({ s with twin.survive := false }).clearLog).clearCredits [0, 1, 2, 3]).setPair 1 else s.showLease
            (s.takeStatus w).wakeBar2
    | _ => s)

/-- The lease ends without a verdict: reads and writes are refused from now on. -/
def execLeaseExpire (s : State) : Res :=
  .next ((({ s with twin.leaseUntil := min s.twin.leaseUntil s.now }).showLease.checkTc).twinLost)

/-- No LEASE_GRANT has arrived for 100 ms. -/
def execGrantMissingExpire (s : State) : Res := .next (if s.pair = 1 then s.enterSuspect 1 else s)

/-- No HELLO for 1 s in INIT. -/
def execHelloTimeout (s : State) : Res := .next (if s.pair = 0 then s.enterSuspect 4 else s)

/-! ### The witness, SOLO (R230 to R234) -/

/-- A write of WITNESS_VERDICT. -/
def execWitnessVerdictWrite (req : Requester) (data : Word) (s : State) : Res :=
  .next (s.guarded req pTWC fun s =>
    let v := bits data 31 30
    if v = 0 ∨ v = 3 then s
    else if s.resultValid pTWC 0x054 = false ∨ bits data 15 0 ≠ s.fld pTWC 0x054 15 0 then s.bump pPKG 0x054
    else
      let s := s.consume pTWC 0x054
      if s.pair ≠ 2 then s
      else if v = 1 then ({ s with twin.survive := true }).showLease
      else (({ s with twin.yielded := true, twin.survive := false }).setPair 4).fire pTWC 2)

/-- With SURVIVE held, 200 ms after its last LEASE_GRANT, the appliance enters SOLO. -/
def execSoloEnter (s : State) : Res := .next (if s.pair = 2 ∧ s.twin.survive then s.enterSolo else s)

/-- A NOTICE arrives: the conditions of R200 are looked at again; a flush notice makes an appliance whose own detector has not tripped enter SOLO at once (R232). -/
def execNoticeRx (f : TwinFrame) (s : State) : Res :=
  .next (s.heard f fun s =>
    match f.body with
    | .notice code w =>
      let s := s.takeStatus w
      if code = 3 ∧ (s.pair = 1 ∨ s.pair = 2) ∧ s.power.tripped = false then s.enterSolo else s
    | _ => s)

/-! ### HELLO (R222, R233, R234) -/

/-- A HELLO of this appliance. -/
def State.helloBody (s : State) : TwinBody := .hello s.pair (bit (s.reg pPLD 0x044) 8) (bit (s.reg pTWC 0x088) 0) (s.reg64 pPKG 0x044 0x048)

/-- The mirror sequences start again at 1: frames not applied are forgotten on both sides, the pages this side's named stay in the log, and answers that waited for them
wait for PAIRED. HARVESTED records stand for pages no later frame has written. -/
def State.restartSequence (s : State) : State :=
  let s := s.logPages (s.twin.sent.flatMap SentFrame.pages)
  let s := s.postBar2 (2 ^ 65)
  let keep := KM.keep (fun p _ => !s.writtenLater p) s.twin.harvested
  let s := { s with twin.sent := [], twin.reorder := [], twin.checkFails := [], twin.asks := [], twin.lastRx := [], twin.rxSince := [],
                    twin.harvested := KM.mapV (fun _ _ => 0) keep, twin.written := [],
                    twin.waits := s.twin.waits.map fun (w : Nat × Nat × Nat × Nat × Nat) => (2 ^ 64, w.2) }
  (s.set64 pTWC 0x064 0x068 1).set64 pTWC 0x06C 0x070 1

/-- LOG frames with this appliance's log, at most 1,024 extents to a frame (DESIGN CHOICE, log 18). -/
def State.sendLog (fuel : Nat) (s : State) (loft cellar : List Nat) : State :=
  match fuel with
  | 0 => s
  | fuel + 1 =>
    let last := decide (loft.length ≤ 1024 ∧ cellar.length ≤ 1024)
    let s := s.sendOne (.log (loft.take 1024) (cellar.take 1024) last)
    if last then s else s.sendLog fuel (loft.drop 1024) (cellar.drop 1024)

/-- This appliance's log sent. -/
def State.sendOwnLog (s : State) : State := s.sendLog (s.twin.logLoft.length + s.twin.logCellar.length + 1) s.twin.logLoft s.twin.logCellar

/-- Extents in order: the Loft's, then the Cellar's. -/
def extentList (loft cellar : List Nat) : List (Bool × Nat) := loft.map (fun n => (false, n)) ++ cellar.map fun n => (true, n)

/-- Every extent that holds a claimed page. -/
def State.allExtents (s : State) : List (Bool × Nat) :=
  let claimed := (s.win.map.filter fun p => decide (p.2.state ≠ MapState.free)).map (·.1)
  extentList ((claimed.filter fun p => !isCellar p).foldl (fun l p => insertSorted (p / 4) l) [])
    ((claimed.filter isCellar).foldl (fun l p => insertSorted ((p - cellarBase) / 64) l) [])

/-- Extents of pages the twin left behind, as this side's own (R215). -/
def State.behindExtents (s : State) : List Nat := s.power.leftBehind.foldl (fun l p => insertSorted (p / 4) l) []

/-- JOINING entered: to be resynchronised by the survivor, or to resume with it. SIDE 0 is the source of a resume, but for extents it left behind (R236). -/
def State.enterJoining (s : State) (resume : Bool) (epoch side : Nat) : State :=
  let s := s.setNum pTWC 0x048 epoch
  let s := if resume then s else s.homeAll side
  let s := (if s.twin.logging then s else { s with twin.logging := true }).clearCredits [0, 1, 2, 3]
  let s := { s with twin.resync := some { op := 0, sender := false, resume, full := false, logIn := false, left := [], copied := 0 } }
  let s := ((s.setFld pTWC 0x044 8 8 1).setPair 5).sendOwnLog
  s.askBehind s.power.leftBehind

/-- A HELLO exchanged: the pair state moves as the table "Pair states" says; in PAIRED, in JOINING, and while a resync runs, it changes nothing. -/
def execHelloRx (f : TwinFrame) (s : State) : Res :=
  .next (s.heard f fun s =>
    match f.body with
    | .hello st _ valid _ =>
      if s.pair = 1 ∨ s.pair = 5 ∨ s.twin.resync.isSome then s
      else
        let s := (s.sendFrame (s.plainFrame f.port s.helloBody)).restartSequence
        let s := { s with twin.peerLog := false, twin.peerLogValid := valid, twin.epochGap := decide (f.epoch + 1 < s.epoch), twin.seen := true }
        match s.pair with
        | 0 =>
          if f.epoch = s.epoch then s.enterJoining true s.epoch f.side
          else if f.epoch < s.epoch then (s.setPair 3).fire pTWC 1
          else s.enterJoining false f.epoch f.side
        | 2 =>
          if f.epoch = s.epoch then s.enterJoining true s.epoch f.side
          else if s.epoch < f.epoch then s.enterJoining false f.epoch f.side
          else s
        | 3 => s.fire pTWC 4
        | 4 => if st = 3 then s.enterJoining false f.epoch f.side else s
        | _ => s
    | _ => s)

/-! ### Resync and resume (R235, R236) -/

/-- The reserve copied: every window and object, the map states, and the bound page lists. -/
def State.copyReserve (s : State) : State :=
  let lists := s.win.objects.flatMap fun p =>
    if p.2.valid then (s.backed p.2).map fun x => MetaRecord.pageList (p.2.pageList + 8 * x.1) (entryValue x.2) else []
  s.mirrorMeta (lists ++ (s.win.objects.map fun p => s.objectRecord p.1) ++ (s.win.windows.map fun p => s.windowRecord p.1)) []

/-- The merged log becomes the extents to copy, once the twin's log has arrived whole. -/
def State.beginCopy (s : State) : State :=
  match s.twin.resync with
  | none => s
  | some x =>
    if s.twin.peerLog = false ∨ x.logIn then s
    else
      let whole := x.full || !s.twin.peerLogValid || !bit (s.reg pTWC 0x088) 0 || s.twin.epochGap
      let behind := s.behindExtents
      let merged := if whole then s.allExtents else extentList s.twin.logLoft s.twin.logCellar
      let send := if x.resume then (merged.filter fun e => decide (s.side = 0) && !(!e.1 && decide (e.2 ∈ behind))) else merged
      let x : Resync := { x with logIn := true, sender := x.sender || x.resume, left := send }
      let s := ({ s with twin.resync := some x }).setNum pTWC 0x084 send.length
      (if x.resume ∧ s.side = 1 then s else s.copyReserve).goCopy

/-- RESYNC_START on the survivor. -/
def execResyncStart (c : AdminCmd) (s : State) : Res :=
  .next (s.adminRun 0x33 c fun op s =>
    if 1 < c.p0 then (s, bad stINVALID_FIELD)
    else if s.pair ≠ 3 ∨ s.twin.resync.isSome then (s, bad stSTATE_CONFLICT)
    else if s.twinPorts = [] ∨ s.twin.seen = false then (s, bad stTWIN_UNAVAILABLE)
    else
      let s := s.clearCredits [0, 1, 2, 3]
      let s := { s with twin.resync := some { op, sender := true, resume := false, full := c.p0 = 1, logIn := false, left := [], copied := 0 } }
      ((s.setFld pTWC 0x044 8 8 1).beginCopy, none))

/-- A LOG frame arrives: its extents are merged with the log. -/
def execLogRx (f : TwinFrame) (s : State) : Res :=
  .next (s.heard f fun s =>
    match f.body with
    | .log loft cellar last =>
      let a := loft.foldl (fun l n => insertSorted n l) s.twin.logLoft
      let b := cellar.foldl (fun l n => insertSorted n l) s.twin.logCellar
      let s := ({ s with twin.logLoft := a, twin.logCellar := b, twin.peerLog := last || s.twin.peerLog }).setNum pTWC 0x07C a.length
      (s.setNum pTWC 0x080 b.length).beginCopy
    | _ => s)

/-- Every extent has been copied and applied: both appliances enter PAIRED (R234, R235). -/
def execResyncComplete (s : State) : Res :=
  .next (match s.twin.resync with
    | none => s
    | some x =>
      if x.left ≠ [] ∨ s.twin.sent ≠ [] ∨ s.twin.reorder ≠ [] ∨ (x.sender && !x.logIn) then s
      else
        let s := (((({ s with twin.resync := none, twin.seen := false }).setFld pTWC 0x044 8 8 0).clearLog).setFld pTWC 0x088 0 0 1).clearCredits [0, 1, 2, 3]
        let s := (s.setPair 1).fire pTWC 5
        (s.complete x.op { status := stSUCCESS, r0 := x.copied }).completeWaits (2 ^ 64))

/-! ### Ports (R224, R225) -/

/-- Frames sent on a port and not applied. -/
def State.onPort (s : State) (p : Nat) : List Nat := (s.twin.sent.filter fun (x : SentFrame) => decide (x.frame.port = p)).map fun x => x.frame.mseq

/-- A port stops: its frames are lost, and where it was the last one the pair becomes SUSPECT. -/
def State.portStops (s : State) (p : Nat) : State :=
  let s := s.loseFrames (s.onPort p)
  let s := if s.twinPorts = [] then s.twinGone 2 else s
  (s.showLease.checkTc).twinLost

/-- A twin port link goes down. -/
def execTwinPortLinkDown (port : Nat) (s : State) : Res :=
  .next (if 4 ≤ port ∨ bit (s.reg (pTP port) 0x040) 0 = false then s
    else ((s.setFld (pTP port) 0x040 0 0 0).fire pTWC 8).portStops port)

/-- A twin port's link up. -/
def State.linkTwin (s : State) (port : Nat) : State :=
  let s := (s.setFld (pTP port) 0x040 0 0 1).setPg (pTP port) .service 5
  let s := s.showLease.checkTc
  let s := if s.pair = 1 ∨ s.pair = 5 then s else s.sendFrame (s.plainFrame port s.helloBody)
  s.sendQueued s.twin.sent

/-- A twin port link comes up: its page is in SERVICE, frames that waited for a port are sent, and outside PAIRED and JOINING a HELLO goes out. -/
def execTwinPortLinkUp (port : Nat) (s : State) : Res :=
  .next (if 4 ≤ port ∨ bit (s.reg (pTP port) 0x040) 2 ∨ bit (s.reg pTWC 0x040) port = false ∨ s.fld (pTP port) 0x110 3 0 ≠ 0 then s
    else s.linkTwin port)

/-- A port holds a retired lane in each of its two lane pairs (R225, R420). -/
def State.portDead (s : State) (p : Nat) : Bool :=
  let l := s.fld (pTP p) 0x110 7 4
  (l.testBit 0 || l.testBit 1) && (l.testBit 2 || l.testBit 3)

/-- PORT_EN written for each port of a list. -/
def State.writePorts (s : State) (v : Nat) : List Nat → State
  | [] => s
  | p :: l =>
    let was := bit (s.reg pTWC 0x040) p
    (if was ∧ v.testBit p = false then
       let s := ((s.setFld pTWC 0x040 p p 0).setReg (pTP p) 0x040 ((s.reg (pTP p) 0x040 &&& 0xFFFFFFFE) ||| 4)).setPg (pTP p) .off 1
       s.portStops p
     else if was = false ∧ v.testBit p ∧ s.portDead p = false then
       ((s.setFld pTWC 0x040 p p 1).setFld (pTP p) 0x040 2 2 0).setPg (pTP p) .starting 1
     else s).writePorts v l

/-- A write of PORT_EN retires and returns ports. -/
def execPortEnWrite (req : Requester) (data : Word) (s : State) : Res :=
  .next (s.guarded req pTWC fun s => s.writePorts (bits data 3 0) [0, 1, 2, 3])

/-! ### Answers of the twin (R238, R257, R307, R215) -/

/-- A piece of a fabric read that the twin has answered. -/
def State.supplyPiece (s : State) (dpa : Nat) (bs : List Byte) (map : Nat) (j : ReadJob) : ReadJob :=
  let add := j.left.filterMap fun p =>
    let w := j.offset + p.1
    if s.objectPage (s.object j.object) (j.firstPage + w / 16384) = some (pageOf dpa) ∧ w % 16384 = dpa % 16384 ∧ p.2 = bs.length ∧
        (j.got.any fun g => g.1 == p.1) = false then some (p.1, bs, map) else none
  { j with got := j.got ++ add }

/-- The bytes of a page that are not 0, by offset. -/
def sparse (bs : List Byte) : KMap Byte := (bs.zipIdx.map fun p => (p.2, p.1)).filter fun p => p.2 ≠ 0

/-- A page recovered from the twin's copy at step 5 of the ladder: sealed again, and rewritten. A copy with poisoned lines keeps them. -/
def State.cellarFromTwin (s : State) (loc : Nat) (bs : List Byte) (map : Nat) : State :=
  match s.cellar.misses.find? fun m => m.loc == loc && m.step == 5 with
  | none => s
  | some m =>
    let kind := match KM.get s.cellar.flash loc with | some f => f.kind | none => 2
    match s.sealPage kind m.page (sparse bs) (bitList map 256) with
    | (some f, s) => s.stepOk m f
    | (none, s) => s.poisonPage m

/-- A READ_DATA arrives. -/
def execReadDataRx (f : TwinFrame) (s : State) : Res :=
  .next (s.heard f fun s =>
    match f.body with
    | .readData id dpa map bs =>
      (match s.twin.reqs.find? fun q => q.id == id with
       | none => s
       | some q =>
         if dpa ≠ q.dpa ∨ bs.length ≠ q.len then s
         else
           let s := { s with twin.reqs := s.twin.reqs.filter fun x => x.id ≠ id }
           match q.waiter with
           | .job n m rs =>
             { s with fab.reads := s.fab.reads.map fun (j : ReadJob) => if j.qpn = n ∧ j.msn = m ∧ j.resend = rs then s.supplyPiece dpa bs map j else j }
           | .cellar loc => s.cellarFromTwin loc bs map
           | .line d =>
             if map = 0 then (s.lineStored d bs true 0x190).recovKick 64 (s.regionOf (pageOf d)) else s.recovFails (d / 64)
           | .leftBehind page =>
             if page ∈ s.power.leftBehind then
               let s := { s with power.leftBehind := s.power.leftBehind.filter (· ≠ page), loft.away := KM.del s.loft.away page }
               s.loadPage page (some { kind := 1, page, slot := 0, salt := 0, ctr := 0, poison := bitList map 256, data := sparse bs })
             else s)
    | _ => s)

/-- A READ_REQ fails. -/
def State.readFails (s : State) (q : ReadReq) : State :=
  let s := { s with twin.reqs := s.twin.reqs.filter fun x => x.id ≠ q.id }
  match q.waiter with
  | .job _ _ _ => (({ s with twin.readFailed := true }).forgetAsked).twinLost
  | .cellar loc =>
    (match s.cellar.misses.find? fun m => m.loc == loc && m.step == 5 with
     | some m => s.poisonPage m
     | none => s)
  | .line d => s.recovFails (d / 64)
  | .leftBehind _ => s

/-- A READ_REQ is unanswered for 1 ms. -/
def execReadReqTimeout (id : Nat) (s : State) : Res :=
  .next (match s.twin.reqs.find? fun q => q.id == id with
    | none => s
    | some q =>
      if q.resent ∨ s.twinPorts = [] then s.readFails q
      else
        let s := { s with twin.reqs := s.twin.reqs.map fun (x : ReadReq) => if x.id = id then { x with resent := true } else x }
        s.sendOne (.readReq q.id q.dpa q.len q.after q.purpose))

/-! ### Role swap (R239) -/

/-- ROLE_SWAP accepted. -/
def execRoleSwap (c : AdminCmd) (s : State) : Res :=
  .next (s.adminRun 0x32 c fun op s =>
    if c.p0 ≠ 1 ∨ c.p2 < c.p1 ∨ c.p1 = 0 ∨ 16777215 < c.p2 then (s, bad stINVALID_FIELD)
    else if s.pair ≠ 1 then (s, bad stTWIN_UNAVAILABLE)
    else if s.twin.swap.isSome ∨ (s.win.windows.any fun p => p.2.valid && decide (c.p1 ≤ p.1 ∧ p.1 ≤ c.p2) && !s.homeHere p.1) then (s, bad stSTATE_CONFLICT)
    else ({ s with twin.swap := some { op, first := c.p1, last := c.p2, sentAt := none } }, none))

/-- A WRITE tracker of a window in a range is open. -/
def State.writesIn (s : State) (first last : Nat) : Bool :=
  s.fab.trackers.any fun p => !p.2.read && decide (first ≤ p.2.handle / 256 ∧ p.2.handle / 256 ≤ last)

/-- The trackers of the range have ended: the ROLE record is sequenced. -/
def execRoleSwapDrained (s : State) : Res :=
  .next (match s.twin.swap with
    | none => s
    | some w =>
      if w.sentAt.isSome ∨ s.writesIn w.first w.last then s
      else
        let n := s.mseqTx
        ({ s with twin.swap := some { w with sentAt := some n } }).mirrorMeta [.role w.first w.last (1 - s.side)] [])

/-! ### Audits (R240) -/

/-- An audit that has no page left and none outstanding completes. -/
def State.endAudit (s : State) : State :=
  match s.twin.audit with
  | some a =>
    if a.left = [] ∧ a.open_ = [] then
      ({ s with twin.audit := none }).complete a.op { status := stSUCCESS, r0 := a.compared + 2 ^ 32 * a.mismatches, r1 := a.repaired }
    else s
  | none => s

/-- AUDIT_REQs sequenced while fewer pages are outstanding than the audit takes in a ms (DESIGN CHOICE, log 18). -/
def State.sendAudits (fuel : Nat) (s : State) : State :=
  match fuel with
  | 0 => s
  | fuel + 1 =>
    match s.twin.audit with
    | none => s
    | some a =>
      match a.left with
      | [] => s
      | p :: l =>
        if a.rate ≤ a.open_.length then s
        else
          let (d, map) := s.digest p
          let s := { s with twin.audit := some { a with left := l, open_ := a.open_ ++ [(a.nextId, p, d, map)], nextId := a.nextId + 1 } }
          (s.sendSeq (.auditReq p a.nextId) [] []).sendAudits fuel

/-- AUDIT_START. -/
def execAuditStart (c : AdminCmd) (s : State) : Res :=
  .next (s.adminRun 0x34 c fun op s =>
    let first := c.p0 + 2 ^ 32 * c.p1
    if 2 ^ 35 ≤ first ∨ 1 < c.p3 ∨ c.p4 = 0 ∨ 1024 < c.p4 then (s, bad stINVALID_FIELD)
    else if s.pair ≠ 1 then (s, bad stTWIN_UNAVAILABLE)
    else if s.twin.audit.isSome then (s, bad stSTATE_CONFLICT)
    else
      let pages := (s.win.map.filter fun p => decide (first ≤ p.1 ∧ p.1 < first + c.p2 ∧ p.2.state ≠ .free ∧ p.2.state ≠ .scrubbing ∧ p.2.state ≠ .retired) &&
        (s.object p.2.object).valid && s.objectHome p.2.object).map (·.1)
      let s := { s with twin.audit := some { op, left := pages, repair := c.p3 = 1, rate := c.p4 } }
      ((s.sendAudits 1025).endAudit, none))

/-- An audit record published. -/
def State.auditRecord (s : State) (page kind : Nat) : State :=
  (s.publish pTWC 0x0B4 [page % 2 ^ 32, kind * 2 ^ 29 + page / 2 ^ 32] 64).fire pTWC 6

/-- A page sent to the mirror for repair. -/
def State.repairPage (s : State) (page : Nat) : State :=
  let (bs, p) := s.auditContent page
  let r := s.regionOf page
  let new := decide (0 < s.credit r)
  let s := if new then s.setCredit r (s.credit r - 1) else s
  let cut := fun (o : Nat) => [s.segment (page * 16384 + o) (s.object (s.mapOf page).object).owner (p / 2 ^ (o / 64) % 2 ^ 64) (new && o == 0) ((bs.drop o).take 4096)]
  [0, 4096, 8192, 12288].foldl (fun s o => s.sendSeq (.mirrorData (cut o)) [] [page]) s

/-- An AUDIT_DIGEST arrives: compared, published and repaired. -/
def execAuditDigestRx (f : TwinFrame) (s : State) : Res :=
  .next (s.heard f fun s =>
    match f.body, s.twin.audit with
    | .auditDigest id d map, some a =>
      (match a.open_.find? fun x => x.1 == id with
       | none => s
       | some (_, page, own, mine) =>
         let differs := decide (d ≠ own ∨ map ≠ mine)
         let fix := a.repair && decide (d ≠ own ∧ map = mine)
         let a : Audit := { a with open_ := a.open_.filter fun x => x.1 ≠ id, compared := a.compared + 1,
                                   mismatches := a.mismatches + b2n differs, repaired := a.repaired + b2n fix }
         let s := { s with twin.audit := some a }
         let s := if map ≠ mine then s.auditRecord page 1
           else if fix then (s.repairPage page).auditRecord page 2
           else if differs then s.auditRecord page 0
           else s
         (s.sendAudits 2).endAudit)
    | _, _ => s)

end Sys2Proof.Machine
end

