-- ==== Sys2Proof/Machine/Pages.lean ====
section
/-!
DEFINITION. Pages, levels, islands and resets (chapters 01 and 02): service states, requests in PG_CTRL, block resets, events and locks as software writes them,
result acknowledgements, function-level resets.
-/

namespace Sys2Proof.Machine

/-! ### Die links and islands (R11, R16, R17, R402) -/

/-- A flit arrives on the link of a die, named by its page: a failed one is retried; the 64th retry that fails takes the link down. -/
def execDieLinkFlit (die : Nat) (crcOk : Bool) (s : State) : Res :=
  .next (if die < 2 ∨ 5 < die ∨ s.absent die then s
    else
      let l := KM.getD {} s.arch.links die
      if l.down then s
      else if crcOk then { s with arch.links := KM.putD {} s.arch.links die {} }
      else if l.retries < 64 then { s with arch.links := KM.putD {} s.arch.links die { retries := l.retries + 1 } }
      else ({ s with arch.links := KM.putD {} s.arch.links die { retries := l.retries, down := true } }).fire die 0)

/-- Handshakes into an island that enters reset complete with the abort marker; each is counted by its sender, and an internal operation is to be reissued. -/
def State.abortHandshakes (s : State) (k : Nat) : List Handshake → State
  | [] => s
  | h :: l =>
    let s := (s.emit (.handshake h true)).fire h.sender 29
    (if h.fabric then s else { s with arch.reissue := s.arch.reissue ++ [(k, h)] }).abortHandshakes k l

/-- An island other than K17 enters reset. -/
def execIslandResetEnter (k : Nat) (waiting : List Handshake) (s : State) : Res :=
  .next (if 17 ≤ k then s else (s.setIsland k { s.island k with inReset := true }).abortHandshakes k waiting)

/-- Handshakes that their senders held complete. -/
def State.endHandshakes (s : State) : List Handshake → State
  | [] => s
  | h :: l => (s.emit (.handshake h false)).endHandshakes l

/-- The register of an island on the hub die page: FREQ_REQ, and its status 4 above. -/
def islandReg (k : Nat) : Nat := 0x100 + 8 * k

/-- The clock gate of a frequency change ends. -/
def execIslandFreqChangeDone (k : Nat) (held : List Handshake) (s : State) : Res :=
  .next (match (s.island k).target with
    | none => s
    | some f =>
      if 17 ≤ k then s
      else
        let s := s.setIsland k { s.island k with gated := false, target := none }
        ((s.setFld pHD (islandReg k + 4) 29 29 0).setFld pHD (islandReg k + 4) 15 0 f).endHandshakes held)

/-- A region's island begins a frequency change: a training sequence ends at its step, which for a hard-repair step is that step's end, and its channels stay due. -/
def State.cutTrain (s : State) (r : Nat) : State :=
  if (KM.get s.dram.trains r).isNone ∨ s.inRepairStep r then s else (s.bump (pRG r) 0x154).endTrain r

/-- An island begins a frequency change. -/
def State.beginFreq (s : State) (k mhz : Nat) : State :=
  let s := (s.setFld pHD (islandReg k) 15 0 mhz).setFld pHD (islandReg k + 4) 29 29 1
  let s := s.setIsland k { s.island k with gated := true, target := some mhz }
  if 13 ≤ k then s.cutTrain (k - 13) else s

/-- A frequency lies above the one a capped island was brought down to (R421). -/
def State.aboveCap (s : State) (k mhz : Nat) : Bool :=
  bit (s.reg pPKG (0x140 + 4 * k)) 31 && decide (KM.getD 0xFFFF s.age.caps k < mhz)

/-- A write of FREQ_REQ: 50 % to 100 % of nominal in steps of 25 MHz, and not above the frequency of a capped island. -/
def execFreqReqWrite (req : Requester) (k mhz : Nat) (s : State) : Res :=
  .next (if 17 ≤ k then s else s.guarded req pHD fun s =>
    let nominal := bits (resetWord pHD (islandReg k)) 15 0
    if mhz % 25 ≠ 0 ∨ nominal < mhz ∨ 2 * mhz < nominal ∨ s.aboveCap k mhz then s else s.beginFreq k mhz)

/-! ### A function's PX state (R34, R404) -/

/-- The commands of a function that were fetched and not started are removed; those started lose their CQE. -/
def dropFn (fn : Fn) : List Outstanding → List Outstanding
  | [] => []
  | o :: l =>
    if o.cmd.fn = fn then (if o.started then { o with discard := true } :: dropFn fn l else dropFn fn l)
    else o :: dropFn fn l

/-- Every vector of a function masked. -/
def maskAll (m : KMap Word) : KMap Word :=
  KM.keep (fun i w => decide (w ≠ if i % 4 = 3 then 1 else 0)) (KM.mapV (fun i w => if i % 4 = 3 then w ||| 1 else w) m)

/-- A function's registers on the PX page that a reset of the function returns to reset: queue pair 0 and the aperture base. -/
def State.resetPx (s : State) (fn : Fn) : State :=
  s.zeroRegs (pPX fn) [0x040, 0x044, 0x048, 0x04C, 0x050, 0x054, 0x058, 0x05C]

/-- A function's queue pairs go, its commands with them, and its vectors are masked. -/
def State.dropHost (s : State) (fn : Fn) : State :=
  let s := s.resetPx fn
  match fn with
  | .pf0 => { s with host.qps0 := [], host.cmds := dropFn .pf0 s.host.cmds, host.msix0 := maskAll s.host.msix0 }
  | .pf1 => { s with host.qps1 := [], host.cmds := dropFn .pf1 s.host.cmds, host.msix1 := maskAll s.host.msix1 }

/-- The locks a function holds released. -/
def State.freeLocks (s : State) (fn : Fn) : State :=
  let regs : KMap Word := KM.keep (fun k w => !decide (k % 4096 = 0x02C ∧ bits w 17 16 = reqCode (fnReq fn))) s.regs
  { s with regs }

/-- A function-level reset: with it the function's Tally ring is disabled (R463). -/
def State.flr (s : State) (fn : Fn) : State := ((s.dropHost fn).freeLocks fn).ringOff fn

/-- A function-level reset of a function. -/
def execFunctionLevelReset (fn : Fn) (s : State) : Res := .next (s.flr fn)

/-- PERST_N of a link: with one link both functions are reset (R404). -/
def execPerstN (link : Nat) (s : State) : Res :=
  .next (if 2 ≤ link then s
    else if bit (s.reg pPKG 0x058) 0 then s.flr (if link = 0 then .pf0 else .pf1)
    else (s.flr .pf0).flr .pf1)

/-- TRST_N resets the test access port, which holds no state of the device (R404). -/
def execTrstN (s : State) : Res := .next s

/-- A narrower or unaligned access of BAR0: a read completes with all ones, a write is ignored (R7). -/
def execBar0NarrowAccess (_ : Fn) (offset width : Nat) (write : Bool) (s : State) : Res :=
  .next (if write ∨ (width = 4 ∧ offset % 4 = 0) ∨ (width = 8 ∧ offset % 8 = 0) then s else s.emit (.readData (2 ^ (8 * width) - 1)))

/-! ### What a reset of a page does (R18 to R22, R37, R41, R43, R491) -/

/-- A region's logic reset (R21, R169, R285, R290): its sequence and BYPASS end, its buffer is written to the Loft, its ranks refreshed and in self-refresh; harvests in progress stop,
their pages staying dirty; the runtime's speed request and FORCE go with the registers. -/
def State.resetRegion (s : State) (r : Nat) : State :=
  let s := (s.noteBypass r).abandonTrain r
  let s := s.setRegion r { s.region r with bypass := none, request := false, ending := false, opRuns := false, resetDue := none }
  let s := (s.drainBuffer r).quiesce (regionChannels r)
  let s := (regionChannels r).foldl (fun s c => s.resetChannel c) s
  let s := { s with dram.throttles := KM.keep (fun k _ => decide (k / 4096 ≠ r)) s.dram.throttles, dram.deferred := KM.del s.dram.deferred r }
  s.setDirty r { s.dirty r with harvests := [] }

/-- What a queue pair's context keeps when the trackers and slots of the Transport Core are lost: its messages stay indeterminate (R404). -/
def forgetFlight (q : Qp) : Qp :=
  { q with openMsgs := 0, received := [], fresh := [], slot := false, sinceAck := 0, delay := none, lastRx := none, owed := [] }

/-- Peer-planes started afresh for each peer. -/
def State.freshPeers (s : State) : List (Nat × Peer) → State
  | [] => s
  | p :: l => (s.freshRates p.1 (bitList p.2.planeEn 8)).freshPeers l

/-- The Transport Core reset: dirty contexts are written back first (R118), then its caches, trackers, slots and reads go. -/
def State.resetTc (s : State) : State :=
  let s := s.writeBackAll
  let qps : KMap Qp := KM.keep (fun _ q => decide (q ≠ ({} : Qp))) (KM.mapV (fun _ q => forgetFlight q) s.fab.qps)
  let planes : KMap Plane := KM.mapV (fun _ (v : Plane) => { v with queue := [], exceptions := [], deficits := [], lastQp := [] }) s.fab.planes
  { s with fab.qps := qps, fab.saved := qps, fab.trackers := [], fab.placements := [], fab.reads := [], fab.cache := [], fab.fetches := [], fab.missq := [],
           fab.planes := planes, fab.capBuckets := [], fab.peerPlanes := [], win.cache := [], win.fills := [], win.trans := [], win.transFills := [] }

/-- The twin link reset: what was sent is logged, the sequence starts afresh and the pair is back in INIT (R222, R234). -/
def State.resetTwin (s : State) : State :=
  let s := (s.startLog.dropResync.endPaired).restartSequence
  { s with twin.reqs := [], twin.leases := [], twin.leaseUntil := 0, twin.survive := false, twin.yielded := false, twin.seen := false,
           twin.peerLog := false, twin.readFailed := false, twin.twinStatus := 0, twin.rttvar := [] }

/-- The Steward complex stopped: it starts again with the boot ROM. -/
def State.resetSteward (s : State) : State :=
  { s with stw.outageAt := none, stw.live := none, stw.swap := none, stw.failing := none, stw.replayTo := none, stw.nmiHeld := false, stw.transients := [] }

/-- The state a block keeps outside its registers, as a reset of its page leaves it. -/
def State.resetLogic (s : State) (page : Nat) : State :=
  match pageType page with
  | some 0x02 => { s with arch.links := KM.del s.arch.links page }
  | some 0x03 => { s with arch.links := KM.del s.arch.links page }
  | some 0x04 => { s with arch.links := KM.del s.arch.links page }
  | some 0x08 => s.resetRegion (page - 0x10)
  | some 0x11 => s.resetTwin
  | some 0x12 => s.resetSteward
  | some 0x20 => (s.setPlaneBits (page - 0x40) false false).discardQueue (page - 0x40)
  | some 0x22 => (s.dropHost .pf0).dropHost .pf1
  | some 0x23 => s.resetTc
  | some 0x25 => { s with integ.scan := none }
  | some 0x27 => { s with stw.valid0 := false, stw.valid1 := false, stw.undo := [], stw.inputs := 0, stw.logBytes := 0 }
  | some 0x28 => { s with stw.released := 0, stw.replaySeen := 0 }
  | some 0x29 => { s with fc.classes := [] }
  | some 0x2E =>
    match KM.get s.larder.engines (page - 0x60) with
    | some q => { s with larder.engines := KM.del s.larder.engines (page - 0x60), larder.queue := q :: s.larder.queue }
    | none => s
  | some 0x34 => s.resetAttic
  | some 0x40 =>
    let c := page - 0x200
    (s.resetChannel c).cutTrain (c / 6)
  | some 0x48 => let r := (page - 0x300) / 0x20; s.setDirty r { s.dirty r with harvests := [] }
  | some 0x4A =>
    let r := (page - 0x300) / 0x20
    { s with integ.passes := KM.del (KM.del s.integ.passes (2 * r)) (2 * r + 1) }
  | some 0x4D =>
    let r := (page - 0x300) / 0x20
    { s with cellar.staged := KM.del s.cellar.staged r, cellar.strides := KM.del s.cellar.strides r,
             cellar.stageFills := s.cellar.stageFills.map fun (f : StageFill) => if s.regionOf f.page = r then { f with stale := true } else f }
  | _ => s

/-- DUE of a region set for the channels whose hard repair is still due. -/
def State.dueRepairs (s : State) (r : Nat) : State :=
  s.setDue r ((regionChannels r).foldl (fun v c => if (s.channelInfo c).repairs = [] then v else withBit v (c % 6)) 0)

/-- What follows once the registers of a page stand at reset: registers that show state kept elsewhere, and the consequences for other blocks. -/
def State.afterReset (s : State) (page : Nat) : State :=
  match pageType page with
  | some 0x08 => let r := page - 0x10; (s.dueRepairs r).setDirty r (s.dirty r)
  | some 0x11 => s.setPair 0
  | some 0x20 => s.settleAll
  | some 0x21 => s.portStops (page - 0x48)
  | some 0x23 => (s.showSlots.showTrackers).freshPeers s.fab.peers
  | some 0x24 => s.reloadSlots
  | some 0x2A => (s.resumeTally.ringOff .pf0).ringOff .pf1
  | some 0x2B => s.resumeHist false
  | some 0x2C => ({ s with power.tcSince := none, power.below := 0 }).setBudget 0
  | some 0x2D => s.resetSamplers [0, 1, 2, 3, 4, 5, 6, 7, 8]
  | some 0x34 => s.setFld pAC 0x06C 7 0 s.freeSpares.length
  | some 0x4C => s.showKeys [6 * ((page - 0x300) / 0x20) + ((page - 0x300) % 0x20 - 4)]
  | _ => s

/-- A page can be reset: SERVICE, DRAINING, DRILL, STARTING or BYPASS. A page in OFF stays OFF, one in FENCED or FAILED as it is (R20, R22). -/
def State.resettable (s : State) (page : Nat) : Bool :=
  !s.absent page && (s.pg page ≠ .off && s.pg page ≠ .fenced && s.pg page ≠ .failed)

/-- The longest outage of a reset of a page's level, and how long the logic of a region below it is held in reset, in ns (R25, table "What each level governs"). -/
def resetTimes (page : Nat) : Nat × Nat :=
  if page = 2 ∨ page = 3 then (40000000, 5000000)
  else if page = 4 then (2000000, 0)
  else if page = 5 then (10000000, 0)
  else match pageLevel page with
    | 0 => (10000, 0)
    | 1 => (100000, 0)
    | _ => (5000000, 300000)

/-- One page of a reset that was asked for at a page. -/
def State.resetOne (s : State) (top cause page : Nat) : State :=
  if s.resettable page = false then s
  else
    let s := (s.resetLogic page).resetRegs page
    let s := if page = 0x004C then s.resetRegs 0x404C else if page = pTLY then s.resetRegs 0x4056 else s
    (s.restartPage page (if page = top then cause else 4) (resetTimes top).1 (resetTimes top).2).afterReset page

/-- Pages of a reset, in order. -/
def State.resetEach (s : State) (top cause : Nat) : List Nat → State
  | [] => s
  | p :: l => (s.resetOne top cause p).resetEach top cause l

/-- The regions below a page, or that page, whose hard-repair step a reset of the region waits for (R290). -/
def State.repairing (s : State) (page : Nat) : List Nat :=
  (List.range s.regions).filter fun r => (pRG r == page || isBelow (pRG r) page) && s.inRepairStep r

/-- The pages a reset of a page covers now: the page and every page below it, but those of a region that waits; of the power die, its own page alone (R406). -/
def State.resetPages (s : State) (page : Nat) : List Nat :=
  let wait := s.repairing page
  if page = 4 then [4]
  else allPages.filter fun q => (q == page || isBelow q page) && !wait.any fun r => q == pRG r || isBelow q (pRG r)

/-- A region's reset noted until its hard-repair step ends, with the operation it completes, 0 none. -/
def State.noteReset (s : State) (r cause op : Nat) : State :=
  let (c, l) := ((s.region r).resetDue).getD (cause, [])
  (s.setRegion r { s.region r with resetDue := some (c, if op = 0 then l else l ++ [op]) }).setFld (pRG r) 0x008 3 3 1

/-- Regions below a page whose reset has to wait. -/
def State.noteResets (s : State) (page cause op : Nat) : List Nat → State
  | [] => s
  | r :: l => (s.noteReset r (if pRG r = page then cause else 4) (if pRG r = page then op else 0)).noteResets page cause op l

/-- The RESET command of an operation completes as its page enters STARTING. The reset time in µs is a free value within the longest outage of the level (log 29). -/
def State.finishReset (s : State) (page op : Nat) : State :=
  if op = 0 then s
  else
    let (t, s) := s.fresh
    s.complete op { status := stSUCCESS, r0 := t.toNat % ((resetTimes page).1 / 1000 + 1) }

/-- RESET commands complete, in order. -/
def State.finishResets (s : State) (page : Nat) : List Nat → State
  | [] => s
  | op :: l => (s.finishReset page op).finishResets page l

/-- A reset of a page below package level takes effect, completing an operation, 0 none. -/
def State.resetTree (s : State) (page cause op : Nat) : State :=
  let wait := s.repairing page
  let s := (s.noteResets page cause op wait).resetEach page cause (s.resetPages page)
  if wait.any fun r => pRG r == page then s else s.finishReset page op

/-- A reset of a page below package level asked for: one that reaches the Attic die waits for a program in progress (R383). -/
def State.requestReset (s : State) (page cause op : Nat) : State :=
  if (page = 5 ∨ page = pAC) ∧ s.programming then (s.deferReset page cause op).setFld page 0x008 3 3 1
  else s.resetTree page cause op

/-- A chip reset asked for, with the cause R407 records. The first one asked for covers the others (R27). -/
def State.requestChip (s : State) (cause : Nat) (w : Nat × Nat × Nat := (0, 0, 0)) : State :=
  if s.arch.chipDue.isSome then s
  else
    let s := { s with arch.chipDue := some { cause, w0 := w.1, w1 := w.2.1, w2 := w.2.2 } }
    if s.programming then s.deferReset 0 cause 0 else s

/-- Resets that waited for the Attic take effect; a chip reset among them does so as the row CHIP_RESET. -/
def State.endDeferred (s : State) : List DeferredReset → State
  | [] => s
  | d :: l =>
    let us := (s.now - d.since) / 1000
    let s := if s.fld pAC 0x064 15 0 < us then s.setFld pAC 0x064 15 0 (min us 0xFFFF) else s
    (if d.page = 0 then s else s.resetTree d.page d.cause d.op).endDeferred l

/-- The program that resets waited for has ended. -/
def execAtticResetDeferEnd (s : State) : Res :=
  .next (if s.programming then s
    else
      let l := s.attic.deferred
      ({ s with attic.deferred := [] }).endDeferred l)

/-- The hard-repair step of a region ends (R290, R291). What arrived during it takes effect: a reset of the region, the loss of the twin, a change of speed or of the island's
frequency. -/
def execHardRepairStepDone (region : Nat) (s : State) : Res :=
  .next (match KM.get s.dram.trains region with
    | none => s
    | some t =>
      if t.phase ≠ .repairStep then s
      else
        let s := s.repairDone region t
        match (s.region region).resetDue with
        | some (cause, ops) => (s.resetTree (pRG region) cause 0).finishResets (pRG region) ops
        | none =>
          if s.pg (pRG region) = .bypass ∧ s.twinHealthy = false then s.breakBypass region
          else if s.speedTarget region ≠ s.speedOf region ∨ (s.island (13 + region)).target.isSome then (s.bump (pRG region) 0x154).endTrain region
          else s)

/-! ### Requests in PG_CTRL (R22, R26, R37) -/

/-- The power loss runs its course, or a restore does: resets are not taken (R406, R436). -/
def State.lossOrRestore (s : State) : Bool := decide (1 ≤ s.phase ∧ s.phase ≤ 6)

/-- The pages whose reset RESET refuses (R406). -/
def neverReset (page : Nat) : Bool := page = pSEQ || page = pRTC || page = pPLD

/-- A page may leave OFF: its island runs and its parent is neither OFF, FENCED, FAILED nor DRAINING. -/
def State.canStart (s : State) (page : Nat) : Bool :=
  let i := s.island (pageIsland page)
  let parent := s.pg (pageParent page)
  !i.inReset && !i.gated && (page = 0 || (parent ≠ .off && parent ≠ .fenced && parent ≠ .failed && parent ≠ .draining))

/-- A page in OFF with ENABLE set enters STARTING where the conditions hold. -/
def State.tryStart (s : State) (page : Nat) : State :=
  if s.pg page = .off ∧ bit (s.reg page 0x008) 0 ∧ s.canStart page ∧ ¬ s.absent page then
    (s.setPageInfo page { resetAt := s.now, outage := (resetTimes page).1 }).setPg page .starting 1
  else s

/-- A write of ENABLE. -/
def execPgCtrlEnable (req : Requester) (page : Nat) (on : Bool) (s : State) : Res :=
  .next (s.guarded req page fun s => (s.setFld page 0x008 0 0 (b2n on)).tryStart page)

/-- The conditions of R22 for leaving OFF come to hold. -/
def execEnableConditionsMet (page : Nat) (s : State) : Res := .next (if (pageType page).isNone then s else s.tryStart page)

/-- PLANE_CONTROL returning a plane (R141): its port is enabled and trained, and the command completes when the port is in service. A port that is FENCED or FAILED is a state conflict. -/
def execPlaneControlIn (c : AdminCmd) (s : State) : Res :=
  .next (s.adminRun 0x24 c fun op s =>
    let v := s.plane c.target
    let page := pFP c.target
    if c.p0 ≠ 2 ∨ s.planes ≤ c.target then (s, bad stINVALID_FIELD)
    else if v.out = false ∨ s.planeDead c.target ∨ s.pg page = .fenced ∨ s.pg page = .failed then (s, bad stSTATE_CONFLICT)
    else
      let s := (s.setPlane c.target { v with out := false, returning := some op }).setFld page 0x008 0 0 1
      if s.pg page = .service then (s.planeBack c.target, good) else (s.tryStart page, none))

/-- A page enters DRAINING: a twin port in it carries no new frames. -/
def State.beginDrain (s : State) (page : Nat) : State :=
  let s := (s.setPageInfo page { s.pageInfo page with drainExpired := false }).setPg page .draining 1
  if pageType page = some 0x21 then (s.showLease.checkTc).twinLost else s

/-- A write of DRAIN. -/
def execPgCtrlDrain (req : Requester) (page : Nat) (on : Bool) (s : State) : Res :=
  .next (s.guarded req page fun s =>
    if page = pFC then s
    else
      let s := s.setFld page 0x008 1 1 (b2n on)
      if on ∧ s.pg page = .service then s.beginDrain page else s)

/-- A write of DRILL; clearing it in DRILL leaves DRILL by a block reset. -/
def execPgCtrlDrill (req : Requester) (page : Nat) (on : Bool) (s : State) : Res :=
  .next (s.guarded req page fun s =>
    if page = pFC then s
    else
      let s := s.setFld page 0x008 2 2 (b2n on)
      if on = false ∧ s.pg page = .drill then s.requestReset page 1 0 else s)

/-- A write of RESET_REQ. On the package or hub die page it asks for a chip reset (R18). During a power loss or a restore, and on the pages that RESET refuses, it is ignored
(DESIGN CHOICE, log 29). -/
def execResetReq (req : Requester) (page : Nat) (s : State) : Res :=
  .next (s.guarded req page fun s =>
    if s.lossOrRestore ∨ neverReset page ∨ s.arch.chipDue.isSome then s
    else if page < 2 then (s.requestChip 3).setFld page 0x008 3 3 1
    else if s.resettable page then s.requestReset page 1 0
    else s)

/-- A write of BYPASS_REQ: taken, refused, or held while a sequence runs under R289. -/
def execBypassReq (req : Requester) (region : Nat) (s : State) : Res :=
  .next (if 4 ≤ region then s else s.guarded req (pRG region) fun s =>
    if s.pg (pRG region) ≠ .service then s
    else if s.ownSequence region then (s.setRegion region { s.region region with request := true }).setFld (pRG region) 0x008 4 4 1
    else if s.twinHealthy then s.enterBypass region .runtime
    else s)

/-- A runtime BYPASS ends: at once, or when the operation that runs within it ends. -/
def State.endRuntime (s : State) (r : Nat) : State :=
  if (s.region r).bypass ≠ some .runtime then s
  else if (s.region r).opRuns then s.setRegion r { s.region r with ending := true }
  else s.leaveBypass r

/-- A write of BYPASS_END. -/
def execBypassEnd (req : Requester) (region : Nat) (s : State) : Res :=
  .next (if 4 ≤ region then s else s.guarded req (pRG region) fun s =>
    if (s.region region).bypass ≠ some .runtime then s else (s.setFld (pRG region) 0x008 5 5 1).endRuntime region)

/-- BYPASS_LIMIT has passed since a runtime BYPASS began. -/
def execBypassLimitExpire (region : Nat) (s : State) : Res := .next (s.endRuntime region)

/-- The operation of a BYPASS ends without a verify outcome of its own to settle: its working sets are discarded and its channels stay due; or it failed, and the region enters FAILED
(DESIGN CHOICE, log 29). -/
def execBypassOpDone (region : Nat) (ok : Bool) (s : State) : Res :=
  .next (if s.pg (pRG region) ≠ .bypass ∨ (s.region region).opRuns = false then s
    else if ok then s.endTrain region
    else s.failRegion region)

/-! ### Start-up, drain (R22) -/

/-- Units of an island that could still reach SERVICE. -/
def State.islandUp (s : State) (k : Nat) : Bool :=
  allPages.all fun p => !(pageIsland p == k && pageLevel p == 0) || s.pg p ≠ .starting

/-- Internal operations aborted when the island of a page was reset are reissued once its units are in SERVICE (R17). -/
def State.reissue (s : State) (k : Nat) : State :=
  if s.islandUp k = false then s
  else
    let l := s.arch.reissue.filter fun x => x.1 == k
    l.foldl (fun s x => s.emit (.reissued x.2)) { s with arch.reissue := s.arch.reissue.filter fun x => x.1 ≠ k }

/-- A page joins the data path. A region writes what its buffer took meanwhile (R169). -/
def State.joinService (s : State) (page : Nat) : State :=
  let i := s.pageInfo page
  let s := s.setPageInfo page { i with afterReset := false, heldUntil := 0 }
  let k := pageIsland page
  let s := s.setIsland k { s.island k with inReset := false }
  let s := if k < 17 then s.setFld pHD (islandReg k + 4) 31 31 1 else s
  let s := { s with arch.inService := insertSorted page s.arch.inService }
  let s := if pageType page = some 0x08 then (s.drainBuffer (page - 0x10)).setPg page .service 5 else s.setPg page .service 5
  let s := if pageType page = some 0x08 then s.wakeBar2 else if pageType page = some 0x20 then s.planeTrained (page - 0x40) true else s
  s.reissue k

/-- An XTS engine of a region has failed: the region cannot leave STARTING (R295). -/
def State.engineFailed (s : State) (r : Nat) : Bool := (regionChannels r).any fun c => s.pg (pXT c) = .failed

/-- A page's start-up ends. A region that a restore holds in STARTING is released by its own conditions (R213). The self-test of an XTS engine is its known-answer test. -/
def execStartUpDone (page : Nat) (passed : Bool) (s : State) : Res :=
  .next (if s.pg page ≠ .starting ∨ (pageType page = some 0x08 ∧ (s.restoring (page - 0x10) ∨ (passed ∧ s.engineFailed (page - 0x10)))) then s
    else
      let xts := decide (pageType page = some 0x4C)
      let s := if xts then s.setFld page 0x040 2 2 (b2n passed) else s
      if passed then s.joinService page
      else
        let s := (s.retirePage page 5).fire page 31
        if xts then s.fire page 0 else if pageType page = some 0x20 then s.planeTrained (page - 0x40) false else s)

/-- A draining page's work in flight reaches zero: DRILL, or OFF with its clock stopped. -/
def execDrainDone (page : Nat) (s : State) : Res :=
  .next (if s.pg page ≠ .draining then s
    else
      let drill := bit (s.reg page 0x008) 2
      let s := s.setFld page 0x008 1 1 0
      let s := if drill then s.setPg page .drill 1
        else ({ s with arch.inService := s.arch.inService.filter (· ≠ page) }.setFld page 0x008 0 0 0).setPg page .off 1
      if pageType page = some 0x21 then s.portStops (page - 0x48)
      else if pageType page = some 0x20 then (s.setPlaneBits (page - 0x40) false false).discardQueue (page - 0x40)
      else s)

/-- The drain timeout expires, once for each entry into DRAINING. -/
def execDrainTimeout (page : Nat) (s : State) : Res :=
  .next (if s.pg page ≠ .draining ∨ (s.pageInfo page).drainExpired then s
    else ((s.setPageInfo page { s.pageInfo page with drainExpired := true }).setPg page .draining 6).fire page 30)

/-! ### RESET at a page's level (R406) -/

/-- The CQE of an operation is not posted: its outcome is in the journal alone (R406). -/
def State.silence (s : State) (op : Nat) : State :=
  { s with host.cmds := s.host.cmds.map fun (o : Outstanding) => if o.started ∧ o.opId = op then { o with discard := true } else o }

/-- RESET of TYPE 0, and of a TYPE that does not exist. A target that is OFF, FENCED or FAILED is a state conflict. -/
def execResetLevel (c : AdminCmd) (s : State) : Res :=
  .next (if c.p0 = 1 ∨ c.p0 = 2 then s else s.adminRun 0x0C c fun op s =>
    if c.p0 ≠ 0 ∨ s.realPage c.target = false ∨ neverReset c.target then (s, bad stINVALID_FIELD)
    else if s.cmdLocked c c.target then (s, bad stNOT_PERMITTED)
    else if s.lossOrRestore then (s, bad stSTATE_CONFLICT)
    else if c.target < 2 then ((s.silence op).requestChip 3, good)
    else if s.resettable c.target = false then (s, bad stSTATE_CONFLICT)
    else (s.requestReset c.target 2 op, none))

/-! ### Events, locks and results as software writes them (R38, R39, R41, R43) -/

/-- Sources of a page fire at their detectors. -/
def execEventFire (page : Nat) (sources : Word) (s : State) : Res :=
  .next (match pageType page with
    | none => s
    | some ty => s.fireMask page (sources &&& BitVec.ofNat 32 (definedSources ty)))

/-- A write-1-to-clear of EV_STATUS, with the sources that fire in the same cycle, whose set wins. -/
def execEvStatusWrite (req : Requester) (page : Nat) (data firing : Word) (s : State) : Res :=
  .next ((s.guarded req page fun s => s.setReg page 0x010 (s.reg page 0x010 &&& ~~~data)).fireMask page
    (firing &&& BitVec.ofNat 32 (definedSources ((pageType page).getD 0xFF))))

/-- A write of EV_FIRST. -/
def execEvFirstWrite (req : Requester) (page : Nat) (data : Word) (s : State) : Res :=
  .next (s.guarded req page fun s => if bit data 31 then s.setFld page 0x01C 31 31 0 else s)

/-- A write of EV_INJECT: every source written must be granted, or the write is refused whole (DEDUCED, log 30). -/
def execEvInjectWrite (req : Requester) (page : Nat) (data : Word) (s : State) : Res :=
  .next (s.guarded req page fun s =>
    match KM.get s.host.grants page with
    | some g =>
      if s.pg page = .drill ∧ data &&& ~~~(BitVec.ofNat 32 g) = 0 then s.fireMask page data else s.bump pPKG 0x050
    | none => s.bump pPKG 0x050)

/-- A write of PG_LOCK.HOLD. -/
def execPgLockWrite (req : Requester) (page : Nat) (hold : Bool) (s : State) : Res :=
  .next (if (pageType page).isNone ∨ s.absent page then s
    else if hold then
      (if bit (s.reg page 0x02C) 31 then s else s.setNum page 0x02C (2 ^ 31 + reqCode req * 2 ^ 16 + 1))
    else if bit (s.reg page 0x02C) 31 ∧ s.fld page 0x02C 17 16 = reqCode req then s.setNum page 0x02C 0
    else s)

/-- The ACK registers, by block type and offset, with the header each consumes. -/
def ackHeader (ty off : Nat) : Option Nat :=
  match ty, off with
  | 0x23, 0x054 => some 0x048
  | 0x23, 0x0B4 => some 0x0A8
  | 0x23, 0x130 => some 0x124
  | 0x23, 0x1AC => some 0x194
  | 0x10, 0x1A0 => some 0x198
  | 0x11, 0x05C => some 0x054
  | 0x11, 0x0C0 => some 0x0B4
  | 0x08, 0x104 => some 0x0F4
  | 0x08, 0x1A8 => some 0x198
  | 0x40, 0x07C => some 0x070
  | 0x25, 0x064 => some 0x050
  | 0x4A, 0x0A8 => some 0x064
  | 0x24, 0x088 => some 0x06C
  | 0x26, 0x04C => some 0x044
  | 0x28, 0x050 => some 0x044
  | 0x29, 0x05C => some 0x04C
  | 0x2A, 0x0AC => some 0x068
  | _, _ => none

/-- A write of an ACK register. -/
def execResultAckWrite (req : Requester) (page off : Nat) (data : Word) (s : State) : Res :=
  .next (s.guarded req page fun s =>
    match ackHeader ((pageType page).getD 0xFF) off with
    | some h => s.ack page h (bits data 15 0)
    | none => s)

end Sys2Proof.Machine
end

