-- ==== Sys2Proof/Machine/Lockstep.lean ====
section
/-!
DEFINITION. The Steward's cores (chapter 14): roles and epochs, the fence, checkpoints and replay, miscompares, the cold spare, core swaps, the watchdog, BIST of retired pages.
-/

namespace Sys2Proof.Machine

/-! ### Roles and epochs (R357 to R359) -/

/-- The page of a core. -/
def pSC (i : Nat) : Nat := 0x0050 + i

/-- The core that leads. -/
def State.lead (s : State) : Nat := s.fld pSTW 0x040 1 0

/-- The core in shadow, 3 none. -/
def State.shadow (s : State) : Nat := s.fld pSTW 0x040 3 2

/-- The spare, 3 none. -/
def State.spare (s : State) : Nat := s.fld pSTW 0x040 5 4

/-- A slot's current epoch. -/
def State.coreEpoch (s : State) (i : Nat) : Nat := s.fld (pSC i) 0x040 15 0

/-- The state of the complex. -/
def State.setStw (s : State) (v : Nat) : State := s.setFld pSTW 0x040 31 29 v

/-- A core's page enters a state it is not in yet. -/
def State.corePg (s : State) (i : Nat) (v : Service) : State := if s.pg (pSC i) = v then s else s.setPg (pSC i) v 8

/-- A core's role shown on its page, and its page's state: LEAD and SHADOW run, SPARE is powered off. -/
def State.showRole (s : State) (lead shadow spare i : Nat) : State :=
  if i = lead then (s.setFld (pSC i) 0x040 31 30 0).corePg i .service
  else if i = shadow then (s.setFld (pSC i) 0x040 31 30 1).corePg i .service
  else if i = spare then (s.setFld (pSC i) 0x040 31 30 2).corePg i .off
  else s.setFld (pSC i) 0x040 31 30 3

/-- The roles set; 3 is none. -/
def State.setRoles (s : State) (lead shadow spare : Nat) : State :=
  let s := s.setFld pSTW 0x040 5 0 (spare * 16 + shadow * 4 + lead)
  ((s.showRole lead shadow spare 0).showRole lead shadow spare 1).showRole lead shadow spare 2

/-- A slot's epoch retired. -/
def State.retireEpoch (s : State) (i : Nat) : State := s.setFld (pSC i) 0x040 15 0 (min 0xFFFF (s.coreEpoch i + 1))

/-- A core's BIST outcome published, and BIST_FAIL raised where it failed. -/
def State.coreBist (s : State) (i : Nat) (ok : Bool) : State :=
  let s := s.publish (pSC i) 0x044 [b2n ok] 1
  if ok then s else s.fire (pSC i) 0

/-- A core out of service for good: epoch retired, no role, FAILED (R368). -/
def State.failCore (s : State) (i : Nat) : State := ((s.retireEpoch i).setFld (pSC i) 0x040 31 30 3).retirePage (pSC i) 5

/-- UNCHECKED entered: one core runs alone. -/
def State.enterUnchecked (s : State) : State :=
  let s := (s.setStw 4).setFld pSTW 0x040 28 28 1
  s.fire pSTW 1

/-- CHECKED entered: a pair runs. -/
def State.enterChecked (s : State) : State := (s.setStw 1).setFld pSTW 0x040 28 28 0

/-! ### Outages (R88, R367, R436) -/

/-- Exception frames that waited for the Steward answered. -/
def State.answerQueued (s : State) : List (Nat × Plane) → State
  | [] => s
  | p :: l =>
    let s := p.2.exceptions.foldl (fun s k => s.emit (.exception p.1 k)) s
    ({ s with fab.planes := KM.upd s.fab.planes p.1 fun (v : Plane) => { v with exceptions := [] } }).answerQueued l

/-- The pair runs live again: what waited for it is served, and a held NMI is delivered. -/
def State.serveWaiting (s : State) : State :=
  if s.pairRuns = false then s
  else
    let s := if s.stw.nmiHeld then ({ s with stw.nmiHeld := false }).emit .nmi else s
    s.answerQueued (s.fab.planes.filter fun p => decide (p.2.exceptions ≠ []))

/-- The cores stop: an outage begins, unless one runs. -/
def State.beginOutage (s : State) : State :=
  if s.stw.outageAt.isSome then s else { s with stw.outageAt := some s.now }

/-- An outage of a length in µs recorded. -/
def State.noteOutage (s : State) (us : Nat) : State := (s.setNum pSTW 0x054 (min us 0xFFFFFFFF)).setMax pSTW 0x058 (min us 0xFFFFFFFF)

/-- The cores run again. -/
def State.endOutage (s : State) : State :=
  match s.stw.outageAt with
  | some t => ({ s with stw.outageAt := none }.noteOutage ((s.now - t) / 1000)).serveWaiting
  | none => s.serveWaiting

/-! ### Checkpoints and replay (R360 to R363) -/

/-- The replay log of the half in use as its page shows it. -/
def State.showLog (s : State) : State := s.setFld pCKP 0x040 30 0 (s.stw.logBytes / 1024)

/-- Checkpoint k: its header goes into half k mod 2, valid last, and that half's log starts empty. -/
def State.takeCheckpoint (s : State) (k : Nat) : State :=
  let s := if k % 2 = 0 then { s with stw.valid0 := true, stw.seq0 := k } else { s with stw.valid1 := true, stw.seq1 := k }
  let s := { s with stw.ckSeq := k, stw.logBytes := 0, stw.undo := [], stw.inputs := 0, stw.released := 0, stw.replaySeen := 0 }
  ((s.setFld pCKP 0x040 31 31 (k % 2)).bump pCKP 0x044).showLog

/-- The limit at which a checkpoint is taken early, in bytes. -/
def logLimit : Nat := 1792 * 1024

/-- A checkpoint, at its 10 ms or early. -/
def execCheckpoint (early : Bool) (s : State) : Res :=
  .next (if s.pairRuns = false ∨ s.stwState = 6 ∨ (early ∧ s.stw.logBytes < logLimit) then s
    else
      let s := s.takeCheckpoint (s.stw.ckSeq + 1)
      if early then s.bump pCKP 0x048 else s)

/-- Bytes put into the SRAM. -/
def putSram (m : KMap Byte) (a : Nat) : List Byte → KMap Byte
  | [] => m
  | b :: l => putSram (KM.putD 0 m a b) (a + 1) l

/-- The undo records applied in reverse. -/
def undoSram (m : KMap Byte) : List (Nat × List Byte) → KMap Byte
  | [] => m
  | u :: l => undoSram (putSram m u.1 u.2) l

/-- A restart from the latest checkpoint: the data partition as it was then; the cores execute again, their outputs suppressed until the released count is reached. -/
def State.restart (s : State) : State :=
  let s := { s with stw.sram := undoSram s.stw.sram s.stw.undo, stw.undo := [], stw.replaySeen := 0, stw.replayTo := some s.stw.released }
  (s.bump pCKP 0x04C).endOutage

/-- The fence has seen the released count of outputs, and compares its CRC-32C. On a mismatch nothing is released any more. -/
def execReplayEnd (matched : Bool) (s : State) : Res :=
  .next (match s.stw.replayTo with
    | none => s
    | some n =>
      if s.stw.replaySeen < n then s
      else if matched then ({ s with stw.replayTo := none }).serveWaiting
      else s.fire pSTW 3)

/-! ### The fence (R358, R360, R362) -/

/-- PART: the partitions in use. -/
def State.part (s : State) : Nat := s.fld pSTW 0x040 26 26

/-- Base and size of a code partition. -/
def codePart (p : Nat) : Nat × Nat := (0x10000000 + p * 0x180000, 0x180000)

/-- Base and size of a data partition. -/
def dataPart (p : Nat) : Nat × Nat := (0x10300000 + p * 0x280000, 0x280000)

/-- An address lies in a partition. -/
def within (a : Nat) (p : Nat × Nat) : Bool := decide (p.1 ≤ a ∧ a < p.1 + p.2)

/-- The lines of 64 B that a write touches. -/
def linesAt (a n : Nat) : List Nat := (List.range' (a / 64) ((a % 64 + n + 63) / 64)).map (· * 64)

/-- Undo records for the first write to lines of the active data partition after the checkpoint: 72 B each. -/
def State.noteUndo (s : State) : List Nat → State
  | [] => s
  | a :: l =>
    (if within a (dataPart s.part) ∧ (s.stw.undo.any fun u => u.1 == a) = false then
       { s with stw.undo := (a, (List.range 64).map fun i => KM.getD 0 s.stw.sram (a + i)) :: s.stw.undo, stw.logBytes := s.stw.logBytes + 72 }
     else s).noteUndo l

/-- An output dropped at the fence. -/
def State.dropOutput (s : State) : State := (s.bump pFEN 0x040).fireLimited pFEN 0

/-- A released output takes effect in the SRAM. What other outputs do arrives as the access of their target's own row. -/
def State.release (s : State) (kind : OutputKind) (addr : Nat) (data : List Byte) (inputs : Nat) : State :=
  let s := { s with stw.released := s.stw.released + 1, stw.inputs := s.stw.inputs + inputs, stw.logBytes := s.stw.logBytes + 16 * inputs }
  let s := if kind = .sramWrite then
      let s := s.noteUndo (linesAt addr data.length)
      { s with stw.sram := putSram s.stw.sram addr data }
    else s
  s.showLog

/-- A core's output, compared equal, reaches the fence: with its slot, epoch, and the values the pair has read since the one before. A stale epoch is dropped and published; a write
of the running code is dropped; in a replay the output is suppressed. -/
def execFenceOutput (slot epoch : Nat) (kind : OutputKind) (addr : Nat) (data : List Byte) (inputs : Nat) (s : State) : Res :=
  .next (if 3 ≤ slot then s
    else if epoch ≠ s.coreEpoch slot then (s.publish pFEN 0x044 [slot * 2 ^ 16 + epoch % 2 ^ 16, addr % 2 ^ 32] 64).dropOutput
    else if kind = .sramWrite ∧ (List.range data.length).any (fun i => within (addr + i) (codePart s.part)) then s.dropOutput
    else if s.stw.replayTo.isSome then { s with stw.replaySeen := s.stw.replaySeen + 1 }
    else s.release kind addr data inputs)

/-! ### Rolling a live activation back, giving a swap up (R366, R377) -/

/-- A live activation given up at a step: from step 8 on the former cores take their roles again; the command ends with STATE_CONFLICT. -/
def State.rollBack (s : State) : State :=
  match s.stw.live with
  | none => s
  | some (op, step) =>
    let s := if 8 ≤ step then s.setRoles s.spare s.shadow s.lead else s
    (({ s with stw.live := none }).complete op { status := stSTATE_CONFLICT, r1 := step }).fire pSTW 6

/-- A core swap given up; a swap the device began itself has no command. -/
def State.dropSwap (s : State) : State :=
  match s.stw.swap with
  | none => s
  | some (op, _, _) =>
    let s := { s with stw.swap := none, stw.transientSwap := false }
    if op = 0 then s else s.complete op { status := stSTATE_CONFLICT }

/-! ### Miscompares (R366 to R368) -/

/-- The comparator finds the outputs different: both cores stop. In HANDOVER the new side is discarded. -/
def execMiscompare (s : State) : Res :=
  .next (if s.stwState ≠ 1 ∧ s.stwState ≠ 5 then s
    else
      let s := ((s.bump pSTW 0x04C).fire pSTW 0).setStw 2
      s.rollBack.dropSwap.beginOutage)

/-- Transients of the last hour, a new one with them. -/
def State.noteTransient (s : State) : State :=
  let l := s.now :: s.stw.transients.filter fun t => decide (s.now < t + 3600 * second)
  ({ s with stw.transients := l }).setFld pSTW 0x050 7 0 (min 255 l.length)

/-- The core of the pair with more hours in LEAD or SHADOW. -/
def State.longerServing (s : State) : Nat := if s.num (pSC s.lead) 0x050 < s.num (pSC s.shadow) 0x050 then s.shadow else s.lead

/-- The pair is in CHECKED; after the third transient within an hour a swap for the spare begins. -/
def State.afterTransient (s : State) : State :=
  let s := s.enterChecked
  if 3 ≤ s.stw.transients.length ∧ s.spare < 3 then
    ({ s with stw.swap := some (0, s.longerServing, false), stw.transientSwap := true }).setStw 5
  else s

/-- The survivor of a pair goes on: with the spare once that is loaded, or alone from the checkpoint. -/
def State.surviveWith (s : State) (good bad : Nat) : State :=
  let p := s.spare
  let s := s.failCore bad
  if p < 3 then ({ s with stw.failing := some bad }.setRoles good 3 p).setStw 3
  else (s.setRoles good 3 3).enterUnchecked.restart

/-- The 400 µs BIST of the stopped cores ends. -/
def execCoreBistDone (leadOk shadowOk : Bool) (s : State) : Res :=
  .next (if s.stwState ≠ 2 then s
    else
      let l := s.lead
      let h := s.shadow
      let p := s.spare
      let s := (s.coreBist l leadOk).coreBist h shadowOk
      match leadOk, shadowOk with
      | true, true => s.noteTransient.afterTransient.restart
      | true, false => s.surviveWith l h
      | false, true => s.surviveWith h l
      | false, false =>
        let s := (s.failCore l).failCore h
        if p < 3 then (s.setRoles p 3 3).enterUnchecked.restart else s)

/-- A core swap ends (R369): a checkpoint, TARGET's epoch retired, the spare in its place; nothing to replay. The outage is a free value of at most 4 ms (DESIGN CHOICE, log 34). -/
def State.finishSwap (s : State) (op core : Nat) (retire : Bool) : State :=
  let p := s.spare
  let s := s.takeCheckpoint (s.stw.ckSeq + 1)
  let lead := if core = s.lead then p else s.lead
  let shadow := if core = s.shadow then p else s.shadow
  let s := if retire then (s.failCore core).setRoles lead shadow 3 else (s.retireEpoch core).setRoles lead shadow core
  let s := if s.stw.transientSwap then s.fire pSTW 2 else s
  let (t, s) := s.fresh
  let us := t.toNat % 4001
  let s := (({ s with stw.swap := none, stw.transientSwap := false }.enterChecked).noteOutage us).serveWaiting
  if op = 0 then s else s.complete op { status := stSUCCESS, r0 := us }

/-- The spare has been powered and tested: it is loaded with the checkpoint and runs, or it failed its BIST. -/
def execSpareLoaded (ok : Bool) (s : State) : Res :=
  .next (if 3 ≤ s.spare then s
    else if s.stwState = 3 then
      let p := s.spare
      let s := s.coreBist p ok
      let s := { s with stw.failing := none }
      if ok then (s.setRoles s.lead p 3).enterChecked.restart
      else ((s.failCore p).setRoles s.lead 3 3).enterUnchecked.restart
    else if s.stwState = 5 then
      match s.stw.swap with
      | none => s
      | some (op, core, retire) =>
        let p := s.spare
        let s := s.coreBist p ok
        if ok then s.finishSwap op core retire
        else ((s.failCore p).setRoles s.lead s.shadow 3).dropSwap.enterChecked
    else s)

/-- CORE_SWAP (R369). A TARGET that holds neither LEAD nor SHADOW is a state conflict (DESIGN CHOICE, log 34). -/
def execCoreSwap (c : AdminCmd) (s : State) : Res :=
  .next (s.adminRun 0x52 c fun op s =>
    if 2 < c.target ∨ 1 < c.p0 then (s, bad stINVALID_FIELD)
    else if s.cmdLocked c pSTW ∨ s.cmdLocked c (pSC c.target) then (s, bad stNOT_PERMITTED)
    else if s.stwState ≠ 1 ∨ 3 ≤ s.spare ∨ ¬(c.target = s.lead ∨ c.target = s.shadow) then (s, bad stSTATE_CONFLICT)
    else (({ s with stw.swap := some (op, c.target, decide (c.p0 = 1)) }).setStw 5, none))

/-! ### The watchdog (R368) -/

/-- A write of WDOG restarts the watchdog. -/
def execWdogWrite (req : Requester) (s : State) : Res := .next (s.guarded req pSTW fun s => { s with stw.wdogAt := s.now })

/-- The watchdog expires. -/
def execStewardWatchdog (s : State) : Res := .next (s.fire pSTW 4)

/-! ### BIST of a retired page (R20, R22, R23, R359) -/

/-- RUN_BIST: it completes as the BIST begins (DESIGN CHOICE, log 35). -/
def execRunBist (c : AdminCmd) (s : State) : Res :=
  .next (s.adminRun 0x07 c fun op s =>
    if s.realPage c.target = false then (s, bad stINVALID_FIELD)
    else if s.cmdLocked c c.target then (s, bad stNOT_PERMITTED)
    else if (s.pg c.target ≠ .fenced ∧ s.pg c.target ≠ .failed) ∨ s.flushing then (s, bad stSTATE_CONFLICT)
    else ({ s with host.bistRuns := KM.put s.host.bistRuns c.target op }, good))

/-- A core reaches SPARE: alone, the running core is paired with it at a fresh checkpoint. -/
def State.spareBack (s : State) (i : Nat) : State :=
  let s := s.setRoles s.lead s.shadow i
  if s.stwState = 4 then ((s.takeCheckpoint (s.stw.ckSeq + 1)).setStw 3).beginOutage else s

/-- A page is recorded FAILED or FENCED no longer, and is OFF, a cold spare. -/
def State.unretire (s : State) (page : Nat) : State :=
  ({ s with arch.recorded := s.arch.recorded.filter (· ≠ page) }).setPg page .off 5

/-- A commanded BIST ends. A core whose slot has used up its epochs stays FAILED (R358); one that passes is the SPARE, where there is none. -/
def execPageBistDone (page : Nat) (passed : Bool) (s : State) : Res :=
  .next (if (KM.get s.host.bistRuns page).isNone then s
    else
      let s := { s with host.bistRuns := KM.del s.host.bistRuns page }
      let core := decide (pSC 0 ≤ page ∧ page ≤ pSC 2)
      let s := if core then s.coreBist (page - pSC 0) passed else s
      if passed = false ∨ (core ∧ s.coreEpoch (page - pSC 0) = 0xFFFF) then s.setPg page .failed 5
      else
        let s := s.unretire page
        if core ∧ s.spare = 3 then s.spareBack (page - pSC 0) else s)

/-! ### A flush meets a recovery (R384) -/

/-- A recovery or handover under way as a flush starts is abandoned: the spare if there is one, else LEAD, writes the flush records alone. -/
def State.flushAlone (s : State) : State :=
  if s.stwState = 2 ∨ s.stwState = 3 ∨ s.stwState = 5 then
    let s := s.rollBack.dropSwap
    let one := if s.spare < 3 then s.spare else s.lead
    (({ s with stw.failing := none, stw.replayTo := none }).setRoles one 3 3).enterUnchecked.endOutage
  else s

end Sys2Proof.Machine
end

