-- ==== Sys2Proof/Machine/Power.lean ====
section
/-!
DEFINITION. The sequencer and what power takes with it (chapter 15): its registers and pins, faults, stepping up and down, the state that a loss of power leaves, the power-on reset.
-/

namespace Sys2Proof.Machine

/-! ### Registers and pins of the sequencer (R390 to R400, R408) -/

/-- The sequencer's state, 0 to 15. -/
def State.seqState (s : State) : Nat := s.fld pSEQ 0x04C 31 28

/-- A bit of the register that shows the sequencer's state. -/
def State.seqBit (s : State) (b : Nat) : Bool := bit (s.reg pSEQ 0x04C) b

/-- Such a bit set. -/
def State.setSeqBit (s : State) (b : Nat) (v : Bool) : State := s.setFld pSEQ 0x04C b b (b2n v)

/-- The sequencer steps down. -/
def State.seqDown (s : State) : Bool := s.seqBit 27

/-- A fault is in progress. -/
def State.seqFaulted (s : State) : Bool := s.seqBit 26

/-- The device is locked out. -/
def State.lockout (s : State) : Bool := s.seqBit 25

/-- The rails of a state (table "Rails"): the second storage die's rail is absent in the fuse-reduced bins (R392). -/
def State.railsOf (s : State) (n : Nat) : List Nat :=
  if 1 ≤ n ∧ n ≤ 3 then [n - 1]
  else if n = 4 then (if s.bin = 0 then [3, 4] else [3])
  else if 5 ≤ n ∧ n ≤ 12 then [n]
  else if n = 14 then [13]
  else []

/-- The enable pins, by rail. -/
def railPin (i : Nat) : String :=
  ["EN_VINT", "EN_AUX", "EN_HUB", "EN_SD0", "EN_SD1", "EN_AD", "EN_SRAM", "EN_SERDES", "EN_SERDESH", "EN_DDRQ", "EN_DIMM", "EN_NVCC", "EN_NVCCQ",
   "EN_CAGE"].getD i ""

/-- An enable driven. -/
def State.setRail (s : State) (v : Bool) (i : Nat) : State :=
  if bit (s.reg pSEQ 0x050) i = v then s else (s.setFld pSEQ 0x050 i i (b2n v)).emit (.pin (railPin i) v)

/-- Enables driven, in order. -/
def State.setRails (s : State) (v : Bool) : List Nat → State
  | [] => s
  | i :: l => (s.setRail v i).setRails v l

/-- SEQ_OUT driven. -/
def State.setSeqOut (s : State) (v : Bool) : State :=
  if s.seqBit 22 = v then s else ({ s with seq.seqOutAt := s.now }.setSeqBit 22 v).emit (.pin "SEQ_OUT" v)

/-- The device pulls SEQ_SYNC low. -/
def State.holdSync (s : State) : State := (({ s with seq.holding := true }).setSeqBit 24 false).emit (.pin "SEQ_SYNC" false)

/-- The device releases SEQ_SYNC. The line rises once every sequencer has released it, which is the row SEQ_SYNC_RISE. -/
def State.freeSync (s : State) : State := ({ s with seq.holding := false }).emit (.pin "SEQ_SYNC" true)

/-- A cause of FAULT_N set or cleared: 3 stage-1 invalid, 2 the sequencer, 1 the collector's latch. The pin is low while any holds (R439). -/
def State.setFaultN (s : State) (b : Nat) (v : Bool) : State :=
  let old := bit (s.reg pFC 0x060) 0
  let s := s.setFld pFC 0x060 b b (b2n v)
  let new := decide (2 ≤ s.num pFC 0x060)
  if new = old then s else (s.setFld pFC 0x060 0 0 (b2n new)).emit (.pin "FAULT_N" (!new))

/-! ### Faults (R398) -/

/-- A number with the bits of a list set. -/
def bitsOf (l : List Nat) : Nat := l.foldl (fun v i => withBit v i) 0

/-- A fault recorded: state, cause and the rails concerned. -/
def State.recordFault (s : State) (cause : Nat) (rails : List Nat) : State :=
  let s := (s.setSeqBit 26 true).bump pSEQ 0x064
  let s := s.setNum pSEQ 0x054 (s.seqState * 2 ^ 28 + cause * 2 ^ 25 + bitsOf rails)
  (((s.seqFire 0).setFaultN 2 true).setSeqOut false)

/-- A fault recognised going up: the device holds the line for t_FAULT. -/
def State.seqFault (s : State) (cause : Nat) (rails : List Nat) : State := (s.recordFault cause rails).holdSync

/-! ### What a loss of power leaves (R390, R391, R404) -/

/-- The bits of a register that the Attic, fuses or a measurement give back after power-on. -/
def savedMask (page off : Nat) : Word :=
  let ty := (pageType page).getD 0xFF
  if off < 0x040 ∨ (ty = 0x08 ∧ off = 0x148) ∨ (ty = 0x40 ∧ off = 0x048) ∨ (ty = 0x29 ∧ off = 0x060) then 0
  else if off ∈ blockCounters ty ∧ off ∉ savedRegs ty then 0
  else keptMask ty off

/-- The pages of island K17 that power cannot take: the sequencer and the RTC. -/
def alwaysOn (page : Nat) : Bool := page = pSEQ || page = pRTC

/-- The bits of a register that stay when the rails go: the power die's pages and FAULT_N stand until the power-on reset. -/
def offMask (page off : Nat) : Word :=
  if alwaysOn page ∨ page = 0x0004 ∨ page = pGRN ∨ page = pPLD ∨ (page = pFC ∧ off = 0x060) then 0xFFFFFFFF else savedMask page off

/-- The bits of a register that a power-on reset keeps. Every PG_CTRL bit goes (R37). -/
def onMask (page off : Nat) : Word :=
  if alwaysOn page then (if off = 0x008 then 0 else 0xFFFFFFFF)
  else if page = pFC ∧ off = 0x060 then 4
  else savedMask page off

/-- The register file with some bits of each register kept and the others at reset. -/
def State.loseRegs (s : State) (mask : Nat → Nat → Word) : State :=
  let f := fun (k : Nat) (w : Word) => (w &&& mask (k / 4096) (k % 4096)) ||| (resetWord (k / 4096) (k % 4096) &&& ~~~(mask (k / 4096) (k % 4096)))
  let regs : KMap Word := KM.keep (fun k w => decide (w ≠ resetAt k)) (KM.mapV f s.regs)
  { s with regs }

/-- The Attic keeps its array; a program started completes on bank energy, an erase is left abandoned (R383). -/
def State.loseAttic (s : State) : State := if s.programming then (s.endAttic true).resetAttic else s.resetAttic

/-- The host side: the journal lies in the Loft's reserve, and is held with an image; its sequence never repeats (R364). -/
def State.loseHost (s : State) (kept : Bool) : State :=
  { s with host := { journal := if kept then s.host.journal else [], nextJseq := s.host.nextJseq, nextOp := s.host.nextOp } }

/-- Windows and objects, which lie in the reserve, and what is on chip (R56). -/
def State.loseWin (s : State) (kept : Bool) : State :=
  { s with win := if kept then { s.win with cache := [], fills := [], trans := [], transFills := [], fences := [], withdraws := [], locks := [], migrations := [] }
                  else { cellarPages := s.win.cellarPages } }

/-- Contexts, which lie in the reserve as last written back, and what is on chip. -/
def State.loseFabric (s : State) (kept : Bool) : State :=
  let qps : KMap Qp := if kept then KM.keep (fun _ q => decide (q ≠ ({} : Qp))) (KM.mapV (fun _ q => forgetFlight q) s.fab.saved) else []
  { s with fab := { qps, saved := qps, peers := if kept then s.fab.peers else [], nextProbe := s.fab.nextProbe, arrivals := s.fab.arrivals } }

/-- The pool of gather pages of a region: those of GATHER objects, which lie in the reserve. -/
def poolOf (d : Dirty) : Dirty := { gatherFree := (d.gather.map (·.1)).foldl (fun l p => insertSorted p l) d.gatherFree }

/-- The dirty accounting: an image holds the dirty set, and restore charges it again (R213). -/
def State.loseDurable (s : State) (kept : Bool) : State :=
  let regions : KMap Dirty := if kept then KM.keep (fun _ d => decide (d ≠ ({} : Dirty))) (KM.mapV (fun _ d => poolOf d) s.dur.regions) else []
  { s with dur := { regions, wearSaved := s.dur.wearSaved } }

/-- The twin: home map and log lie in the reserve; the pair is in INIT again. -/
def State.loseTwin (s : State) (kept : Bool) : State :=
  let s := { s with twin := if kept then { homes := s.twin.homes, logLoft := s.twin.logLoft, logCellar := s.twin.logCellar, logging := s.twin.logging } else {} }
  if kept then s else s.setFld pTWC 0x088 0 0 0

/-- The key slots keep what the Attic holds; a class D alarm left it whole (R351). -/
def State.loseLarder (s : State) : State :=
  let slots := if s.classD then s.larder.stash else s.larder.slots
  { s with larder := { slots, tombs := s.larder.tombs } }

/-- The flash keeps its pages; misses, staged pages and hints go. -/
def State.loseCellar (s : State) : State :=
  { s with cellar := { s.cellar with misses := [], missWaits := [], staged := [], stageFills := [], hints := [], strides := [] } }

/-- The DRAM loses its contents and its key; committed sets, repairs due and training temperatures are records (R284, R290, R295). -/
def State.loseDram (s : State) : State :=
  let channels : KMap ChannelInfo := KM.mapV (fun _ (i : ChannelInfo) => { i with unreadable := false, errors := [] }) s.dram.channels
  { s with loft := {}, dram := { committed := s.dram.committed, channels, nextSet := s.dram.nextSet } }

/-- Integrity: repairs, remaps and positions are records. -/
def State.loseInteg (s : State) : State :=
  { s with integ := { s.integ with corr := [], hard := [], passes := [], scan := none } }

/-- The Ledger's working values, and the restore that ran. Images stay held. -/
def State.loseLedger (s : State) : State :=
  { s with power := { s.power with base := 0, zone := 0, tcSince := none, below := 0, countAt := none, stops := [], steps := [], marked := [], leftBehind := [],
                                   planned := [] } }

/-- The recorder's working store; the retained section keeps the tail and the copy of the live set. Staged Tally records lie in the reserve. -/
def State.loseRecords (s : State) (kept : Bool) : State :=
  let s := { s with hist := { s.hist with live := { start := s.rtc, invalid := !s.clock.valid, gap := true }, frozen := none, waiting := [], queue := [], reads := [],
                                          deferred := none, scanned := false, admitted := 0, holds := 0, corrected := 0 } }
  { s with tally := if kept then { s.tally with counters := s.tally.saved, ring0 := {}, ring1 := {} } else { last := s.tally.last, invalid := !s.clock.valid },
           perf := {} }

/-- Ageing: results, plan and eyes are records; what runs is gone. -/
def State.loseAgeing (s : State) : State :=
  { s with age := { s.age with window := false, due := [], running := [], bank := none, runs := [], retraining := [], queue := [] } }

/-- Pages, islands, Steward and collector. -/
def State.loseArch (s : State) : State :=
  { s with arch := { recorded := s.arch.recorded, inService := s.arch.inService },
           stw := { previousBank := s.stw.previousBank, nextBank := s.stw.nextBank, raiseFloor := s.stw.raiseFloor, bootBack := s.stw.bootBack, serviceS := s.stw.serviceS },
           fc := {} }

/-- Everything that a loss of the rails takes. With an image held, what lies in the Loft's reserve is held with it; without one it is lost. The spec does not lay the reserve out: it is
kept and lost as a whole (DESIGN CHOICE, log 31). -/
def State.loseVolatile (s : State) : State :=
  let kept := decide (s.power.images ≠ [])
  let s := (((s.loseAttic.loseHost kept).loseWin kept).loseFabric kept).loseDurable kept
  let s := ((((((s.loseTwin kept).loseLarder).loseCellar).loseDram).loseInteg).loseLedger)
  (((s.loseRecords kept).loseAgeing).loseArch).loseRegs offMask

/-! ### Stepping (R393, R394, R397) -/

/-- Every island clock of K00 to K16 stopped. -/
def State.stopClocks (s : State) : List Nat → State
  | [] => s
  | k :: l => ((s.setIsland k { inReset := true }).setFld pHD (islandReg k + 4) 29 29 1).stopClocks l

/-- State 0 going down: the power-down has ended. -/
def State.arriveZero (s : State) : State :=
  ({ s with seq.zeroAt := s.now, seq.localStep := false, seq.flushWait := false, seq.cascWait := false, seq.since := s.now }.setSeqBit 27 false).setFld pSEQ 0x04C 31 28 0

/-- In state 14 going down, EN_CAGE drops once the flush has closed and CASC_DOWN_WAIT has passed (R399). -/
def State.tryCage (s : State) : State := if s.seq.flushWait ∨ s.seq.cascWait then s else s.setRail false 13

/-- A state entered going down, and its work begun; going down alone, state 13 is passed at once. -/
def State.enterDown (s : State) (n : Nat) : State :=
  if n = 0 then s.holdSync.arriveZero
  else
    let s := ({ s with seq.since := s.now, seq.stable := [], seq.discharged := [] }.setSeqBit 27 true).setFld pSEQ 0x04C 31 28 n
    let s := s.holdSync
    if n = 14 then s.tryCage
    else if n = 13 then
      let s := (s.stopClocks (List.range 17)).loseVolatile
      let s := s.freeSync
      if s.seq.localStep then ((({ s with seq.since := s.now }).setFld pSEQ 0x04C 31 28 12).holdSync).setRails false (s.railsOf 12) else s
    else s.setRails false (s.railsOf n)

/-- A rail's work in a state going down is done: discharged, or timed out. With the last, the state's work is done and the line released; going down alone, the next state
follows. -/
def State.railDown (s : State) (i : Nat) : State :=
  let l := s.railsOf s.seqState
  if s.seqDown = false ∨ i ∉ l ∨ i ∈ s.seq.discharged ∨ bit (s.reg pSEQ 0x050) i then s
  else
    let s := ({ s with seq.discharged := insertSorted i s.seq.discharged }).setFld pSEQ 0x04C i i 0
    if l.all (· ∈ s.seq.discharged) then (if s.seq.localStep then s.enterDown (s.seqState - 1) else s.freeSync) else s

/-- A power-down is taken in state 15 (R394, R396): state 14 going down begins. -/
def State.beginDown (s : State) (flush : Bool) : State :=
  let casc := s.seqBit 22
  let s := (s.setSeqOut false).setNum pSEQ 0x058 0
  ({ s with seq.flushWait := flush, seq.cascWait := casc, seq.localStep := false, arch.chipDue := none }).enterDown 14

/-- The flush has closed: state 14's work goes on, or the power-down begins. -/
def State.powerDown (s : State) : State :=
  if s.seqDown then
    let s := { s with seq.flushWait := false }
    if s.seqState = 14 then s.tryCage else s
  else if s.seqState = 15 then s.beginDown false
  else s

/-! ### The power-on reset (R394, R404) -/

/-- The generators of the islands run at nominal, locked. -/
def State.startClocks (s : State) : List Nat → State
  | [] => s
  | k :: l => ((s.setIsland k { inReset := false }).setNum pHD (islandReg k + 4) (2 ^ 31 + bits (resetWord pHD (islandReg k)) 15 0)).startClocks l

/-- Recorded units come up FAILED (R20). -/
def State.showRecorded (s : State) : List Nat → State
  | [] => s
  | p :: l => (if s.absent p then s else s.setPg p .failed 0).showRecorded l

/-- A power-on reset: every island but the sequencer's starts from reset with a new ephemeral key; an image held starts a restore. The straps BIFUR and FTM are sampled. -/
def State.powerOn (s : State) (bifur ftm : Bool) : State :=
  let s := (s.loseVolatile.loseRegs onMask).setFaultN 1 false
  let (a, s) := s.drawKey
  let (b, s) := s.drawKey
  let b := b % (2 ^ 256 - 1)
  let s := { s with dram.key1 := a, dram.key2 := if b < a then b else b + 1, dram.keyed := true, power.restoreAt := s.now }
  let s := ((s.setFld pPKG 0x058 0 0 (b2n bifur)).setFld pFC 0x07C 0 0 (b2n ftm)).startClocks (List.range 18)
  let s := s.setFld pHD 0x040 2 0 7
  let restore := decide (s.power.images ≠ [])
  let s := (s.setFld pPLD 0x044 2 0 (if restore then 6 else 0)).setFld pPLD 0x044 8 8 (b2n restore)
  let s := s.reloadSlots.resumeTally
  let s := (s.resumeHist true).resumeWear (List.range s.regions)
  let s := (s.freshPeers s.fab.peers).set64 pSTW 0x068 0x06C s.host.nextJseq
  ((s.showKeys s.allChannels).showRecorded s.arch.recorded).setPg pPKG .starting 0

/-- Arrival at state 15: no sequencer holds the line, and the ROM starts. -/
def State.arriveUp (s : State) (bifur ftm : Bool) : State :=
  let cause := s.seq.nextCause
  let s := ((s.setFld pSEQ 0x04C 31 28 15).setSeqBit 24 true).bump pSEQ 0x060
  let s := ((s.setNum pSEQ 0x074 ((s.now - s.seq.upAt) / 1000)).setNum pSEQ 0x078 0).setNum pSEQ 0x05C cause
  let s := { s with seq.nextCause := 1, seq.holding := false, seq.since := s.now, seq.afterFault := false }
  s.powerOn bifur ftm

/-- A state entered going up, and its work begun. -/
def State.enterUp (s : State) (n : Nat) (bifur ftm : Bool) : State :=
  if 15 ≤ n then s.arriveUp bifur ftm
  else
    let s := ({ s with seq.since := s.now, seq.stable := [], seq.discharged := [] }).setFld pSEQ 0x04C 31 28 n
    s.holdSync.setRails true (s.railsOf n)

end Sys2Proof.Machine
end

