-- ==== Sys2Proof/Machine/Granary.lean ====
section
/-!
DEFINITION. The Granary (chapter 08): the Ledger, the two policies, running power, ride-through, the power-loss flush, and restore.
-/

namespace Sys2Proof.Machine

/-! ### The Ledger's arithmetic (R195). Quotients are rounded down (DEDUCED, log 19). -/

/-- ETA, ‰. -/
def State.eta (s : State) : Nat := s.num pLG 0x064

/-- v_eff in mV as a fraction over 20 × ETA. -/
def State.vEffNum (s : State) : Nat := 20000 * (20 * s.eta) + s.num pGRN 0x058 * s.fld pLG 0x068 31 16

/-- The denominator of e_store and v_eff: e_store in J is a fraction over 2 × 10^9 × (20 × ETA)². -/
def State.vDen (s : State) : Nat := 20 * s.eta

/-- The numerator of e_store, for a bank voltage in mV. -/
def State.eStoreNum (s : State) (vb : Nat) : Nat := s.num pGRN 0x054 * ((vb * s.vDen) ^ 2 - s.vEffNum ^ 2)

/-- e_fix in µJ. -/
def State.eFix (s : State) : Nat :=
  s.fld pLG 0x068 15 0 * s.fld pPLD 0x040 15 0 + 1000000 * (s.fld pLG 0x06C 7 0 + s.fld pLG 0x06C 15 8 + s.fld pLG 0x06C 31 16)

/-- b_energy in bytes: e_net over e_flush, in GiB. -/
def State.bEnergy (s : State) (vb : Nat) : Nat :=
  let den := 2000000000000000 * s.vDen ^ 2
  let net := s.num pLG 0x05C * s.eta * s.eStoreNum vb * 1000000 - s.eFix * den
  net * 1000 * 2 ^ 30 / (den * 1000000 * s.num pLG 0x060)

/-- The least value of a register of the regions present. -/
def State.leastOf (s : State) (off : Nat) : Nat :=
  (List.range s.regions).foldl (fun m r => min m (s.num pLG (off + 4 * r))) (2 ^ 32)

/-- b_time in bytes. -/
def State.bTime (s : State) : Nat := s.regions * s.leastOf 0x0B0 * 1000 * (s.fld pLG 0x070 4 0 * 1000 - 2)

/-- b_zone in bytes. -/
def State.bZone (s : State) : Nat := s.regions * s.leastOf 0x0A0 * 2 ^ 20

/-- TC_FACTOR × b_base. -/
def State.tcBase (s : State) (base : Nat) : Nat := s.fld pLG 0x040 13 8 * base / 16

/-- EXPOSURE_EST: the time the worst region over its budget takes to come back, in ms. -/
def State.exposure (s : State) : Nat :=
  (List.range s.regions).foldl (fun m r =>
    let excess := dirtyPages (s.dirty r) * 16384 - s.budgetR
    max m (if s.hmax r = 0 then 0 else excess * 1000 / s.hmax r)) 0

/-! ### Running power (R202) -/

/-- Ceilings of every plane. -/
def State.setCeilings (s : State) (v : Nat) : List Nat → State
  | [] => s
  | p :: l => (s.setFld pTC (0x140 + 4 * p) 9 0 v).setCeilings v l

/-- The Loft speed limit of every region. -/
def State.setLimits (s : State) (v : Nat) : List Nat → State
  | [] => s
  | r :: l => (s.setFld (pRG r) 0x148 23 22 v).setLimits v l

/-- A running-power step in force: the ceilings and the speed limit it sets. -/
def State.setStep (s : State) (n : Nat) : State :=
  let s := s.setFld pLG 0x094 2 0 n
  let s := s.setCeilings (if n < 4 then 800 else if n = 4 then 600 else if n = 5 then 400 else 200) (List.range 8)
  s.setLimits (if n < 6 then 0 else if n = 6 then 1 else 2) [0, 1, 2, 3]

/-- The step chosen at the end of a period: not during a flush. -/
def State.powerStep (s : State) (pIn : Nat) : State :=
  let cap := s.num pLG 0x08C
  let n := s.fld pLG 0x094 2 0
  if s.flushing then s
  else if cap ≠ 0 ∧ cap < pIn then
    let s := { s with power.below := 0 }
    if n < 7 then ((s.setStep (n + 1)).bump pLG 0x098).fire pLG 4 else s.fireLimited pLG 5 (60 * second)
  else if cap = 0 ∨ pIn * 100 < cap * 95 then
    if n = 0 then { s with power.below := 0 }
    else if 99 ≤ s.power.below then ({ s with power.below := 0 }).setStep (n - 1)
    else { s with power.below := s.power.below + 1 }
  else { s with power.below := 0 }

/-- POWER_CAP_SET. -/
def execPowerCapSet (c : AdminCmd) (s : State) : Res :=
  .next (s.adminRun 0x31 c fun _ s =>
    if c.p0 ≠ 0 ∧ (c.p0 < 400 ∨ 3000 < c.p0) then (s, bad stINVALID_FIELD) else (s.setNum pLG 0x08C c.p0, good))

/-! ### The bank (R193, R194) -/

/-- The charger runs: VBUS at 40 V or more, no overvoltage hold, no flush, no bank measurement, and in a restore once step 1 has enabled it. -/
def State.charges (s : State) (vbus : Nat) : Bool :=
  decide (40000 ≤ vbus) && !s.power.overVolt && !s.flushing && s.age.bank.isNone && (decide (s.phase ≠ 6) || decide (1 ∈ s.power.steps))

/-- CHARGING set. -/
def State.setCharging (s : State) (v : Bool) : State := s.setFld pGRN 0x05C 1 1 (b2n v)

/-- The Granary's measurements shown. -/
def State.showBank (s : State) (mon adc vbus ibus : Nat) : State :=
  let s := (((s.setNum pGRN 0x044 mon).setNum pGRN 0x048 adc).setNum pGRN 0x04C vbus).setNum pGRN 0x050 ibus
  let target := s.fld pGRN 0x040 15 0 * 10
  let v := min mon adc
  let s := (s.setFld pGRN 0x05C 0 0 (b2n (decide (target ≤ v + 1000 ∧ v ≤ target + 1000)))).setFld pGRN 0x05C 4 4 1
  let s := if (max mon adc - v) * 100 ≤ 2 * v then s.setFld pGRN 0x05C 5 5 0 else s
  s.setCharging (s.charges vbus)

/-- A reading above 61 V stops the charger at once. -/
def execVbankOv (mon adc : Nat) (s : State) : Res :=
  .next (if max mon adc ≤ 61000 then s
    else ((({ s with power.overVolt := true }).setCharging false).setNum pGRN 0x044 mon |>.setNum pGRN 0x048 adc).fire pGRN 0)

/-- Both readings have stayed at or below 60 V for 1 s. -/
def execChargerRestart (s : State) : Res :=
  .next (if s.power.overVolt then
      let s := { s with power.overVolt := false }
      s.setCharging (s.charges (s.num pGRN 0x04C))
    else s)

/-- The readings have differed by more than 2 % for 10 ms. -/
def execSenseMismatch (s : State) : Res := .next ((s.setFld pGRN 0x05C 5 5 1).fire pGRN 3)

/-- VBUS above 60 V for 1 ms. -/
def execVbusOv (s : State) : Res := .next (s.fire pGRN 1)

/-- The charger has failed to regulate for 100 ms. -/
def execChargerFault (s : State) : Res := .next ((s.setFld pGRN 0x05C 3 3 1).fire pGRN 2)

/-! ### A period (R195 to R202) -/

/-- A period abandoned: B stays, until five in a row without a result set it to 0. -/
def State.lateLedger (s : State) : State :=
  let run := min 7 (s.fld pLG 0x080 2 0 + 1)
  let s := ((s.bump pLG 0x07C).setFld pLG 0x080 2 0 run).fireLimited pLG 0
  let s := match s.power.tcSince with
    | some n => { s with power.tcSince := some (n + 1) }
    | none => s
  if run = 5 then ((s.setFld pLG 0x058 1 0 3).setBudget 0).fire pLG 1 else s

/-- No measurement has crossed the couplers for 500 µs: the period is abandoned. -/
def execCouplerFault (s : State) : Res := .next (((s.setFld pGRN 0x05C 4 4 0).fire pGRN 4).lateLedger)

/-- TWIN_COVERED comes into force at the end of the first period after its conditions have held for 1 s, counted in periods (DESIGN CHOICE, log 1). -/
def State.enterTc (s : State) : State :=
  let s := s.checkTc
  match s.power.tcSince with
  | some n => if 1000 ≤ n then s.setFld pLG 0x040 31 31 1 else { s with power.tcSince := some (n + 1) }
  | none => s

/-- The samples of a Ledger period (R448): VBUS and v_b in 100 mV, input power, dirty budget in GiB, the highest region fill, requests admitted in the millisecond in M/s. -/
def State.ledgerSamples (s : State) (vbus vb pIn : Nat) : State :=
  let f := (List.range s.regions).foldl (fun m r => max m (s.fld (pRG r) 0x054 15 0)) 0
  let s := (((s.sample 2 (vbus / 100 : Nat)).sample 3 (vb / 100 : Nat)).sample 4 (pIn : Nat)).sample 5 (s.budget / 2 ^ 30 : Nat)
  let s := (s.sample 6 (f : Nat)).sample 8 (s.hist.admitted / 1000 : Nat)
  { s with hist.admitted := 0 }

/-- A Ledger period ends, with the lowest bank readings of the period, VBUS, IBUS and the mean input power; or it is abandoned. -/
def execLedgerPeriod (done : Bool) (mon adc vbus ibus pIn : Nat) (s : State) : Res :=
  .next (if done = false then s.lateLedger
    else
      let s := s.showBank mon adc vbus ibus
      let vb := min mon adc
      let energy := s.bEnergy vb
      let time := s.bTime
      let zone := s.bZone
      let base := min energy time
      let old := s.budget
      let s := { s with power.base := base, power.zone := zone }
      let s := s.enterTc
      let tc := bit (s.reg pLG 0x040) 31
      let most := if tc then s.tcBase base else base
      let b := min most zone
      let shown := fun (v : Nat) => min (v / 2 ^ 20) 0xFFFFFFFF
      let s := ((s.setNum pLG 0x04C (shown energy)).setNum pLG 0x050 (shown time)).setNum pLG 0x054 (shown zone)
      let s := s.setFld pLG 0x058 1 0 (if zone < most then 2 else if time < energy then 1 else 0)
      let s := (s.setNum pLG 0x074 (s.vEffNum / s.vDen)).setNum pLG 0x078 (s.eStoreNum vb / (2000000000 * s.vDen ^ 2))
      let s := ((s.setFld pLG 0x080 2 0 0).bump pLG 0x084).setNum pLG 0x090 pIn
      let s := s.setBudget b
      let s := if b * 100 < old * 95 then s.fire pLG 2 else s
      let s := s.setNum pLG 0x088 s.exposure
      (s.ledgerSamples vbus vb pIn).powerStep pIn)

/-- POLICY_SET (R199). -/
def execPolicySet (c : AdminCmd) (s : State) : Res :=
  .next (s.adminRun 0x30 c fun _ s =>
    let f := if c.p1 = 0 then 32 else c.p1
    if ¬(c.p0 = 1 ∨ c.p0 = 2) ∨ f < 16 ∨ 32 < f ∨ 1 < c.p2 ∨ (c.p0 = 2 ∧ c.p2 = 0) then (s, bad stINVALID_FIELD)
    else
      let s := ((s.setFld pLG 0x040 1 0 c.p0).setFld pLG 0x040 13 8 f).setFld pLG 0x040 30 30 c.p2
      let s := s.checkTc
      (s, good (b2n (bit (s.reg pLG 0x040) 31))))

/-! ### Ageing measurements that end early (R410, R413) -/

/-- Measurement 1 ends: VINT returns to VBUS and the charger restarts; after a trip the hold-up converter keeps VINT. -/
def State.endBank (s : State) : State :=
  match s.age.bank with
  | none => s
  | some _ =>
    let s := { s with age.bank := none, age.running := s.age.running.filter (· ≠ 1) }
    if s.power.tripped then s else (s.setFld pGRN 0x05C 2 2 0).setCharging (s.charges (s.num pGRN 0x04C))

/-- Operations of AGEING_RUN ended with a status, in order. -/
def State.endRuns (s : State) (status r0 : Nat) : List Nat → State
  | [] => s
  | op :: l => (s.complete op { status, r0 }).endRuns status r0 l

/-- Every measurement that runs is abandoned, since PHASE leaves 0 (R410). AGEING_RUNs among them end with STATE_CONFLICT, the status they meet in these phases (DESIGN CHOICE, log 37). -/
def State.abandonAll (s : State) : State :=
  let ops := s.age.runs.map (·.1) ++ (match s.age.bank with | some b => [b.op] | none => [])
  let s := { s.endBank with age.runs := [], age.running := [] }
  s.endRuns stSTATE_CONFLICT 0 ops

/-! ### Ride-through (R203) -/

/-- PHASE set. Measurements end as it leaves 0. -/
def State.setPhase (s : State) (v : Nat) : State :=
  if v = 0 then s.setFld pPLD 0x044 2 0 0 else s.abandonAll.setFld pPLD 0x044 2 0 v

/-- PHASE outside a power loss: 6 from the start of a restore, or the chip reset of R211, to the release. -/
def State.restPhase (s : State) : Nat := if s.power.images = [] then 0 else 6

/-- The trip noted where it is to end a lockout or a power-down that stays down, once the detector has recovered (R398, R406). -/
def State.noteTrip (s : State) : State :=
  if (s.seq.stayDown ∨ s.lockout) ∧ (s.seqDown ∨ s.seqState = 0) then { s with seq.tripSeen := true } else s

/-- A trip in state 15: ride-through starts, the hold-up converter takes the load, the twin is told. -/
def State.ride (s : State) : State :=
  let s := ((s.setFld pGRN 0x05C 2 2 1).bump pGRN 0x060).setCharging false
  let s := if s.phase = 0 ∨ s.phase = 6 then s.setPhase 1 else s
  let s := (s.notice 1).checkTc
  if s.phase = 4 then (s.setPhase 5).powerDown else s

/-- A trip on the way down: no ride-through; the twin is told (R397). -/
def State.rideDown (s : State) : State := (((s.setFld pGRN 0x05C 2 2 1).bump pGRN 0x060).setCharging false).notice 1

/-- The power-loss detector trips: in state 15 ride-through starts; on the way up it is a fault with cause 3. -/
def State.powerLoss (s : State) : State :=
  if s.power.tripped then s
  else
    let s := ((({ s with power.tripped := true, power.countAt := none }).bump pPLD 0x048).fire pPLD 0).noteTrip
    let s := s.endBank
    if s.seqState = 0 then (if s.seq.holding then s else s.holdSync)
    else if s.seqDown then s.rideDown
    else if s.seqState = 15 then s.ride
    else if s.seqFaulted then s
    else s.seqFault 3 []

/-- VBUS has stayed below 40 V for 2 µs. -/
def execPowerLoss (s : State) : Res := .next s.powerLoss

/-- The detector recovers before the ride-through timer expires. -/
def execRideRecovered (s : State) : Res :=
  .next (if s.phase ≠ 1 then s
    else
      let s := { s with power.tripped := false }
      let s := ((s.setPhase s.restPhase).bump pPLD 0x04C).fire pPLD 1
      let s := s.setFld pGRN 0x05C 2 2 0
      ((s.setCharging (s.charges 42000)).notice 2).checkTc)

/-! ### The flush (R204 to R210) -/

/-- A page of an image, as the Loft holds it. -/
def State.zonePage (s : State) (r page : Nat) : ZonePage :=
  let d := s.dirty r
  match KM.get d.gather page with
  | some g =>
    { region := r, kind := 2, page, cellar := g.cellar, present := g.present, source := g.source, poison := s.poisonedLines page, data := s.snapshot page,
      owner := g.tenant, period := g.period }
  | none =>
    let x := KM.getD { owner := 0, period := 0 } d.pages page
    { region := r, kind := 1, page, poison := s.poisonedLines page, data := s.snapshot page, owner := x.owner, period := x.period }

/-- A page put into the order youngest age class first, then ascending page number. -/
def insertYoung (page k : Nat) : List (Nat × Nat) → List (Nat × Nat)
  | [] => [(page, k)]
  | (q, j) :: l => if k < j ∨ (j = k ∧ page < q) then (page, k) :: (q, j) :: l else (q, j) :: insertYoung page k l

/-- The dirty pages of a region in flush order (table "Flush order"). A layered image holds the pages with the RESTORE_WRITTEN mark. -/
def State.flushOrder (s : State) (r : Nat) : List Nat :=
  let d := s.dirty r
  let layered := decide (s.power.images ≠ [])
  let take := fun (p : Nat) => !layered || (KM.get s.power.marked p).isSome
  let own := (d.pages.filter fun p => take p.1 && (KM.get s.loft.away p.1).isNone)
  let reserve := (own.filter fun p => decide (s.reserveBase ≤ p.1 * 16384)).map (·.1)
  let gather := (d.gather.filter fun p => take p.2.cellar).map (·.1)
  let others := (own.filter fun p => !decide (s.reserveBase ≤ p.1 * 16384)).foldl (fun a p => insertYoung p.1 (ageClass (s.period - p.2.period)) a) []
  reserve ++ gather ++ others.map (·.1)

/-- The image a flush begins: its FLUSH_OPEN, its write-buffer contents, its bitmaps and the pages it is to hold. -/
def State.openImage (s : State) : Image :=
  let order := (List.range s.regions).map s.flushOrder
  let d := (List.range 4).map fun r => dirtyPages (s.dirty r)
  { id := s.num pPLD 0x054 + 1,
    base := match s.power.images with | i :: _ => i.id | [] => 0,
    time := s.rtc,
    policy := s.fld pLG 0x040 1 0 + 128 * s.fld pLG 0x040 31 31,
    pointers := (List.range 4).map fun r => KM.getD 0 s.power.pointers r,
    dirty := d, key1 := s.dram.key1, key2 := s.dram.key2, budget := s.budget,
    buffers := (List.range s.regions).foldl (fun m r => (s.region r).buffer.foldl (fun m p => KM.put m p.1 p.2) m) [],
    bitmap := order.flatten.foldl (fun l p => insertSorted p l) [],
    pages := (List.range s.regions).flatMap fun r => (s.flushOrder r).map (s.zonePage r) }

/-- Harvests of every region stopped. -/
def State.stopHarvests (s : State) : List Nat → State
  | [] => s
  | r :: l => (s.setDirty r { s.dirty r with harvests := [] }).stopHarvests l

/-- What a flush stops at once: bypasses and sequences, harvests, the Mover, streams whose pages are still pending. -/
def State.stopEngines (s : State) : State :=
  let s := (s.breakBypasses true [0, 1, 2, 3]).stopHarvests [0, 1, 2, 3]
  let s := { s with power.abandoned := s.power.abandoned ++ s.win.migrations.filterMap claimed, win.migrations := [] }
  let s := s.setLocks []
  let pages := s.larder.streams.flatMap s.streamWritten
  ({ s with larder.streams := [] }).poisonPages pages

/-- Resets of regions that wait for a hard-repair step dropped. -/
def State.dropResets (s : State) : List Nat → State
  | [] => s
  | r :: l =>
    (if (s.region r).resetDue.isSome then (s.setRegion r { s.region r with resetDue := none }).setFld (pRG r) 0x008 3 3 0 else s).dropResets l

/-- Operations ended with a status, in order. -/
def State.endOps (s : State) (status : Nat) : List Nat → State
  | [] => s
  | op :: l => (s.complete op { status }).endOps status l

/-- Resets that have not taken effect meet the flush: they are dropped, and RESET commands among them end with STATE_CONFLICT (R406). -/
def State.cancelResets (s : State) : State :=
  let ops := (s.host.cmds.filter fun o => o.running && o.op == 0x0C).map fun o => o.opId
  let s := { s with arch.chipDue := none, attic.deferred := [] }
  (s.dropResets [0, 1, 2, 3]).endOps stSTATE_CONFLICT ops

/-- A flush starts (R204): the self-tests and waiting resets it ends, the copies of History and Tally (R454, R460), the image. -/
def State.startFlush (s : State) : State :=
  let s := s.cancelResets.flushAlone.setPhase 2
  let s := (s.bump pPLD 0x050).fire pPLD 2
  let s := s.notice 3
  let s := { s with host.bistRuns := [] }.copyHist.copyTally
  let s := (s.stopEngines.setCharging false).writeBackAll
  let i := s.openImage
  let s := { s with power.images := i :: s.power.images, power.flushAt := s.now, power.closedAt := none, power.stops := [],
                    power.planned := (List.range 4).map fun r => (r, (i.pages.filter fun (z : ZonePage) => z.region == r).length) }
  (s.setNum pPLD 0x054 i.id).setFld pPLD 0x044 8 8 1

/-- The ride-through timer expires: FLUSH_START. -/
def execRideExpire (s : State) : Res := .next (if s.phase ≠ 1 then s else s.startFlush)

/-- A power-down that requires a flush (R396): it starts at once, or the one that runs goes on; state 14 going down waits for its close. -/
def State.flushDown (s : State) : State :=
  if s.phase = 0 ∨ s.phase = 1 ∨ s.phase = 6 then s.startFlush.beginDown true
  else if s.phase = 2 ∨ s.phase = 3 then s.beginDown true
  else (s.setPhase 5).beginDown false

/-- The first n pages of a region, and those of the other regions. -/
def keepPages (r : Nat) : Nat → List ZonePage → List ZonePage
  | _, [] => []
  | n, z :: l => if z.region = r then (if n = 0 then keepPages r 0 l else z :: keepPages r (n - 1) l) else z :: keepPages r n l

/-- A region's flush stops early, with so many pages written: cause 1 the stop voltage, 2 T_MAX. -/
def execFlushStop (region pages cause : Nat) (s : State) : Res :=
  .next (match s.power.images with
    | i :: l =>
      if s.phase ≠ 2 ∨ s.regions ≤ region ∨ ¬(cause = 1 ∨ cause = 2) ∨ (KM.get s.power.stops region).isSome then s
      else
        ({ s with power.images := { i with pages := keepPages region pages i.pages } :: l,
                  power.stops := KM.put s.power.stops region cause }).fire pPLD 3
    | [] => s)

/-- Zone pages of a region in an image: write-buffer chunks, bitmap chunks, data pages, the end marker. -/
def State.zoneCount (s : State) (i : Image) (r : Nat) : Nat :=
  let buffered := (i.buffers.filter fun p => s.regionOf (pageOf p.1) == r).length
  (buffered + 16383) / 16384 + (s.loftTop / 16384 / s.regions + 131071) / 131072 + (i.pages.filter fun z => z.region == r).length + 1

/-- The zone capacity an image holds in a region, in MiB. -/
def State.zoneMib (s : State) (i : Image) (r : Nat) : Nat := (s.zoneCount i r + 63) / 64

/-- Zone pointers move, and the capacity leaves zone_free_r (R209). -/
def State.takeZones (s : State) (i : Image) : List Nat → State
  | [] => s
  | r :: l =>
    let s := { s with power.pointers := KM.put s.power.pointers r (KM.getD 0 s.power.pointers r + s.zoneCount i r) }
    (s.setNum pLG (0x0A0 + 4 * r) (s.num pLG (0x0A0 + 4 * r) - s.zoneMib i r)).takeZones i l

/-- The wear-bucket levels FLUSH_CLOSE records, in MiB. -/
def State.wearMib (s : State) (r : Nat) : Nat := ((s.dirty r).credit / ((wearUnit * 2 ^ 20 : Nat) : Int)).toNat

/-- The energy figure of a real flush (R415): bank energy drawn × η ÷ GiB written, a measured quantity that no operand carries: a free value (log 37). -/
def State.noteFlushEnergy (s : State) (pages : Nat) : State :=
  if pages = 0 then s
  else
    let (v, s) := s.fresh
    { s with age.realFlush := some (v.toNat % 2 ^ 32, s.rtcSeconds) }

/-- The last dirty page is written: FLUSH_CLOSE is programmed, and the wear levels saved. -/
def execFlushDataEnd (s : State) : Res :=
  .next (match s.power.images with
    | i :: l =>
      if s.phase ≠ 2 then s
      else
        let back := !s.power.tripped && !s.seqDown
        let s := s.saveWear (List.range s.regions)
        let cause := s.power.stops.foldl (fun a p => max a p.2) 0
        let written := fun (r : Nat) => (i.pages.filter fun z => z.region == r).length
        let left := (List.range 4).map fun r => KM.getD 0 s.power.planned r - written r
        let close : FlushClose :=
          { time := s.rtc, cause := if cause ≠ 0 then cause else if back then 3 else 0,
            lastSeq := (List.range 4).map fun r => if r < s.regions then s.zoneCount i r - 1 else 0,
            unwritten := left, wear := (List.range 4).map s.wearMib }
        let i := { i with close := some close }
        let s := { s with power.images := i :: l, power.closedAt := some s.now }
        let s := s.takeZones i (List.range s.regions)
        let s := ((s.setNum pPLD 0x058 ((s.now - s.power.flushAt) / 1000000)).setNum pPLD 0x05C i.pages.length).setNum pPLD 0x060 (left.foldl (· + ·) 0)
        let s := s.setFld pPLD 0x044 9 9 (b2n (decide (cause ≠ 0)))
        let s := s.noteFlushEnergy i.pages.length
        if back then (s.setPhase 4).setFld pGRN 0x05C 2 2 0 else s.setPhase 3
    | [] => s)

/-- 2 ms after the close, the managed power-down starts. -/
def execManagedPowerDown (s : State) : Res := .next (if s.phase = 3 then (s.setPhase 5).powerDown else s)

/-- A power-down that stays down, or a lockout, ends (R398, R406). -/
def State.endStay (s : State) : State :=
  let s := { s with seq.stayDown := false, seq.tripSeen := false }
  if s.lockout then (s.setSeqBit 25 false).setFaultN 2 s.seqFaulted else s

/-- The detector recovers after ride-through has expired, or while the appliance is down: during a flush the recovery count starts. -/
def execDetectorRecovery (s : State) : Res :=
  .next (if s.power.tripped = false ∨ s.phase = 1 then s
    else
      let s := { s with power.tripped := false }
      let s := if s.flushing then ({ s with power.countAt := some s.now }).notice 4 else s
      if s.seq.tripSeen then s.endStay else s)

/-- VBUS falls below 42 V without tripping the detector: the recovery count restarts. -/
def execVbusDip (s : State) : Res :=
  .next (if s.power.countAt.isSome then { s with power.countAt := some s.now } else s)

/-- 1 s after the close the count has not reached 100 ms. -/
def execVbusReturnWaitExpire (s : State) : Res := .next (if s.phase = 4 ∧ s.arch.chipDue.isNone then (s.setPhase 5).powerDown else s)

/-- The recovery count reaches 100 ms after the close: a chip reset is due. -/
def execVbusReturnCountDone (s : State) : Res := .next (if s.phase = 4 ∧ s.power.countAt.isSome then s.requestChip 6 else s)

/-! ### Restore (R212 to R216) -/

/-- The steps a restore step depends on (table "Restore order"). -/
def restoreNeeds (n : Nat) : List Nat :=
  match n with
  | 3 => [1, 2]
  | 4 => [3]
  | 5 => [4]
  | 6 => [5]
  | 7 => [4]
  | 8 => [6]
  | _ => []

/-- The key of an image loaded into slot 7: K1 as its key, K2 in its shadow. -/
def State.loadImageKey (s : State) (i : Image) : State := s.setSlot 7 { state := .active, kind := 1, key := i.key1, shadow := some i.key2 }

/-- Dirty pages of an image charged again, with their owner and age (R213). -/
def State.rechargePages (s : State) : List ZonePage → State
  | [] => s
  | z :: l =>
    let d := s.dirty z.region
    (if z.kind = 2 then
       s.setDirty z.region { d with gather := KM.put d.gather z.page { cellar := z.cellar, tenant := z.owner, source := z.source, present := z.present, period := z.period },
                                    gatherFree := d.gatherFree.filter (· ≠ z.page) }
     else s.setDirty z.region { d with pages := KM.put d.pages z.page { owner := z.owner, period := z.period } }).rechargePages l

/-- Pages that a bitmap marks charged, whoever owns them. -/
def State.rechargeMarked (s : State) : List Nat → State
  | [] => s
  | p :: l =>
    let r := s.regionOf p
    let d := s.dirty r
    (if (KM.get d.pages p).isSome ∨ (KM.get d.gather p).isSome then s
     else s.setDirty r { d with pages := KM.put d.pages p { owner := 0, period := 0 } }).rechargeMarked l

/-- The dirty sets united from the images, oldest first. -/
def State.uniteBitmaps (s : State) : List Image → State
  | [] => s
  | i :: l => ((s.rechargePages i.pages).rechargeMarked i.bitmap).uniteBitmaps l

/-- A page of an image written back to the Loft. -/
def State.restorePage (s : State) (z : ZonePage) : State :=
  let s := { s with loft.away := KM.del s.loft.away z.page }
  let s := s.loadPage z.page (some { kind := z.kind, page := z.page, slot := 7, salt := 0, ctr := 0, poison := z.poison, data := z.data })
  if z.kind = 2 then s.changeMap z.cellar { s.mapOf z.cellar with state := .gather, loc := z.page } else s

/-- Pages restored, in order. -/
def State.restorePages (s : State) : List ZonePage → State
  | [] => s
  | z :: l => (s.restorePage z).restorePages l

/-- Gather pages merged with their flash pages (R180). -/
def State.mergeGathers (s : State) : List ZonePage → State
  | [] => s
  | z :: l => (if z.kind = 2 then s.fillLines z.page (List.range 256) else s).mergeGathers l

/-- Pages of an image whose record holds. -/
def goodPages (i : Image) (bad : List (Nat × Nat)) : List ZonePage := i.pages.filter fun z => !decide ((i.id, z.page) ∈ bad)

/-- Pages left behind after an image, given those left behind before it. -/
def behindAfter (i : Image) (bad : List (Nat × Nat)) (before : List Nat) : List Nat :=
  let have_ := (goodPages i bad).map fun z => z.page
  (before.filter fun p => p ∉ have_ ∧ p ∉ i.bitmap) ++ i.bitmap.filter fun p => p ∉ have_

/-- Image pages restored, oldest image first, each under its own key. -/
def State.restoreImages (s : State) (bad : List (Nat × Nat)) : List Image → State
  | [] => s
  | i :: l =>
    let s := (s.loadImageKey i).restorePages (goodPages i bad)
    ({ s with power.leftBehind := behindAfter i bad s.power.leftBehind }).restoreImages bad l

/-- Bytes of write buffers replayed; pages that receive them carry the RESTORE_WRITTEN mark. -/
def State.replayBuffers (s : State) : List Image → State
  | [] => s
  | i :: l =>
    let s := s.countLines i.buffers ((i.buffers.map fun p => p.1 / 64).foldl (fun l x => insertSorted x l) [])
    let s := i.buffers.foldl (fun s p => (s.loftPutByte p.1 p.2).markWritten (pageOf p.1)) s
    s.replayBuffers l

/-- Clean pages not resident yet loaded from their shadows. -/
def State.loadAways (s : State) : List Nat → State
  | [] => s
  | p :: l => (s.loadAway p).loadAways l

/-- A restore step's effect. -/
def State.restoreEffect (s : State) (n : Nat) (bad : List (Nat × Nat)) : State :=
  let old := s.power.images.reverse
  match n with
  | 1 =>
    let s := match old with | i :: _ => s.loadImageKey i | [] => s
    let s := if s.power.images.any fun i => i.close.isNone then s.fire pPLD 5 else s
    s.setCharging (s.charges 42000)
  | 2 =>
    { s with loft.bytes := [], loft.poison := [], loft.recov := [], loft.merges := [],
             loft.away := (s.win.map.filter fun p => decide (p.2.state = MapState.mapped) && !isCellar p.1).map fun p => (p.1, true) }
  | 3 => s.uniteBitmaps old
  | 4 =>
    let s := s.restorePages ((old.flatMap fun i => goodPages i bad).filter fun z => decide (s.reserveBase ≤ z.page * 16384))
    let s := s.loadAways ((s.loft.away.map (·.1)).filter fun p => decide (s.reserveBase ≤ p * 16384))
    let gone := s.power.abandoned
    ({ s with power.abandoned := [] }).releasePages gone
  | 5 => (s.replayBuffers old).showRestoreKey true s.allChannels
  | 6 =>
    let s := if bad = [] then s else (s.bump pCHK 0x06C bad.length).fireLimited pCHK 0
    let s := (s.restoreImages bad old).replayBuffers old
    let s := s.mergeGathers (old.flatMap fun i => goodPages i bad)
    s.askBehind s.power.leftBehind
  | 7 => s.loadAways (s.loft.away.map (·.1))
  | _ => s

/-- A restore step ends, with the pages of images whose record fails its CRC, as image and Loft page. It starts only when the steps it depends on have ended; step 8 ends when
no page is left behind. -/
def execRestoreStepDone (n : Nat) (bad : List (Nat × Nat)) (s : State) : Res :=
  .next (if s.phase ≠ 6 ∨ n = 0 ∨ 8 < n ∨ n ∈ s.power.steps ∨ ¬(∀ m ∈ restoreNeeds n, m ∈ s.power.steps) ∨ (n = 8 ∧ s.power.leftBehind ≠ []) then s
    else
      let s := { s with power.steps := insertSorted n s.power.steps }
      s.restoreEffect n bad)

/-- Pages poisoned whole, their dirty charge kept. -/
def State.poisonBehind (s : State) : List Nat → State
  | [] => s
  | p :: l =>
    let s := { s with loft.away := KM.del s.loft.away p, twin.reqs := s.twin.reqs.filter fun (q : ReadReq) => q.waiter ≠ ReadWaiter.leftBehind p }
    (s.loadPage p none).poisonBehind l

/-- The twin has not answered within TWIN_WAIT: the pages left behind are poisoned, and stay dirty. -/
def execTwinWaitExpire (s : State) : Res :=
  .next (if s.phase ≠ 6 ∨ 6 ∉ s.power.steps ∨ s.power.leftBehind = [] then s
    else
      let l := s.power.leftBehind
      (({ s with power.leftBehind := [] }).poisonBehind l).fire pPLD 6)

/-- A restoring region meets every condition of R213 and enters SERVICE. -/
def execRegionRestoreReady (region : Nat) (s : State) : Res :=
  .next (if s.regions ≤ region ∨ s.restoring region = false ∨ s.engineFailed region ∨ 6 ∉ s.power.steps ∨ 8 ∉ s.power.steps ∨
        s.budgetR < dirtyPages (s.dirty region) * 16384 then s
    else (((s.drainBuffer region).setPg (pRG region) .service 5).setPageInfo (pRG region) { s.pageInfo (pRG region) with afterReset := false }).wakeBar2)

/-- Zone blocks of released images go to erase. -/
def State.eraseZones (s : State) (i : Image) : List Nat → State
  | [] => s
  | r :: l => ({ s with power.toErase := KM.put s.power.toErase r (KM.getD 0 s.power.toErase r + s.zoneMib i r) }).eraseZones i l

/-- Zone blocks of several images go to erase. -/
def State.eraseImages (s : State) : List Image → State
  | [] => s
  | i :: l => (s.eraseZones i (List.range s.regions)).eraseImages l

/-- Every region has reached SERVICE: IMAGE_RELEASED is written, and the images are released. -/
def execImageRelease (s : State) : Res :=
  .next (if s.phase ≠ 6 ∨ s.power.images = [] ∨ ¬(∀ r ∈ List.range s.regions, s.pg (pRG r) = .service ∨ s.pg (pRG r) = .bypass) then s
    else
      let s := s.eraseImages s.power.images
      let s := { s with power.images := [], power.marked := [], power.steps := [] }
      let s := (s.setPhase 0).setFld pPLD 0x044 8 8 0
      let s := s.setNum pPLD 0x064 ((s.now - s.power.restoreAt) / 1000000)
      (((s.zeroSlot 7).showRestoreKey false s.allChannels).notice 4).fire pPLD 4)

/-- A released zone block finishes erasing. -/
def execZoneEraseDone (region mib : Nat) (s : State) : Res :=
  .next (
    let n := min mib (KM.getD 0 s.power.toErase region)
    if s.regions ≤ region ∨ n = 0 then s
    else
      let s := { s with power.toErase := KM.putD 0 s.power.toErase region (KM.getD 0 s.power.toErase region - n) }
      s.setNum pLG (0x0A0 + 4 * region) (s.num pLG (0x0A0 + 4 * region) + n))

/-- A clean page finishes loading from its shadow; one that fails to decode goes down the recovery ladder. -/
def execLoftPageLoadDone (page : Nat) (ok : Bool) (s : State) : Res :=
  .next (if (KM.get s.loft.away page).isNone then s
    else
      match KM.get s.cellar.flash (s.mapOf page).loc with
      | some f =>
        if ok ∧ s.opens f then ({ s with loft.away := KM.del s.loft.away page }).loadPage page (some f)
        else s.park (s.mapOf page).loc page 0 (.load page)
      | none => s)

end Sys2Proof.Machine
end

