-- ==== Sys2Proof/Machine/Boot.lean ====
section
/-!
DEFINITION. Power sequencing, reference clocks and package resets (chapter 15): the cold start, stepping up and down on SEQ_SYNC, rails, the cascade, references, the chip reset, and
RESET of type 1 and 2.
-/

namespace Sys2Proof.Machine

/-! ### Cold start and start conditions (R390, R395) -/

/-- The bits of a register that a cold start keeps: what the Attic and the fuses give back. -/
def coldMask (page off : Nat) : Word := if alwaysOn page then 0 else savedMask page off

/-- VAON falls below 2.7 V: every enable drops, and all of island K17 goes. The CASC strap is sampled. -/
def execColdStart (casc : Bool) (waiting : List Handshake) (s : State) : Res :=
  .next (
    let s := ((s.setRails false (List.range 14)).setSeqOut false).holdSync
    let s := ((s.setFaultN 3 false).setFaultN 2 false).setFaultN 1 false
    let s := (s.abortHandshakes 17 waiting).loseVolatile.loseRegs coldMask
    let lost : Accum := { invalid := true, gap := true }
    let s := { s with seq := {}, clock := {}, hist.kept := none, hist.live := lost, hist.tail := { invalid := true, gap := true }, hist.last := 0,
                      power.tripped := false, power.overVolt := false }
    ((s.setFld pSEQ 0x040 31 31 (b2n casc)).setFld pPLD 0x044 2 0 0).fire pRTC 1)

/-- The start conditions hold in state 0: those kept here are that no fault, lockout or power-down that stays down is in force, the detector is not tripped, the off time has
passed, and with the cascade SEQ_IN reads high. The device releases the line. -/
def execStartConditionsMet (s : State) : Res :=
  .next (if s.seqState ≠ 0 ∨ s.seq.holding = false ∨ s.seqFaulted ∨ s.lockout ∨ s.seq.stayDown ∨ s.power.tripped ∨ s.now < s.seq.zeroAt + s.seq.offMs * 1000000 ∨
        (bit (s.reg pSEQ 0x040) 31 ∧ s.seqBit 23 = false) then s
    else ({ s with seq.upAt := s.now, seq.offMs := 0 }).freeSync)

/-! ### Edges of SEQ_SYNC (R394, R397, R398) -/

/-- SEQ_SYNC rises: every sequencer has released it. After a fault's hold, the power-down starts with the fault's own state. The straps count at the arrival in state 15. -/
def execSeqSyncRise (bifur ftm : Bool) (s : State) : Res :=
  .next (
    let n := s.seqState
    if s.seq.holding then s
    else if n = 0 then s.enterUp 1 bifur ftm
    else if s.seqDown then s.enterDown (n - 1)
    else if 15 ≤ n then s
    else if s.seqFaulted then s.enterDown n
    else s.enterUp (n + 1) bifur ftm)

/-- The line is still low t_STEP after a state going up began: the device's own work is not done, or another sequencer holds the line. -/
def execSeqStepTimeout (s : State) : Res :=
  .next (
    let n := s.seqState
    if n = 0 ∨ 15 ≤ n ∨ s.seqDown ∨ s.seqFaulted then s
    else if s.seq.holding then s.seqFault 1 ((s.railsOf n).filter (· ∉ s.seq.stable))
    else s.seqFault 2 [])

/-- Another sequencer holds the line low for t_DNREQ in state 15: a power-down with a flush. -/
def execSeqDownRequest (s : State) : Res := .next (if s.seqState = 15 ∧ s.seqDown = false then s.flushDown else s)

/-- Another sequencer holds the line for t_STALL after the device's release in a state going down: from here the device steps down alone. -/
def execSeqStall (s : State) : Res :=
  .next (if s.seqDown = false ∨ s.seq.holding ∨ s.seq.localStep then s
    else (({ s with seq.localStep := true }.bump pSEQ 0x070).seqFire 2).enterDown (s.seqState - 1))

/-- t_FAULT after a fault: the device releases the line. -/
def execFaultHoldExpire (s : State) : Res :=
  .next (if s.seqFaulted ∧ s.seqDown = false ∧ s.seqState ≠ 0 ∧ s.seq.holding then s.freeSync else s)

/-- 1 s after a fault power-down has reached state 0: a retry, or the lockout. -/
def execFaultRetry (s : State) : Res :=
  .next (if s.seqState ≠ 0 ∨ s.seqFaulted = false then s
    else
      let s := s.setSeqBit 26 false
      if s.num pSEQ 0x078 < s.fld pSEQ 0x040 27 24 then
        (({ s with seq.nextCause := 2, seq.afterFault := true }).setNum pSEQ 0x078 (s.num pSEQ 0x078 + 1)).setFaultN 2 false
      else (s.setSeqBit 25 true).seqFire 4)

/-! ### Rails (R392, R393, R397, R400) -/

/-- A rail of this part. -/
def State.hasRail (s : State) (i : Nat) : Bool := decide (i < 14 ∧ (i ≠ 4 ∨ s.bin = 0))

/-- A PG input reads low. Going up, where its rail is not stable yet, its filter starts again. -/
def execPgInputLow (rail : Nat) (s : State) : Res :=
  .next (if s.hasRail rail = false then s
    else
      let up := decide (1 ≤ s.seqState ∧ s.seqState < 15) && !s.seqDown && !s.seqFaulted
      let s := s.setFld pSEQ 0x04C rail rail 0
      if up ∧ rail ∈ s.railsOf s.seqState ∧ rail ∉ s.seq.stable then s.bump pSEQ 0x068 else s)

/-- A PG input has read high for t_PGSTAB. Going up, its rail is stable; with the last rail of the state its work is done. -/
def execPgStable (rail : Nat) (s : State) : Res :=
  .next (if s.hasRail rail = false ∨ bit (s.reg pSEQ 0x050) rail = false then s
    else
      let s := s.setFld pSEQ 0x04C rail rail 1
      let l := s.railsOf s.seqState
      if s.seqDown ∨ s.seqFaulted ∨ rail ∉ l ∨ rail ∈ s.seq.stable then s
      else
        let s := { s with seq.stable := insertSorted rail s.seq.stable }
        if l.all (· ∈ s.seq.stable) then s.freeSync else s)

/-- A rail's sense pin reads below 10 % of nominal going down. -/
def execRailDischarged (rail : Nat) (s : State) : Res := .next (s.railDown rail)

/-- A rail has not discharged in time: recorded, and the stepping goes on. -/
def execDischargeTimeout (rail : Nat) (s : State) : Res :=
  .next (if s.seqDown = false ∨ rail ∉ s.railsOf s.seqState ∨ rail ∈ s.seq.discharged ∨ bit (s.reg pSEQ 0x050) rail then s
    else (((s.setFld pSEQ 0x058 rail rail 1).bump pSEQ 0x06C).seqFire 1).railDown rail)

/-- The fabric and twin ports enter OFF as their rail is lost; ENABLE goes, so that they stay there (DESIGN CHOICE, log 32). -/
def State.portsOff (s : State) : List Nat → State
  | [] => s
  | p :: l =>
    (if s.absent p ∨ s.pg p = .off ∨ s.pg p = .fenced ∨ s.pg p = .failed then s
     else
       let s := (s.setFld p 0x008 0 0 0).setPg p .off 0
       if pageType p = some 0x20 then (s.setPlaneBits (p - 0x40) false false).discardQueue (p - 0x40)
       else (s.setFld p 0x040 0 0 0).portStops (p - 0x48)).portsOff l

/-- A rail's PG reads low in state 15 for its time. VINT acts as a trip with no ride-through; a rail of the ports takes them out; any other starts a power-down without a flush. -/
def execRailLost (rail : Nat) (s : State) : Res :=
  .next (if s.hasRail rail = false ∨ s.seqState ≠ 15 ∨ s.seqDown then s
    else
      let s := (s.setFld pSEQ 0x04C rail rail 0).seqFire 3
      if rail = 0 then
        let s := s.powerLoss
        if s.phase = 1 then s.startFlush else s
      else if rail = 7 ∨ rail = 8 ∨ rail = 13 then (s.portsOff (List.range' 0x40 12)).settleAll
      else ((s.recordFault 4 [rail]).setPhase 5).beginDown false)

/-- In state 13 going up, the references are present and every generator is locked. -/
def execIslandClocksLocked (s : State) : Res :=
  .next (if s.seqState = 13 ∧ s.seqDown = false ∧ s.seqFaulted = false ∧ s.seq.holding then s.freeSync else s)

/-! ### The cascade (R396, R399) -/

/-- SEQ_IN rises: with the cascade it ends a lockout and a power-down that stays down. -/
def execSeqInRise (s : State) : Res :=
  .next (if bit (s.reg pSEQ 0x040) 31 = false then s
    else
      let s := s.setSeqBit 23 true
      if s.seqState = 0 then s.endStay else s)

/-- SEQ_IN falls: with the cascade, in state 15, a power-down with a flush. -/
def execSeqInFall (s : State) : Res :=
  .next (if bit (s.reg pSEQ 0x040) 31 = false then s
    else
      let s := s.setSeqBit 23 false
      if s.seqState = 15 ∧ s.seqDown = false then s.flushDown else s)

/-- CASC_DELAY after state 15: SEQ_OUT goes high. -/
def execCascDelayExpire (s : State) : Res := .next (if s.seqState = 15 ∧ s.seqDown = false then s.setSeqOut true else s)

/-- CASC_DOWN_WAIT has passed since SEQ_OUT fell. -/
def execCascDownWaitExpire (s : State) : Res :=
  .next (
    let s := { s with seq.cascWait := false }
    if s.seqState = 14 ∧ s.seqDown then s.tryCage else s)

/-! ### References and generators (R401, R403) -/

/-- HOLDOVER of every generator of K00 to K16. -/
def State.setHoldover (s : State) (v : Nat) : List Nat → State
  | [] => s
  | k :: l => (s.setFld pHD (islandReg k + 4) 30 30 v).setHoldover v l

/-- Links of planes down, in order. -/
def State.planesDown (s : State) : List Nat → State
  | [] => s
  | p :: l => ((s.setPlaneBits p false false).discardQueue p).planesDown l

/-- Links of twin ports down, in order. -/
def State.portsDown (s : State) : List Nat → State
  | [] => s
  | p :: l =>
    (if bit (s.reg (pTP p) 0x040) 0 then ((s.setFld (pTP p) 0x040 0 0 0).fire pTWC 8).portStops p else s).portsDown l

/-- A reference stops: 0 REFCLK_SYS, 1 REFCLK_ETH, 2 REFCLK_PCIE. -/
def execRefclkLoss (ref : Nat) (s : State) : Res :=
  .next (if 2 < ref ∨ bit (s.reg pHD 0x040) ref = false then s
    else
      let s := ((s.setFld pHD 0x040 ref ref 0).bump pHD 0x044).fireLimited pHD 0 second ref
      if ref = 0 then s.setHoldover 1 (List.range 17)
      else if ref = 1 then ((s.planesDown (List.range s.planes)).portsDown [0, 1, 2, 3]).settleAll
      else s)

/-- 1 ms after a reference has returned. -/
def execRefclkReturn (ref : Nat) (s : State) : Res :=
  .next (if 2 < ref ∨ s.seqState ≠ 15 then s
    else
      let s := s.setFld pHD 0x040 ref ref 1
      if ref = 0 then s.setHoldover 0 (List.range 17) else s)

/-- The pages whose resets together reset an island (DESIGN CHOICE, log 33). -/
def islandPages (k : Nat) : List Nat :=
  if k < 8 then [0x40 + k]
  else if k = 8 then [0x21]
  else if k = 9 then [0x4C]
  else if k = 10 then [0x4D, 0x20]
  else if k = 11 then [0x4E, 0x4F, 0x23]
  else if 13 ≤ k ∧ k < 17 then [pRG (k - 13)]
  else []

/-- Pages reset that can be, in order. -/
def State.resetList (s : State) : List Nat → State
  | [] => s
  | p :: l => (if s.resettable p then s.requestReset p 4 0 else s).resetList l

/-- A generator loses lock outside holdover: its island is reset at the island's level, but for a power loss or a restore under way. -/
def execIslandUnlock (k : Nat) (s : State) : Res :=
  .next (if 17 ≤ k ∨ bit (s.reg pHD (islandReg k + 4)) 30 ∨ bit (s.reg pHD (islandReg k + 4)) 31 = false then s
    else
      let s := (s.setFld pHD (islandReg k + 4) 31 31 0).fire pHD 1
      if s.lossOrRestore then s
      else if k = 12 then s.requestChip 4
      else s.resetList (islandPages k))

/-! ### The chip reset (R365, R378, R404, R405) -/

/-- Pages of island K17, which a chip reset leaves. -/
def keptPage (page : Nat) : Bool := page = 0x0004 || decide (0x0080 ≤ page ∧ page ≤ 0x0083)

/-- The bits of a register that a chip reset keeps, given whether its page is FENCED or FAILED. -/
def chipMask (retired : Bool) (page off : Nat) : Word :=
  if off = 0x008 ∨ off = 0x02C then 0
  else if keptPage page then 0xFFFFFFFF
  else if off = 0x00C then (if retired then 0xFFFFFFFF else 0)
  else
    let ty := (pageType page).getD 0xFF
    if (ty = 0x08 ∧ off = 0x148) ∨ (ty = 0x40 ∧ off = 0x048) then 0
    else if ty = 0x29 ∧ off = 0x060 then 6
    else keptMask ty off

/-- The page is FENCED or FAILED. -/
def State.retired (s : State) (page : Nat) : Bool := s.pg page = .fenced || s.pg page = .failed

/-- Commands whose work on chip is lost, so that it starts again after boot: hints, PLANE_CONTROL, KEY_REWRITE, CORE_SWAP, AGEING_RUN. -/
def lostOps : List Nat := [0x17, 0x24, 0x42, 0x52, 0x65]

/-- Commands across a chip reset: those not started are gone; those started go on without a CQE. -/
def crossReset : List Outstanding → List Outstanding
  | [] => []
  | o :: l =>
    if o.started then { o with discard := true, running := o.running && !decide (o.op ∈ lostOps) } :: crossReset l else crossReset l

/-- Streams given up: their journal entries are ABANDONED and their pages poisoned (R355, R365). -/
def State.abandonOps (s : State) : List Nat → State
  | [] => s
  | op :: l =>
    ({ s with host.journal := closeEntry op stABORTED 0 0 op s.rtc 3 s.host.journal,
              host.cmds := s.host.cmds.filter fun (o : Outstanding) => !(o.started && o.opId == op) }).abandonOps l

/-- Operations of started commands of an opcode that a test picks. -/
def State.opsOf (s : State) (op : Nat) (p : AdminCmd → Bool) : List Nat :=
  (s.host.cmds.filter fun o => o.started && o.op == op && p o.cmd).map fun o => o.opId

/-- What comes to its end before the reset takes effect: copies and write-backs; streams; FW_ACTIVATE before its commit; RESET commands. -/
def State.settleForChip (s : State) : State :=
  let s := (s.copyHist.copyTally).postBar2 (2 ^ 65)
  let pages := s.larder.streams.flatMap s.streamWritten
  let s := ({ s with larder.streams := [] }).poisonPages pages
  let s := s.abandonOps (s.opsOf 0x44 fun _ => true)
  let s := s.endOps stSUCCESS (s.opsOf 0x0C fun _ => true)
  ({ s with host.cmds := crossReset s.host.cmds }).endOps stSTATE_CONFLICT (s.opsOf 0x51 fun c => decide (c.p0 = 0))

/-- Region logic of every region that works. -/
def State.resetRegions (s : State) : List Nat → State
  | [] => s
  | r :: l => (if s.retired (pRG r) then s else s.resetRegion r).resetRegions l

/-- The requesters that a chip reset takes from those parked on a flash read: fabric reads, and reads of the twin. -/
def parkedStays : Parked → Bool
  | .job _ _ _ => false
  | .twin _ _ _ => false
  | _ => true

/-- What the units on chip hold outside registers and memory. The DIMMs stand in self-refresh; flash reads for fills and recoveries are asked again. -/
def State.clearUnits (s : State) : State :=
  let s := (s.resetRegions (List.range s.regions)).resetTc.resetTwin.resetSteward.resetAttic
  let s := { s with cellar.misses := s.cellar.misses.map fun (m : Miss) => { m with parked := m.parked.filter parkedStays },
                    cellar.missWaits := s.cellar.missWaits.filter fun (m : MissWait) => parkedStays m.who,
                    cellar.staged := [], cellar.stageFills := [], cellar.hints := [], cellar.strides := [] }
  let channels : KMap ChannelInfo := KM.mapV (fun _ (i : ChannelInfo) => { i with unreadable := false, errors := [] }) s.dram.channels
  let s := { s with dram.ranks := [], dram.banks := [], dram.trains := [], dram.working := [], dram.throttles := [], dram.deferred := [], dram.channels := channels }
  let s := { s with integ.corr := [], integ.passes := [], integ.scan := none, loft.reads := [], dur.waiting := [], perf := {}, fc := {} }
  let s := { s with power.base := 0, power.zone := 0, power.tcSince := none, power.below := 0 }
  { s with fab.planes := KM.mapV (fun _ (p : Plane) => { p with draining := none, out := p.out || p.returning.isSome, returning := none }) s.fab.planes }

/-- The host side across a chip reset: queues, challenges, grants, vectors and results are gone. -/
def State.clearHost (s : State) : State :=
  { s with host := { cmds := s.host.cmds, journal := s.host.journal, nextJseq := s.host.nextJseq, nextOp := s.host.nextOp } }

/-- Pages, islands and links across a chip reset: every island released, every page OFF but those that keep their state. -/
def State.clearArch (s : State) : State :=
  let ret := allPages.filter s.retired
  let refs := s.fld pHD 0x040 2 0
  let regions : KMap RegionState := KM.mapV (fun _ (v : RegionState) => { buffer := v.buffer }) s.arch.regions
  let s := s.loseRegs fun page off => chipMask (decide (page ∈ ret)) page off
  let s := { s with arch.links := [], arch.pages := [], arch.regions := KM.keep (fun _ v => decide (v ≠ ({} : RegionState))) regions, arch.reissue := [],
                    arch.chipDue := none }
  let s := ((s.startClocks (List.range 17)).setFld pHD 0x040 2 0 refs).setFaultN 3 false
  if refs % 2 = 0 then s.setHoldover 1 (List.range 17) else s

/-- Dirty accounting, credits and twin shown again on registers that stand at reset. -/
def State.showDirty (s : State) : List Nat → State
  | [] => s
  | r :: l => ((s.setDirty r (s.dirty r)).dueRepairs r).showDirty l

/-- LAST_CAUSE of the package page by the cause of the chip reset: an admin command, an action of the collector, a power-loss flush. -/
def chipCause (cause : Nat) : Nat := if cause = 3 then 2 else if cause = 6 then 7 else 3

/-- A chip reset takes effect. After the chip reset of R211 the Loft is intact, and restore steps 1 to 8 have nothing to do. -/
def State.chipReset (s : State) (d : ChipDue) : State :=
  let back := decide (d.cause = 5) && bit (s.reg pSTW 0x040) 27
  let reads := s.hist.reads
  let s := s.settleForChip.clearUnits.clearHost.clearArch.loseAgeing
  let s := { s with stw := { previousBank := s.stw.previousBank, nextBank := s.stw.nextBank, raiseFloor := s.stw.raiseFloor, bootBack := back, serviceS := s.stw.serviceS } }
  let s := ((s.setNum pFC 0x084 d.w0).setNum pFC 0x088 d.w1).setNum pFC 0x08C d.w2
  let s := ((s.showKeys s.allChannels).reloadSlots.resumeTally.ringOff .pf0).ringOff .pf1
  let s := { s.resumeHist false with hist.reads := reads, hist.scanned := false }
  let s := ((s.showDirty (List.range s.regions)).setBudget 0).freshPeers s.fab.peers
  let s := (s.set64 pSTW 0x068 0x06C s.host.nextJseq).setNum pSEQ 0x05C d.cause
  let s := s.setPg pPKG .starting (chipCause d.cause)
  if d.cause = 6 then
    ({ s with power.countAt := none, power.steps := List.range' 1 8, power.restoreAt := s.now, power.marked := [] }).setPhase 6
  else s

/-- A chip reset asked for takes effect, once no Attic program is in progress. -/
def execChipReset (s : State) : Res :=
  .next (match s.arch.chipDue with
    | none => s
    | some d => if s.programming ∨ s.seqState ≠ 15 ∨ s.seqDown then s else s.chipReset d)

/-! ### RESET of type 1 and 2 (R406) -/

/-- The checks of a RESET that powers the appliance down. -/
def State.powerCmd (s : State) (c : AdminCmd) : Option Nat :=
  if c.target ≠ 0 ∨ (c.p0 = 1 ∧ c.p1 ≠ 0 ∧ (c.p1 < 100 ∨ 60000 < c.p1)) then some stINVALID_FIELD
  else if s.cmdLocked c 0 then some stNOT_PERMITTED
  else if s.lossOrRestore ∨ s.seqState ≠ 15 ∨ s.seqDown then some stSTATE_CONFLICT
  else none

/-- RESET of type 1: flush, power-down, and power-up after the off time. The journal entry is DONE as the flush starts, and no CQE is posted. -/
def execResetPowerCycle (c : AdminCmd) (s : State) : Res :=
  .next (if c.p0 ≠ 1 then s else s.adminRun 0x0C c fun op s =>
    match s.powerCmd c with
    | some st => (s, bad st)
    | none =>
      let s := (s.silence op).complete op { status := stSUCCESS }
      (({ s with seq.nextCause := 7, seq.offMs := if c.p1 = 0 then 1000 else c.p1 }).flushDown, none))

/-- RESET of type 2: flush and power-down, staying down. -/
def execResetPowerDown (c : AdminCmd) (s : State) : Res :=
  .next (if c.p0 ≠ 2 then s else s.adminRun 0x0C c fun op s =>
    match s.powerCmd c with
    | some st => (s, bad st)
    | none =>
      let s := (s.silence op).complete op { status := stSUCCESS }
      (({ s with seq.stayDown := true }).flushDown, none))

end Sys2Proof.Machine
end

