-- ==== Sys2Proof/Machine/Steward.lean ====
section
/-!
DEFINITION. Boot, firmware and configuration records (chapter 14): the ROM and stage-1, staging and activating images, live activation, configuration records in the Attic.
-/

namespace Sys2Proof.Machine

/-! ### Images (R370) -/

/-- The Attic offset of a bank: 0 A, 1 B. -/
def bankBase (b : Nat) : Nat := (8 + 8 * b) * 0x40000

/-- A little-endian word of an image header. -/
def State.imageWord (s : State) (base off : Nat) : Nat := leNat (s.atticBytes (base + off) 4)

/-- An image of a type at an Attic offset is valid under R370. The cryptographic functions are uninterpreted (log 6). -/
def State.imageOk (s : State) (base type most : Nat) : Bool :=
  let h := s.atticBytes base 512
  let n := s.imageWord base 16
  decide (s.imageWord base 0 = 0x464D4E57 ∧ leNat ((h.drop 6).take 1) = type ∧ n ≤ most ∧ Config.fusedFloor ≤ s.imageWord base 8 ∧
          s.num pSTW 0x048 ≤ s.imageWord base 8 ∧ Config.sha384 ((h.drop 80).take 96) = Config.fusedDigest) &&
    Config.ecdsaOk ((h.drop 80).take 96) (h.take 176) ((h.drop 176).take 96) &&
    decide (Config.sha384 (s.atticBytes (base + 512) n) = (h.drop 32).take 48)

/-- Most bytes of code of a main image. -/
def mainMost : Nat := 0x180000 - 512

/-- Most bytes of code of a stage-1 image. -/
def bootMost : Nat := 0x20000 - 512

/-- The code bytes of the main image at an Attic offset. Where the array holds no image header the code came from outside (log 27) and none are known. -/
def State.codeBytes (s : State) (base : Nat) : List Byte :=
  let n := s.imageWord base 16
  s.atticBytes (base + 512) (if n ≤ mainMost then n else 0)

/-- The bank in use. -/
def State.bank_ (s : State) : Nat := s.fld pSTW 0x040 25 25

/-! ### Boot (R371, R372, R378) -/

/-- BOOT_STAGE. -/
def State.bootStage (s : State) : Nat := s.fld pSTW 0x05C 7 4

/-- BOOT_STAGE and BOOT_STATUS shown. -/
def State.setBoot (s : State) (stage status : Nat) : State := s.setNum pSTW 0x05C (stage * 16 + status)

/-- The ROM verifies stage-1, in block 0 and then in block 1, given which of them is valid, and jumps into it; with neither, FAULT_N is asserted. -/
def execBootRomStart (ok0 ok1 : Bool) (s : State) : Res :=
  .next (if s.seqState ≠ 15 ∨ s.seqDown ∨ s.stwState ≠ 0 ∨ s.bootStage ≠ 0 then s
    else if ok0 ∨ ok1 then s.setBoot 1 0
    else (s.setBoot 0 1).setFaultN 3 true)

/-- The cores in the order of the roles they last held. -/
def State.coreOrder (s : State) : List Nat :=
  [0, 1, 2, 3].flatMap fun (r : Nat) => [0, 1, 2].filter fun i => decide (s.fld (pSC i) 0x040 31 30 = r)

/-- Cores that fail the BIST of the boot, in order. -/
def State.failCores (s : State) : List Nat → State
  | [] => s
  | i :: l => ((s.coreBist i false).failCore i).failCores l

/-- The pair starts with the cores that passed BIST, and checkpoint 0 is taken; one core runs alone; none leaves the complex in BOOT. -/
def State.startPair (s : State) (cores : List Nat) : State :=
  match cores with
  | [] => s.setFld pSTW 0x05C 3 0 3
  | [a] => ((s.setRoles a 3 3).takeCheckpoint 0).enterUnchecked
  | a :: b :: l => ((s.setRoles a b (l.headD 3)).takeCheckpoint 0).enterChecked

/-- ENABLE set on the pages that the configuration lists as in service (R37); the regions of a restore start with LAST_CAUSE 7 (R213). -/
def State.enablePages (s : State) : List Nat → State
  | [] => s
  | p :: l =>
    let s := (s.setFld p 0x008 0 0 1).tryStart p
    (if s.phase = 6 ∧ pageType p = some 0x08 ∧ s.pg p = .starting then s.setPg p .starting 7 else s).enablePages l

/-- The latest FW_ACTIVATE in the journal shows that it did not hold (R378). -/
def undoActivate : List JournalEntry → List JournalEntry
  | [] => []
  | e :: l => if e.op = 0x51 ∧ e.state = 2 then { e with status := stSTATE_CONFLICT } :: l else e :: undoActivate l

/-- The main image runs from code partition A. -/
def State.runMain (s : State) (bank bist version status : Nat) : State :=
  let cores := s.coreOrder.filter fun i => !s.retired (pSC i)
  let s := s.failCores (cores.filter fun i => !bist.testBit i)
  let s := (s.setBoot 2 status).setNum pSTW 0x044 version
  let s := ((s.setFld pSTW 0x040 25 25 bank).setFld pSTW 0x040 26 26 0)
  let s := if s.stw.raiseFloor ∧ s.stw.nextBank = some bank then s.setNum pSTW 0x048 (s.imageWord (bankBase bank) 8) else s
  let s := { s with stw.nextBank := none, stw.raiseFloor := false, stw.bootBack := false, stw.wdogAt := s.now }
  let s := { s with stw.sram := putSram s.stw.sram (codePart 0).1 (s.codeBytes (bankBase bank)) }
  let s := s.startPair (cores.filter fun i => bist.testBit i)
  if s.stwState = 0 then s else (s.enablePages (allPages.filter fun p => p ∈ s.arch.inService)).serveWaiting

/-- Stage-1 starts the main image of the active bank, given which banks hold a valid image, which cores pass BIST (a mask) and the image's version. It tries the other bank where the
active one is invalid; after a failed probation the previous bank is the active one. With neither, the recovery image runs. -/
def execMainImageStart (okA okB recoveryOk : Bool) (bist version : Nat) (s : State) : Res :=
  .next (if s.seqState ≠ 15 ∨ s.seqDown ∨ s.stwState ≠ 0 ∨ s.bootStage ≠ 1 then s
    else
      let back := s.stw.bootBack
      let want := if back then s.stw.previousBank.getD (1 - s.bank_) else s.stw.nextBank.getD s.bank_
      let s := if back then { s with stw.previousBank := none, host.journal := undoActivate s.host.journal } else s
      let ok := fun (b : Nat) => if b = 0 then okA else okB
      if ok want then (if back then s.fire pSTW 5 else s).runMain want bist version 0
      else if ok (1 - want) then (s.fire pSTW 5).runMain (1 - want) bist version 4
      else if recoveryOk then (s.setBoot 3 2).setStw 6
      else s.setFld pSTW 0x05C 3 0 2)

/-! ### Staging (R373, R379, R385) -/

/-- Blocks erased, in order. -/
def State.eraseBlocks (s : State) : List Nat → State
  | [] => s
  | b :: l => ((((s.eraseAttic b).noteErase b).bump pAC 0x058).dropXip b).eraseBlocks l

/-- Pages of 4 KiB that a range of the Attic touches. -/
def pagesIn (off n : Nat) : List Nat := List.range' (off / 4096) ((off % 4096 + n + 4095) / 4096)

/-- A page programmed with its bytes. -/
def State.programAt (s : State) (p : Nat) (bs : List Byte) : State :=
  let b := s.atticBlock (p / 64)
  (s.setAtticBlock (p / 64) { data := putAttic b.data (p % 64 * 4096) bs, marks := insertSorted (p % 64) b.marks }).bump pAC 0x054

/-- Consecutive pages programmed. -/
def State.programRun (s : State) (bs : List Byte) : List Nat → State
  | [] => s
  | p :: l => ((s.programAt p (bs.take 4096)).dropXip (p / 64)).programRun (bs.drop 4096) l

/-- A chunk written at an Attic offset. -/
def State.writeChunk (s : State) (off : Nat) (bs : List Byte) : State := s.programRun bs (pagesIn off bs.length)

/-- A page of a range has been programmed already. -/
def State.anyMarked (s : State) (off n : Nat) : Bool := (pagesIn off n).any fun p => decide (p % 64 ∈ (s.atticBlock (p / 64)).marks)

/-- A bank marked invalid, or valid. -/
def State.markBank (s : State) (b : Nat) (ok : Bool) : State :=
  { s with attic.invalidBanks := if ok then s.attic.invalidBanks.filter (· ≠ b) else insertSorted b s.attic.invalidBanks }

/-- Block 1 copied to block 0, once it holds a valid stage-1 image. -/
def State.copyStage1 (s : State) : State :=
  let n := 512 + s.imageWord 0x40000 16
  let bs := s.atticBytes 0x40000 n
  (s.eraseBlocks [0]).writeChunk 0 bs

/-- A chunk of a stage-1 image, which goes to block 1 and, valid, to block 0. -/
def State.stageBoot (s : State) (off : Nat) (bs : List Byte) (last : Bool) : State × Option Answer :=
  let s := if off = 0 then s.eraseBlocks [1] else s
  if s.anyMarked (0x40000 + off) bs.length then (s, bad stNOT_ERASED)
  else
    let s := s.writeChunk (0x40000 + off) bs
    if last = false then (s, good)
    else if s.imageOk 0x40000 1 bootMost then (s.copyStage1, good)
    else (s, bad stSIGNATURE_FAIL)

/-- A chunk of a main image, which goes to the inactive bank; from the first chunk until the last has verified, the bank is invalid. -/
def State.stageMain (s : State) (off : Nat) (bs : List Byte) (last : Bool) : State × Option Answer :=
  let b := 1 - s.bank_
  let s := if off = 0 then (s.eraseBlocks (List.range' (8 + 8 * b) 8)).markBank b false else s
  if s.anyMarked (bankBase b + off) bs.length then (s, bad stNOT_ERASED)
  else
    let s := s.writeChunk (bankBase b + off) bs
    if last = false then (s, good)
    else if s.imageOk (bankBase b) 2 mainMost then (s.markBank b true, good)
    else (s.markBank b false, bad stSIGNATURE_FAIL)

/-- FW_STAGE. A chunk starts on a page of 4 KiB (DESIGN CHOICE, log 36). -/
def execFwStage (c : AdminCmd) (s : State) : Res :=
  .next (s.adminRun 0x50 c fun _ s =>
    let n := properLen c
    let boot := c.p1.testBit 1
    if 3 < c.p1 ∨ n = 0 ∨ 2 ^ 20 < n ∨ c.p0 % 4096 ≠ 0 ∨ (if boot then 0x20000 else 0x180000) < c.p0 + n then (s, bad stINVALID_FIELD)
    else if s.cmdLocked c pSTW ∨ s.cmdLocked c pAC then (s, bad stNOT_PERMITTED)
    else if s.stw.live.isSome then (s, bad stSTATE_CONFLICT)
    else if boot then s.stageBoot c.p0 ((proper c).take n) (c.p1.testBit 0)
    else s.stageMain c.p0 ((proper c).take n) (c.p1.testBit 0))

/-! ### Activation (R374 to R378) -/

/-- FW_ACTIVATE with PARAM0 = 1: the staged bank is active from the next chip reset. A staged bank that is invalid is a state conflict (DESIGN CHOICE, log 36). -/
def execFwActivateNextReset (c : AdminCmd) (s : State) : Res :=
  .next (if c.p0 = 0 then s else s.adminRun 0x51 c fun _ s =>
    if c.p0 ≠ 1 ∨ 1 < c.p1 then (s, bad stINVALID_FIELD)
    else if s.cmdLocked c pSTW then (s, bad stNOT_PERMITTED)
    else if 1 - s.bank_ ∈ s.attic.invalidBanks then (s, bad stSTATE_CONFLICT)
    else ({ s with stw.nextBank := some (1 - s.bank_), stw.raiseFloor := decide (c.p1 = 1) }, good))

/-- FW_ACTIVATE with PARAM0 = 0: a live activation begins. -/
def execFwActivateLive (c : AdminCmd) (s : State) : Res :=
  .next (if c.p0 ≠ 0 then s else s.adminRun 0x51 c fun op s =>
    if 1 < c.p1 then (s, bad stINVALID_FIELD)
    else if s.cmdLocked c pSTW then (s, bad stNOT_PERMITTED)
    else if s.stwState ≠ 1 ∨ 3 ≤ s.spare ∨ 1 - s.bank_ ∈ s.attic.invalidBanks then (s, bad stSTATE_CONFLICT)
    else (({ s with stw.live := some (op, 1), stw.raiseFloor := decide (c.p1 = 1) }).setStw 5, none))

/-- Code of the staged image copied to the code partition not in use. -/
def State.copyCode (s : State) : State :=
  let base := bankBase (1 - s.bank_)
  { s with stw.sram := putSram s.stw.sram (codePart (1 - s.part)).1 (s.codeBytes base) }

/-- The converted data put into the data partition not in use. -/
def State.putData (s : State) : List (Nat × Byte) → State
  | [] => s
  | x :: l => (if within x.1 (dataPart (1 - s.part)) then { s with stw.sram := KM.putD 0 s.stw.sram x.1 x.2 } else s).putData l

/-- Step 7: the epochs of LEAD and SHADOW are retired; the spare leads the new pair, the former lead is the spare. -/
def State.newRoles (s : State) : State :=
  let l := s.lead
  let h := s.shadow
  let p := s.spare
  ((s.retireEpoch l).retireEpoch h).setRoles p h l

/-- Step 8, the commit: the new code's first output is released. -/
def State.commitLive (s : State) (op : Nat) : State :=
  let old := s.bank_
  let base := bankBase (1 - old)
  let version := s.imageWord base 12
  let sec := s.imageWord base 8
  let us := (s.now - s.stw.outageAt.getD s.now) / 1000
  let s := ((s.setFld pSTW 0x040 26 26 (1 - s.part)).setFld pSTW 0x040 25 25 (1 - old)).setFld pSTW 0x040 27 27 1
  let s := s.setNum pSTW 0x044 version
  let s := if s.stw.raiseFloor then s.setNum pSTW 0x048 sec else s
  let s := ({ s with stw.live := none, stw.raiseFloor := false, stw.previousBank := some old }).takeCheckpoint (s.stw.ckSeq + 1)
  (s.enterChecked.endOutage).complete op { status := stSUCCESS, r0 := version, r1 := us % 2 ^ 31 }

/-- The effect of a step that succeeded. -/
def State.liveStep (s : State) (op step : Nat) (data : List (Nat × Byte)) : State :=
  let s := (s.journalStep op step)
  let s := { s with stw.live := some (op, step + 1) }
  match step with
  | 2 => s.copyCode
  | 3 => s.coreBist s.spare true
  | 5 => (s.takeCheckpoint (s.stw.ckSeq + 1)).beginOutage
  | 6 => s.putData data
  | 7 => s.newRoles
  | 8 => s.commitLive op
  | _ => s

/-- A live activation given up: the former pair runs, from the checkpoint of step 5 where it had stopped. -/
def State.failLive (s : State) : State := (s.rollBack.enterChecked).endOutage

/-- A step of a live activation ends; the data is that of step 6, as address and byte. -/
def execLiveActivationStepDone (step : Nat) (ok : Bool) (data : List (Nat × Byte)) (s : State) : Res :=
  .next (match s.stw.live with
    | none => s
    | some (op, n) =>
      if step ≠ n ∨ s.stwState ≠ 5 then s
      else if ok then s.liveStep op step data
      else s.failLive)

/-- 60 s after the commit. -/
def execProbationEnd (s : State) : Res :=
  .next (if bit (s.reg pSTW 0x040) 27 then ({ s with stw.previousBank := none }).setFld pSTW 0x040 27 27 0 else s)

/-! ### Configuration records (R388) -/

/-- The records an installer writes. -/
def installerRecord (id : Nat) : Bool := id = 1 || id = 2 || id = 3 || decide (0x100 ≤ id ∧ id ≤ 0x1FF)

/-- The records the device writes. -/
def deviceRecord (id : Nat) : Bool := decide (0x10 ≤ id ∧ id ≤ 0x16)

/-- CONFIG_READ. What a device-owned record holds is not laid out, so its contents, SEQ and LEN are free values (log 36). A record that does not exist is an invalid field. -/
def execConfigRead (c : AdminCmd) (s : State) : Res :=
  .next (s.adminRun 0x53 c fun _ s =>
    match KM.get s.attic.records c.target with
    | some (seq, bs) => (s.toBuffer c bs, good seq bs.length)
    | none =>
      if deviceRecord c.target then
        let (a, s) := s.fresh
        let (b, s) := s.fresh
        (if properLen c = 0 ∨ c.dataAddr = 0 then s else s.emit (.record c.fn (properAddr c) (properLen c) c.target),
         good (a.toNat % 2 ^ 32) (b.toNat % 4081))
      else (s, bad stINVALID_FIELD))

/-- CONFIG_WRITE. SIDE takes the first bit of its record (DESIGN CHOICE, log 8). -/
def execConfigWrite (c : AdminCmd) (s : State) : Res :=
  .next (s.adminRun 0x54 c fun _ s =>
    let n := properLen c
    if deviceRecord c.target then (s, bad stNOT_PERMITTED)
    else if installerRecord c.target = false ∨ 4080 < n then (s, bad stINVALID_FIELD)
    else if s.cmdLocked c pSTW ∨ s.cmdLocked c pAC then (s, bad stNOT_PERMITTED)
    else if c.target = 1 ∧ 0 < s.num pTWC 0x048 then (s, bad stSTATE_CONFLICT)
    else
      let bs := (proper c).take n
      let seq := match KM.get s.attic.records c.target with | some (q, _) => q + 1 | none => 1
      let s := { s with attic.records := KM.put s.attic.records c.target (seq, bs) }
      (if c.target = 1 then s.setFld pTWC 0x040 31 31 (leNat (bs.take 1) % 2) else s, good))

end Sys2Proof.Machine
end

