-- ==== Sys2Proof/Machine/Faults.lean ====
section
/-!
DEFINITION. The Fault Collector (chapter 17): classes, severities, the ladder of steps, grace timers, acknowledgements, records, FAULT_N, injection.
-/

namespace Sys2Proof.Machine

/-! ### Classes (R428, R442) -/

/-- A class exists: its source is defined for its block type. -/
def classDefined (ty src : Nat) : Bool := (allPages.any fun p => pageType p == some ty) && (definedSources ty).testBit src

/-- A class as reset leaves it: default settings, idle. -/
def defaultClass (ty src : Nat) : FaultClass :=
  let r := classDefault ty src
  { steward := r.steward, fallback := r.fallback, grace := r.grace }

/-- A class. -/
def State.fcClass (s : State) (ty src : Nat) : FaultClass := KM.getD (defaultClass ty src) s.fc.classes (32 * ty + src)

/-- The class that CLASS_SEL names, shown in CLASS_CFG. -/
def State.showClass (s : State) : State :=
  let ty := s.fld pFC 0x040 15 8
  let src := s.fld pFC 0x040 4 0
  let c := s.fcClass ty src
  s.setNum pFC 0x044 (if classDefined ty src then
      2 ^ 31 + b2n c.pending * 2 ^ 30 + c.step * 2 ^ 27 + c.fallback * 2 ^ 24 + b2n c.steward * 2 ^ 23 + c.grace
    else 0)

/-- A class changed, and shown where it is the one selected; PENDING_CLASSES counted. -/
def State.setClass (s : State) (ty src : Nat) (v : FaultClass) : State :=
  let s := { s with fc.classes := KM.putD (defaultClass ty src) s.fc.classes (32 * ty + src) v }
  (s.setNum pFC 0x068 (s.fc.classes.filter fun p => p.2.pending).length).showClass

/-- The fallbacks a severity allows (table "Reaction by severity"). -/
def fallbackFits (sev fallback : Nat) : Bool :=
  if sev = 2 then decide (fallback = 3 ∨ fallback = 4 ∨ fallback = 5) else if sev = 3 then decide (fallback = 3 ∨ fallback = 5) else false

/-- The first step of a firing that opens a class. -/
def firstStep (sev : Nat) (steward : Bool) : Nat := if sev = 3 then 4 else if steward then 2 else 1

/-- The ceiling of escalation for a firing. -/
def ceilingOf (sev fallback : Nat) : Nat := if sev = 3 then 5 else if sev = 2 ∧ fallbackFits 2 fallback then fallback else 2

/-! ### Steps and records (R430, R436 to R438) -/

/-- The host interrupt: vector 32 of both functions, or of the one that SET_VECTOR names. -/
def State.hostInterrupt (s : State) : State :=
  match s.vectorOf .pf0 pFC, s.vectorOf .pf1 pFC with
  | some _, none => s.signal .pf0 32
  | none, some _ => s.signal .pf1 32
  | _, _ => s.signalBoth 32

/-- The Steward NMI, held while the pair is stopped. -/
def State.stewardNmi (s : State) : State := if s.pairRuns then s.emit .nmi else { s with stw.nmiHeld := true }

/-- A firing as it crosses to the collector: page, block type, source, severity, and whether its page is in DRILL. -/
structure Firing where
  page : Nat
  ty : Nat
  src : Nat
  sev : Nat
  drill : Bool
  deriving DecidableEq, Repr

/-- The three words of a fault record. -/
def State.faultWords (s : State) (f : Firing) (step : Nat) (esc deferred expiry : Bool) : Nat × Nat × Nat :=
  (b2n esc * 2 ^ 30 + b2n f.drill * 2 ^ 29 + b2n deferred * 2 ^ 28 + step * 2 ^ 25 + f.sev * 2 ^ 23 + f.src * 2 ^ 16 + f.page % 2 ^ 14,
   f.ty * 2 ^ 24 + b2n expiry * 2 ^ 23 + s.rtc % 1024, s.rtcSeconds % 2 ^ 32)

/-- The cause of the chip reset that a class leads to (R407). -/
def resetCause (ty src : Nat) : Nat := if ty = 0x12 ∧ (src = 3 ∨ src = 4) then 5 else 4

/-- What a step does beside its interrupts. -/
def State.stepAction (s : State) (f : Firing) (step : Nat) (w : Nat × Nat × Nat) : State :=
  if step = 3 then
    if f.page < 2 then s.requestChip 4
    else if neverReset f.page ∨ s.resettable f.page = false then s
    else s.requestReset f.page 3 0
  else if step = 4 then s.setFaultN 1 true
  else if step = 5 then s.requestChip (resetCause f.ty f.src) w
  else s

/-- A step is put off (R436): a reset during a power loss or a restore. -/
def State.putsOff (s : State) (step : Nat) : Bool := (step = 3 || step = 5) && s.lossOrRestore

/-- A step taken for a firing, or the record alone for step 0. Answers the step taken in its place where it was put off. -/
def State.act (s : State) (f : Firing) (want : Nat) (esc expiry : Bool) : Nat × State :=
  let off := s.putsOff want
  let step := if off then 4 else want
  let w := s.faultWords f step esc off expiry
  let s := if s.publishFull pFC 0x04C 64 then s.fireLimited pFC 1 else s
  let s := s.publish pFC 0x04C [w.1, w.2.1, w.2.2] 64
  let s := if off then (s.bump pFC 0x074).fire pFC 2 else s
  let s := if esc then (s.bump pFC 0x070).fireLimited pFC 0 else s
  let s := if 1 ≤ step then s.hostInterrupt else s
  let s := if 2 ≤ step then s.stewardNmi else s
  (step, s.stepAction f step w)

/-- A class after a step on a page: STEP_TAKEN, the last step, and whether the page whose firing runs the grace timer has received the fallback. -/
def stepped (c : FaultClass) (page step : Nat) : FaultClass :=
  { c with step := max c.step step, last := step,
           timerStepped := c.timerStepped || (decide (step = c.useFallback) && (match c.timer with | some t => t.1 == page | none => false)) }

/-! ### Firings (R431, R432, R434, R435) -/

/-- A firing that opens its class. -/
def State.openClass (s : State) (f : Firing) : State :=
  let c := s.fcClass f.ty f.src
  let c := { c with pending := true, step := 0, last := 0, useFallback := c.fallback, useSteward := c.steward, timerStepped := false,
                    timer := if fallbackFits f.sev c.fallback then some (f.page, f.sev) else none }
  let (n, t) := (s.setClass f.ty f.src c).act f (firstStep f.sev c.useSteward) false false
  t.setClass f.ty f.src (stepped c f.page n)

/-- A firing that finds its class pending: it climbs one step, or is recorded with the host interrupt alone. -/
def State.escalate (s : State) (f : Firing) : State :=
  let c := s.fcClass f.ty f.src
  let n := min (c.step + 1) (ceilingOf f.sev c.useFallback)
  if n ≤ c.step then (s.act f 1 false false).2
  else
    let (n, t) := s.act f n true false
    t.setClass f.ty f.src (stepped c f.page n)

/-- A firing handled: recorded only where it is INFO, at most step 1 in DRILL, else the first step of its class or an escalation. -/
def State.takeFiring (s : State) (f : Firing) : State :=
  if f.sev = 0 then (s.act f 0 false false).2
  else if f.drill then (s.act f 1 false false).2
  else if (s.fcClass f.ty f.src).pending then s.escalate f
  else s.openClass f

/-- A firing of a source of a page with a severity. -/
def State.firing (s : State) (page src sev : Nat) : Firing := { page, ty := (pageType page).getD 0xFF, src, sev, drill := s.pg page = .drill }

/-- The oldest firing on its way reaches the collector, and the History tail, which has counted those of the sequencer page already (R451). -/
def execFcFiringArrival (s : State) : Res :=
  .next (match s.host.routed with
    | [] => s
    | (page, src, sev) :: l =>
      let s := { s with host.routed := l }
      let f := s.firing page src sev
      let s := if page = pSEQ then s else s.noteEvent f.ty src sev f.drill
      s.takeFiring f)

/-- A grace timer expires: the fallback on the page whose firing started it, unless that page has received it. -/
def execGraceExpire (ty src : Nat) (s : State) : Res :=
  .next (
    let c := s.fcClass ty src
    match c.timer with
    | none => s
    | some (page, sev) =>
      let d := { c with timer := none }
      if c.pending = false ∨ c.timerStepped then s.setClass ty src d
      else
        let (n, t) := (s.bump pFC 0x06C).act { page, ty, src, sev, drill := false } c.useFallback false true
        t.setClass ty src (stepped d page n))

/-! ### Registers of the collector (R433, R439, R441, R443) -/

/-- A write of CLASS_ACK: the class is idle, its timer stopped. -/
def execClassAckWrite (req : Requester) (data : Word) (s : State) : Res :=
  .next (s.guarded req pFC fun s =>
    let ty := bits data 15 8
    let src := bits data 4 0
    let c := s.fcClass ty src
    if c.pending then s.setClass ty src { c with pending := false, step := 0, last := 0, useFallback := 0, useSteward := false, timer := none, timerStepped := false }
    else s.bump pFC 0x078)

/-- A write of CLASS_CFG for the class selected: each field where its value is allowed. -/
def execClassCfgWrite (req : Requester) (data : Word) (s : State) : Res :=
  .next (s.guarded req pFC fun s =>
    let ty := s.fld pFC 0x040 15 8
    let src := s.fld pFC 0x040 4 0
    if classDefined ty src = false then s
    else
      let c := s.fcClass ty src
      let fb := bits data 26 24
      let sev := (classDefault ty src).sev
      let fits := if 2 ≤ sev then fallbackFits sev fb else decide (fb = 0)
      let g := bits data 13 0
      s.setClass ty src { c with steward := bit data 23, fallback := if fits then fb else c.fallback, grace := if 1 ≤ g ∧ g ≤ 10000 then g else c.grace })

/-- A write of FAULT_N_CLR: the latch is cleared, unless a class whose last step was 4 or 5 is pending. -/
def execFaultNClrWrite (req : Requester) (data : Word) (s : State) : Res :=
  .next (s.guarded req pFC fun s =>
    if bit data 0 = false ∨ s.fc.classes.any (fun p => p.2.pending && decide (p.2.last = 4 ∨ p.2.last = 5)) then s
    else s.setFaultN 1 false)

/-- A write of FC_INJECT: in factory test mode a firing as if it had arrived from the page; else refused. -/
def execFcInjectWrite (req : Requester) (data : Word) (s : State) : Res :=
  .next (s.guarded req pFC fun s =>
    let page := bits data 29 16
    if s.fld pFC 0x07C 1 0 ≠ 3 then s.bump pPKG 0x050
    else if (pageType page).isNone ∨ s.absent page then s
    else
      let f := s.firing page (bits data 4 0) (bits data 31 30)
      (s.noteEvent f.ty f.src f.sev f.drill).takeFiring f)

end Sys2Proof.Machine
end

