-- ==== Sys2Proof/Machine/Ageing.lean ====
section
/-!
DEFINITION. Ageing measurements and the margin plan (chapter 16): the daily window, the bank measurement, probes, lane eyes, path-delay monitors, the plan and its log.
-/

namespace Sys2Proof.Machine

/-! ### Plan items (R422) -/

/-- A field of eight bits as a signed number. -/
def State.signedFld (s : State) (page off hi lo : Nat) : Int := (BitVec.ofNat 8 (s.fld page off hi lo)).toInt

/-- Where the lane registers of a port's page begin: fabric, twin, PCIe. -/
def laneBase (page : Nat) : Nat := if page < 0x48 then 0x040 else if page < 0x4C then 0x100 else 0x200

/-- INDEX of a lane in item 14. -/
def laneIndex (l : Lane) : Nat := if l.page < 0x48 then 4 * (l.page - 0x40) + l.lane else 32 + 4 * (l.page - 0x48) + l.lane

/-- The page of an INDEX of item 14. -/
def lanePage (idx : Nat) : Nat := if idx < 32 then pFP (idx / 4) else pTP ((idx - 32) / 4)

/-- The value of an item of the plan (table "Margin plan items"). -/
def State.planValue (s : State) (item idx : Nat) : Int :=
  match item with
  | 1 => (s.num pLG 0x05C : Nat)
  | 2 => (s.num pLG 0x060 : Nat)
  | 3 => (s.num pGRN 0x054 : Nat)
  | 4 => (s.num pGRN 0x058 : Nat)
  | 5 => (s.num pLG 0x064 : Nat)
  | 6 => (s.num pLG (0x0B0 + 4 * idx) : Nat)
  | 7 => (s.fld (pDC idx) 0x140 31 16 : Nat)
  | 8 => (b2n (decide (idx ∈ s.age.triggers)) : Nat)
  | 9 => s.signedFld pPKG (0x140 + 4 * idx) 15 8
  | 10 => s.signedFld pPKG (0x140 + 4 * idx) 7 0
  | 11 => (s.fld (pNC idx) 0x048 1 0 : Nat)
  | 12 => (s.num (pRG idx) 0x060 : Nat)
  | 13 => (s.num pPKG (0x120 + 4 * idx) : Nat)
  | 14 =>
    let w := s.reg (lanePage idx) (laneBase (lanePage idx) + 0x10)
    if bit w (4 + idx % 4) then 2 else if bit w (idx % 4) then 1 else 0
  | 15 => (s.num pPKG (0x130 + 4 * idx) : Nat)
  | _ => 0

/-- The wear bucket follows a new daily budget: filled up to now at the old rate, then cut to the new cap (R418). -/
def State.setWearDay (s : State) (r v : Nat) : State :=
  let d := s.fillBucket r (s.dirty r)
  let s := s.setNum (pRG r) 0x060 v
  (s.setDirty r (s.fillBucket r d)).showWearCredit r

/-- The register or state of an item set. -/
def State.putItem (s : State) (item idx : Nat) (v : Int) : State :=
  let n := v.toNat
  match item with
  | 1 => s.setNum pLG 0x05C n
  | 2 => s.setNum pLG 0x060 n
  | 3 => s.setNum pGRN 0x054 n
  | 4 => s.setNum pGRN 0x058 n
  | 5 => s.setNum pLG 0x064 n
  | 6 => s.setNum pLG (0x0B0 + 4 * idx) n
  | 7 => s.setFld (pDC idx) 0x140 31 16 n
  | 8 => { s with age.triggers := if v = 0 then s.age.triggers.filter (· ≠ idx) else insertSorted idx s.age.triggers }
  | 9 => s.setFld pPKG (0x140 + 4 * idx) 15 8 (BitVec.ofInt 8 v).toNat
  | 10 => s.setFld pPKG (0x140 + 4 * idx) 7 0 (BitVec.ofInt 8 v).toNat
  | 11 => s.setFld (pNC idx) 0x048 1 0 n
  | 12 => s.setWearDay idx n
  | 13 => s.setNum pPKG (0x120 + 4 * idx) n
  | 14 =>
    let s := s.setFld (lanePage idx) (laneBase (lanePage idx) + 0x10) (idx % 4) (idx % 4) (b2n (decide (v = 1)))
    if v = 2 then s.setFld (lanePage idx) (laneBase (lanePage idx) + 0x10) (4 + idx % 4) (4 + idx % 4) 1 else s
  | 15 => s.setNum pPKG (0x130 + 4 * idx) n
  | _ => s

/-- An item of the plan takes a value: a change writes its record into the log of the 4,096 newest, and counts. -/
def State.setItem (s : State) (item idx : Nat) (v : Int) (cause : Nat) : State :=
  let old := s.planValue item idx
  if old = v then s
  else
    let r : ChangeRec := { seq := s.num pPKG 0x100, time := s.rtc, item, index := idx, old, new := v, cause }
    let s := (s.putItem item idx v).bump pPKG 0x11C
    { s with age.items := KM.put s.age.items (256 * item + idx) r.seq, age.log := (r :: s.age.log).take 4096, age.batch := s.age.batch ++ [r] }

/-- Four bytes of a signed number. -/
def intBytes (v : Int) : List Byte := leBytes 4 (BitVec.ofInt 32 v).toNat

/-- A change record's bytes (table "Change record"). -/
def changeBytes (r : ChangeRec) : List Byte :=
  let b := leBytes 4 r.seq ++ leBytes 8 r.time ++ leBytes 1 r.item ++ leBytes 1 r.index ++ leBytes 2 0 ++ intBytes r.old ++ intBytes r.new ++
    leBytes 1 r.cause ++ leBytes 3 0
  b ++ leBytes 4 (crc32c b).toNat

/-- Changes put into PLAN records of the History, fifteen to a record. -/
def State.recordChanges (fuel : Nat) (s : State) (l : List ChangeRec) : State :=
  match fuel, l with
  | fuel + 1, r :: _ =>
    (s.queueRec { ty := 4, index := 0, flags := 4 * b2n (!s.clock.valid), start := r.time, end_ := s.rtc,
                  body := (l.take 15).flatMap changeBytes }).recordChanges fuel (l.drop 15)
  | _, _ => s

/-- The changes of a plan, or of an action at once, are recorded in the History, and fire PLAN_CHANGED. -/
def State.endChanges (s : State) : State :=
  if s.age.batch = [] then s
  else
    let l := s.age.batch
    ({ s with age.batch := [] }.recordChanges l.length l).fire pPKG 0

/-! ### Results of measurement 1 (R414 to R416) -/

/-- An accepted result of a figure, newest first, the 30 newest kept. -/
def State.acceptResult (s : State) (fig x : Nat) : State :=
  { s with age.results := KM.put s.age.results fig ((x :: KM.getD [] s.age.results fig).take 30) }

/-- Two results agree within 2 %. -/
def agree (x v : Nat) : Bool := decide ((x - v + (v - x)) * 100 ≤ 2 * v)

/-- A result improves a published figure by more than 5 %; up says that a higher figure is better. -/
def improves (up : Bool) (x pub : Nat) : Bool := if up then decide (pub * 105 < x * 100) else decide (x * 100 < pub * 95)

/-- A result of a figure judged (R415): outside its range it is rejected; a held result it agrees with is accepted; improving by more than 5 % it is held; else accepted. -/
def State.judgeFigure (s : State) (fig x pub : Nat) (up : Bool) (lo hi : Nat) : State :=
  let held := KM.get s.age.held fig
  let s := { s with age.held := KM.del s.age.held fig }
  if x < lo ∨ hi < x then s.fire pPKG 4
  else
    let s := match held with
      | some v => if agree x v then s.acceptResult fig v else s
      | none => s
    if improves up x pub then { s with age.held := KM.put s.age.held fig x } else s.acceptResult fig x

/-- The flush-rate samples of the regions, from the time each took for 1 GiB, in µs. -/
def State.judgeRates (s : State) (r : Nat) : List Nat → State
  | [] => s
  | t :: l => (if r < s.regions ∧ t ≠ 0 then s.judgeFigure (4 + r) (2 ^ 30 / t) (s.num pLG (0x0B0 + 4 * r)) true 0 (2 ^ 32) else s).judgeRates (r + 1) l

/-- The least and the greatest of the newest results of a figure. -/
def State.newest (s : State) (fig n : Nat) : List Nat := (KM.getD [] s.age.results fig).take n

/-- The least of a list that is not empty. -/
def leastIn : List Nat → Nat
  | [] => 0
  | [x] => x
  | x :: l => min x (leastIn l)

/-- The greatest of a list. -/
def mostIn (l : List Nat) : Nat := l.foldl max 0

/-- A figure of the bank published, where there is a result. -/
def State.publishFigure (s : State) (item idx : Nat) (l : List Nat) (least : Bool) : State :=
  if l = [] then s else s.setItem item idx (((if least then leastIn l else mostIn l) : Nat)) 1

/-- The flush rates of the regions published. -/
def State.publishRates (s : State) : List Nat → State
  | [] => s
  | r :: l => (s.publishFigure 6 r (s.newest (4 + r) 7) true).publishRates l

/-- The margin factor m of R416 in ‰, rounded down: 700 less 3.2 for each year of service and the spread of the last 30 accepted C results over their mean. -/
def State.marginNow (s : State) : Nat :=
  let l := s.newest 0 30
  let sum := l.foldl (· + ·) 0
  let den := 365250 * (if sum = 0 then 1 else sum)
  let age := 3200 * s.num pPKG 0x108 * (if sum = 0 then 1 else sum)
  let spread := (mostIn l - leastIn l) * l.length * 1000 * 365250
  (700 * den - age - spread) / den

/-- The items that measurement 1 feeds (R415, R416). -/
def State.planBank (s : State) : State :=
  let s := (s.publishFigure 3 0 (s.newest 0 3) true).publishFigure 4 0 (s.newest 1 3) false
  let s := s.publishFigure 5 0 (s.newest 2 3) true
  let real := match s.age.realFlush with
    | some (e, t) => if s.rtcSeconds < t + 30 * 86400 then [e] else []
    | none => []
  let s := s.publishFigure 2 0 (s.newest 3 7 ++ real) false
  let s := s.publishRates (List.range s.regions)
  let old := s.num pLG 0x05C
  let v := max 500 (min old s.marginNow)
  let s := s.setItem 1 0 (v : Nat) 1
  if v = 500 ∧ 500 < old then s.fire pPKG 2 else s

/-! ### NAND (R417, R418) -/

/-- A count taken since a noted one; a counter cleared meanwhile counts from 0. -/
def since (now then_ : Nat) : Nat := if then_ ≤ now then now - then_ else now

/-- A counter summed over the channels of a region. -/
def State.sumChannels (s : State) (r off : Nat) : Nat := (List.range 16).foldl (fun a c => a + s.num (pNC (16 * r + c)) off) 0

/-- The retry tables the probe chose, taken into force on the channels of a region. -/
def State.planTables (s : State) : List Nat → State
  | [] => s
  | c :: l =>
    (match KM.get s.age.tables c with
     | some t => s.setItem 11 c (t : Nat) 2
     | none => s).planTables l

/-- W_r in ‰: down to max(0.5, 0.9 × W_r) where a region showed too many EARLY_WARNs over the day or its programs have slowed, else up by 0.02 to 1.0. -/
def State.derate (s : State) (r : Nat) : Nat :=
  let w := s.num pPKG (0x120 + 4 * r)
  let warns := since (s.sumChannels r 0x058) (KM.getD 0 s.age.warns r)
  let reads := since (s.sumChannels r 0x04C) (KM.getD 0 s.age.reads r)
  if s.fld pPKG 0x110 31 16 * reads < warns * 1000000 ∨ r ∈ s.age.slow then max 500 (w * 9 / 10) else min 1000 (w + 20)

/-- The counts of a day noted for a region: EARLY_WARNs, reads, TLC programs, harvest programs. -/
def State.noteDay (s : State) (r : Nat) : State :=
  let p := s.sumChannels r 0x050
  let h := s.num (pRG r) 0x074
  let day := (since p (KM.getD 0 s.age.reads (4 + r)), since h (KM.getD 0 s.age.reads (8 + r)))
  let programs := KM.put s.age.programs r ((day :: KM.getD [] s.age.programs r).take 30)
  let warns := KM.put s.age.warns r (s.sumChannels r 0x058)
  let reads := KM.put (KM.put (KM.put s.age.reads r (s.sumChannels r 0x04C)) (4 + r) p) (8 + r) h
  { s with age.programs := programs, age.warns := warns, age.reads := reads }

/-- The days of every region noted. -/
def State.noteDays (s : State) : List Nat → State
  | [] => s
  | r :: l => (s.noteDay r).noteDays l

/-- A_r in ‰ (R417): 1,600 until 30 days of data exist. Without any harvest program in those days the spec states no quotient: a free value, 1.0 or more (log 37). -/
def State.amplify (s : State) (r : Nat) : Nat × State :=
  let l := KM.getD [] s.age.programs r
  let p := l.foldl (fun a x => a + x.1) 0
  let h := l.foldl (fun a x => a + x.2) 0
  if l.length < 30 then (1600, s)
  else if h = 0 then
    let (v, s) := s.fresh
    (1000 + v.toNat % 2 ^ 31, s)
  else (max 1000 (p * 1000 / h), s)

/-- T_r in bytes: general-area blocks less spare and retired ones. -/
def State.tlcBytes (s : State) (r : Nat) : Nat :=
  let gone := (List.range 16).foldl (fun a c => a + ((List.range 16).filter fun l => s.fld (pNC (16 * r + c)) 0x044 (2 * l + 1) (2 * l) = 2).length) 0
  let bad := (s.cellar.bad.filter fun p => decide (locRegion p = r ∧ 1040 ≤ locBlock p) &&
    decide (s.fld (pNC (16 * r + locChannel p)) 0x044 (2 * locLun p + 1) (2 * locLun p) ≠ 2)).length
  (s.generalBands * 16 - gone * (s.lunBlocks - 1040) - bad - Config.spareBlocks r) * 1536 * 16384

/-- The daily wear budget of R418, in whole GiB. -/
def State.wearBudget (s : State) (r : Nat) : Nat :=
  let pe := (List.range 16).foldl (fun a c => a + s.fld (pNC (16 * r + c)) 0x070 15 0) 0
  let rest := 3000 * (100 - s.fld pPKG 0x10C 7 0) * 16 - pe * 100
  let days := max 365 (9131 - s.num pPKG 0x108)
  s.num pPKG (0x120 + 4 * r) * s.tlcBytes r * rest * 15 / (1600 * s.num pPKG (0x130 + 4 * r) * 16 * days * 2 ^ 30)

/-- The items that measurement 2 feeds, for a region. -/
def State.planRegion (s : State) (r : Nat) : State :=
  let s := s.planTables (List.range' (16 * r) 16)
  let s := s.setItem 13 r (s.derate r : Nat) 2
  let (a, s) := s.amplify r
  let s := s.setItem 15 r (a : Nat) 2
  let v := s.wearBudget r
  let s := s.setItem 12 r (v : Nat) 2
  if v = 0 then s.fire pPKG 3 else s

/-- Those of a list of regions whose probe has completed. -/
def State.planRegions (s : State) : List Nat → State
  | [] => s
  | r :: l => (if (200 + r) ∈ s.age.fresh then s.planRegion r else s).planRegions l

/-! ### Attic (R418's closing text, R379) -/

/-- The block of the History ring with the most erases. -/
def State.mostErased (s : State) : List Nat → Option Nat
  | [] => none
  | b :: l =>
    match s.mostErased l with
    | some c => if KM.getD 0 s.attic.erases b < KM.getD 0 s.attic.erases c then some c else some b
    | none => some b

/-- The Attic ageing limits: an MLC block of the ring at 2,700 erases, or too many EARLY_WARNs over the day. ATTIC_AGEING fires, and the most-erased ring block is replaced (DESIGN
CHOICE, log 37: one block at each firing). -/
def State.planAttic (s : State) (daily : Bool) : State :=
  let warns := since (s.num pAC 0x04C) (KM.getD 0 s.age.warns 100)
  let reads := since (s.num pAC 0x048) (KM.getD 0 s.age.reads 100)
  let worn := s.hist.ring.any fun b => decide (2700 ≤ KM.getD 0 s.attic.erases b)
  let many := decide (s.fld pPKG 0x110 31 16 * reads < warns * 1000000)
  let s := if daily then { s with age.warns := KM.put s.age.warns 100 (s.num pAC 0x04C), age.reads := KM.put s.age.reads 100 (s.num pAC 0x048) } else s
  if worn || many then
    match s.mostErased s.hist.ring with
    | some b => (s.fire pPKG 9).retireAttic b
    | none => s.fire pPKG 9
  else s

/-! ### DRAM (R419) -/

/-- M by the sense margin, in ‰. -/
def multiplier (margin : Nat) : Nat := if 8 ≤ margin then 1000 else if 6 ≤ margin then 1250 else if 4 ≤ margin then 1500 else if 2 ≤ margin then 1750 else 2000

/-- The items that measurement 4 feeds, for a channel. A channel whose region had no spare page is judged by its correctable errors alone. -/
def State.planChannel (s : State) (c : Nat) : State :=
  let p := pDC c
  let probed := decide (c ∈ s.age.probed)
  let margin := s.fld p 0x140 4 0
  let errors := ((s.channelInfo c).errors.filter fun t => decide (s.now < t + 3600 * second)).length
  let want := if probed then multiplier margin else 1000
  let want := if s.num (pRG (c / 6)) 0x144 < 2 * errors then min 2000 (want + 250) else want
  let old := s.fld p 0x140 31 16
  let v := if old ≤ want then want else max want (old - 250)
  let s := s.setItem 7 c (v : Nat) 4
  let raised := probed && decide (margin + 3 ≤ s.fld p 0x140 12 8)
  let s := if probed then s.setItem 8 c (b2n raised : Nat) 4 else s
  let s := if raised then s.makeDue c else s
  if probed ∧ v = 2000 ∧ margin ≤ 1 then s.fire pPKG 8 else s

/-- Those of a list of channels whose probe has ended. -/
def State.planChannels (s : State) : List Nat → State
  | [] => s
  | c :: l => (if (400 + c) ∈ s.age.fresh then s.planChannel c else s).planChannels l

/-! ### Path delay and offsets (R421) -/

/-- Frequency in force of an island. -/
def State.freqNow (s : State) (k : Nat) : Nat := s.fld pHD (islandReg k + 4) 15 0

/-- The offset of an island at a frequency, in mV: between 50 % of nominal and nominal interpolated and rounded up to 5 mV. -/
def State.offsetAt (s : State) (k f : Nat) : Int :=
  let n : Int := (islandNominal k : Nat)
  let low := s.planValue 10 k
  let x := low * n + (s.planValue 9 k - low) * (2 * (f : Int) - n)
  5 * -((-x) / (5 * n))

/-- The items whose offsets make the offset at a frequency: that of nominal, that of 50 %, or both. -/
def offsetItems (k f : Nat) : List Nat := if f = islandNominal k then [9] else if 2 * f = islandNominal k then [10] else [9, 10]

/-- Offsets of an island moved by an amount, within −30 to +60 mV. -/
def State.moveOffsets (s : State) (k : Nat) (d : Int) : List Nat → State
  | [] => s
  | i :: l => (s.setItem i k (max (-30) (min 60 (s.planValue i k + d))) 6).moveOffsets k d l

/-- The slack of an island is short: the offset at the frequency in force rises by 5 mV; at +60 mV the island's frequency is lowered by 25 MHz, down to 50 % of nominal, and capped there. -/
def State.shortSlack (s : State) (k : Nat) : State :=
  let f := s.freqNow k
  if s.offsetAt k f < 60 then s.moveOffsets k 5 (offsetItems k f)
  else
    let req := s.fld pHD (islandReg k) 15 0 - 25
    let s := (s.setFld pPKG (0x140 + 4 * k) 31 31 1).fire pPKG 5
    if islandNominal k ≤ 2 * req then ({ s with age.caps := KM.put s.age.caps k req }).beginFreq k req
    else { s with age.caps := KM.put s.age.caps k (s.fld pHD (islandReg k) 15 0) }

/-- The offset of an island falls by 5 mV at the plan where its slack stayed above twice SLACK_MIN all day. -/
def State.planIslands (s : State) : List Nat → State
  | [] => s
  | k :: l =>
    (match KM.get s.age.slack k with
     | some x => if ((2 * s.fld pPKG 0x110 15 0 : Nat) : Int) < x then s.moveOffsets k (-5) (offsetItems k (s.freqNow k)) else s
     | none => s).planIslands l

/-! ### The plan (R410, R411, R422) -/

/-- DONE shows a measurement completed. -/
def State.setDone (s : State) (m v : Nat) : State := s.setFld pPKG 0x114 (m - 1) (m - 1) v

/-- DONE cleared for measurements. -/
def State.clearDone (s : State) : List Nat → State
  | [] => s
  | m :: l => (s.setDone m 0).clearDone l

/-- The measurement a code belongs to. -/
def codeMeasure (c : Nat) : Nat := if c < 200 then 1 else if c < 400 then 2 else 4

/-- A plan from the results of some measurements: every result accepted since the last plan of each, PLAN_SEQ and PLAN_TIME, the changes recorded. -/
def State.plan (s : State) (ms : List Nat) (daily : Bool) : State :=
  let s := s.showDays
  let s := s.setNum pPKG 0x100 (s.num pPKG 0x100 + 1)
  let s := s.setNum pPKG 0x104 s.rtcSeconds
  let s := if daily then s.noteDays (List.range s.regions) else s
  let s := if 1 ∈ ms ∧ 1 ∈ s.age.fresh then s.planBank else s
  let s := if 2 ∈ ms then s.planRegions (List.range s.regions) else s
  let s := if 3 ∈ ms then s.planAttic daily else s
  let s := if 4 ∈ ms then s.planChannels (List.range (6 * s.regions)) else s
  let s := if 6 ∈ ms then s.planIslands (List.range 17) else s
  let s := if 6 ∈ ms then { s with age.slack := [] } else s
  let s := { s with age.fresh := s.age.fresh.filter fun c => decide (codeMeasure c ∉ ms), age.probed := if 4 ∈ ms then [] else s.age.probed }
  (s.clearDone ms).endChanges

/-! ### The window (R409, R412, R413) -/

/-- A region can be probed: it is neither in BYPASS, reset nor STARTING, nor out of service. -/
def State.probeable (s : State) (r : Nat) : Bool := s.pg (pRG r) = .service || s.pg (pRG r) = .draining || s.pg (pRG r) = .drill

/-- The conditions of measurement 1 hold (R412). -/
def State.bankFit (s : State) : Bool :=
  let most := mostIn ((List.range s.regions).map fun r => dirtyPages (s.dirty r) * 16384)
  let v := s.fld pGRN 0x040 15 0 * 10 - s.fld pPKG 0x10C 15 8 * 1000
  s.power.images = [] && decide (s.fld pLG 0x094 2 0 < 2) && bit (s.reg pGRN 0x05C) 0 &&
    ((List.range s.regions).all fun r => decide (2048 ≤ s.num pLG (0x0A0 + 4 * r))) && decide (115 * (s.regions * most) ≤ 100 * s.bEnergy v)

/-- Measurement 1 starts: the charger stops and the hold-up converter carries VINT. -/
def State.startBank (s : State) (op : Nat) : State :=
  let s := ((s.setCharging false).setFld pGRN 0x05C 2 2 1).bump pGRN 0x060
  { s with age.bank := some { start := min (s.num pGRN 0x044) (s.num pGRN 0x048), since := s.now, op }, age.running := 1 :: s.age.running }

/-- The codes of the measurements of a day: measurement 1, the probes of the regions, the probes of the channels. -/
def State.dayCodes (s : State) : List Nat := 1 :: (List.range s.regions).map (200 + ·) ++ (List.range (6 * s.regions)).map (400 + ·)

/-- AGEING_RUNs whose measurement has nothing left to wait for re-plan its items and complete (R424). -/
def State.finishRuns (s : State) : List (Nat × Nat × List Nat) → State
  | [] => s
  | (op, m, wait) :: l =>
    (if wait = [] then
       let s := ({ s with age.runs := s.age.runs.filter fun x => x.1 ≠ op }).plan [m] false
       s.complete op { status := stSUCCESS, r0 := s.num pPKG 0x100 }
     else s).finishRuns l

/-- A measurement, or a probe of one, completes; DONE shows its measurement once no probe of it is left. -/
def State.completeCode (s : State) (c : Nat) : State :=
  let s := { s with age.due := s.age.due.filter (· ≠ c), age.running := s.age.running.filter (· ≠ c), age.fresh := c :: s.age.fresh.filter (· ≠ c),
                    age.runs := s.age.runs.map fun (x : Nat × Nat × List Nat) => (x.1, x.2.1, x.2.2.filter (· ≠ c)) }
  let m := codeMeasure c
  let s := if (s.age.due ++ s.age.running).any fun x => codeMeasure x == m then s else s.setDone m 1
  s.finishRuns s.age.runs

/-- A measurement or probe tried: none starts while PHASE is 1 to 6 (R410). A channel of a region without a free spare page is skipped (R419). -/
def State.tryCode (s : State) (c : Nat) : State :=
  if s.lossOrRestore ∨ c ∈ s.age.running then s
  else if c = 1 then (if s.bankFit then s.startBank 0 else s)
  else if c < 400 then (if s.probeable (c - 200) then { s with age.running := s.age.running ++ [c] } else s)
  else if s.probeable ((c - 400) / 6) = false then s
  else if s.fld (pRG ((c - 400) / 6)) 0x184 8 0 = 0 then s.completeCode c
  else { s with age.running := s.age.running ++ [c] }

/-- Measurements tried, in order. -/
def State.tryCodes (s : State) : List Nat → State
  | [] => s
  | c :: l => (s.tryCode c).tryCodes l

/-- The daily window opens. -/
def execAgeingWindowOpen (s : State) : Res :=
  .next (if s.age.window then s
    else
      let s := { s.showDays with age.window := true, age.due := s.dayCodes }
      s.tryCodes s.age.due)

/-- Measurements still due are tried again. -/
def execAgeingRetryTimer (s : State) : Res := .next (s.tryCodes s.age.due)

/-- The window closes: what is not completed is abandoned, each measurement counted, and the device re-plans. AGEING_RUNs that wait for an abandoned measurement end with BUSY_RETRY. -/
def execAgeingWindowClose (s : State) : Res :=
  .next (if s.age.window = false then s
    else
      let late := ([1, 2, 4] : List Nat).filter fun m => s.age.due.any fun c => codeMeasure c == m
      let ops := s.age.runs.map (·.1) ++ (match s.age.bank with | some b => [b.op] | none => [])
      let s := { s.endBank with age.window := false, age.due := [], age.running := [], age.runs := [] }
      let s := if late = [] then s else (s.bump pPKG 0x118 late.length).fireLimited pPKG 1 (86400 * second)
      let s := s.endRuns stBUSY_RETRY 1800000000 ops
      s.plan [1, 2, 3, 4, 5, 6] true)

/-! ### Measurement 1 ends -/

/-- The bank discharge reaches BANK_DV (R414): the drop of VBANK at the switchover in mV and the bank current step in mA, the charge delivered in mC, VINT output energy and bank energy in mJ,
the VINT energy of the rehearsal in mJ, and the time each region took for its 1 GiB, in µs. The figures are judged (R415), and AGEING_RUN re-plans and completes. -/
def execBankMeasDone (drop step charge vint energy rehearsal : Nat) (times : List Nat) (s : State) : Res :=
  .next (match s.age.bank with
    | none => s
    | some b =>
      let s := s.judgeFigure 0 (charge / s.fld pPKG 0x10C 15 8) (s.num pGRN 0x054) true 10000 60000
      let s := s.judgeFigure 1 (drop * 1000000 / step) (s.num pGRN 0x058) false 1000 200000
      let s := s.judgeFigure 2 (vint * 1000 / energy) (s.num pLG 0x064) true 700 990
      let s := s.judgeFigure 3 (rehearsal / s.regions) (s.num pLG 0x060) false 2000 20000
      let s := (s.judgeRates 0 times).endBank.completeCode 1
      if b.op = 0 then s
      else
        let s := s.plan [1] false
        s.complete b.op { status := stSUCCESS, r0 := s.num pPKG 0x100 })

/-- Measurement 1 is abandoned: a region's fill reaches 0.90, the detector trips, or 60 s have passed. -/
def execBankMeasAbort (s : State) : Res :=
  .next (match s.age.bank with
    | none => s
    | some b => if b.op = 0 then s.endBank else s.endBank.complete b.op { status := stBUSY_RETRY, r0 := 1800000000 })

/-! ### Probes -/

/-- The table with the lowest count; a tie keeps the table in force. -/
def chooseTable (old : Nat) (l : List Nat) : Nat :=
  let low := leastIn l
  match (List.range l.length).filter fun i => decide (l.getD i 0 = low) with
  | [i] => i % 4
  | _ => old

/-- The choices of the channels of a region. -/
def State.chooseTables (s : State) (c : Nat) : List (List Nat) → State
  | [] => s
  | l :: rest =>
    let t := chooseTable (s.fld (pNC c) 0x048 1 0) (l.take 4)
    ({ s with age.tables := KM.put s.age.tables c t }).chooseTables (c + 1) rest

/-- The retry probe of a region completes: for each channel the corrected bits at step 1 under each of the four tables, and whether the mean TLC program time of the region stands above 1.3 times
its value at first start. -/
def execRetryProbeDone (region : Nat) (counts : List (List Nat)) (slow : Bool) (s : State) : Res :=
  .next (if 4 ≤ region ∨ (200 + region) ∉ s.age.running then s
    else
      let s := s.chooseTables (16 * region) (counts.take 16)
      let s := { s with age.slow := if slow then insertSorted region s.age.slow else s.age.slow.filter (· ≠ region) }
      s.completeCode (200 + region))

/-- The sense-margin probe of a channel completes, with its error-free steps. -/
def execSenseProbeDone (channel margin : Nat) (s : State) : Res :=
  .next (if 24 ≤ channel ∨ (400 + channel) ∉ s.age.running then s
    else
      let s := s.setFld (pDC channel) 0x140 4 0 (min 16 margin)
      ({ s with age.probed := insertSorted channel s.age.probed }).completeCode (400 + channel))

/-! ### Path-delay monitors -/

/-- Every 1 s: the worst slack of an island, in ps. -/
def execSlackMonitor (island : Nat) (slack : Int) (s : State) : Res :=
  .next (if 17 ≤ island ∨ s.lossOrRestore then s
    else
      let least := match KM.get s.age.slack island with | some x => min x slack | none => slack
      let s := ({ s with age.slack := KM.put s.age.slack island least }).setDone 6 1
      if slack < (s.fld pPKG 0x110 15 0 : Nat) then (s.shortSlack island).endChanges else s)

/-! ### Lane eyes (R420) -/

/-- The key of a lane. -/
def laneKey (l : Lane) : Nat := 16 * l.page + l.lane

/-- A lane is a lane of a port of this part. -/
def State.realLane (s : State) (l : Lane) : Bool :=
  decide (0x40 ≤ l.page ∧ l.page ≤ 0x4C ∧ l.lane < (if l.page = 0x4C then 16 else 4)) && !s.absent l.page

/-- An eye measured: the smallest height and width of the past 24 h shown. -/
def State.noteEye (s : State) (l : Lane) (h w : Nat) : State :=
  let eyes := (s.rtcSeconds, h, w) :: (KM.getD [] s.age.eyes (laneKey l)).filter fun e => decide (s.rtcSeconds < e.1 + 86400)
  let s := { s with age.eyes := KM.put s.age.eyes (laneKey l) eyes }
  let v := leastIn (eyes.map fun e => min e.2.1 0xFFFF) * 65536 + leastIn (eyes.map fun e => min e.2.2 0xFFFF)
  let s := s.setNum l.page (laneBase l.page + 4 * l.lane) v
  if l.page = 0x4C then s.setNum 0x404C (laneBase l.page + 4 * l.lane) v else s

/-- An eye, height in 0.1 mV and width in mUI, lies below thresholds of EYE_CFG. -/
def State.eyeBelow (s : State) (h w hHi wHi : Nat) : Bool :=
  decide (h < 10 * s.fld pPKG 0x184 (hHi + 7) hHi) || decide (w < 5 * s.fld pPKG 0x184 (wHi + 7) wHi)

/-- A fabric port whose lane pairs are both broken goes down for good; a twin port's PORT_EN is cleared (R140, R225). -/
def State.retirePort (s : State) (page : Nat) : State :=
  if page < 0x48 then
    let p := page - 0x40
    if s.planeDead p then
      let was := s.inService p
      let s := ((s.setPlaneBits p false false).discardQueue p).settleAll
      if was then s.fire pFPC 5 else s
    else s
  else
    let p := page - 0x48
    if s.portDead p then s.writePorts (s.fld pTWC 0x040 3 0 - (if bit (s.reg pTWC 0x040) p then 2 ^ p else 0)) [p] else s

/-- A port returns after a relink, at 400 Gb/s while one of its lanes is retired. -/
def State.returnPort (s : State) (page : Nat) : State :=
  if page < 0x48 then
    let p := page - 0x40
    let s := if (s.plane p).draining = some 0 then s.setPlane p { s.plane p with draining := none } else s
    let s := s.setFld pFPC 0x188 (16 + p) (16 + p) (b2n (s.lanesShort p))
    if (s.plane p).out ∨ s.planeDead p ∨ s.portRuns p = false then s else s.linkPlane p
  else
    let p := page - 0x48
    let s := s.setFld page 0x040 1 1 (b2n (decide (s.fld page 0x110 7 4 ≠ 0)))
    if bit (s.reg page 0x040) 2 ∨ bit (s.reg pTWC 0x040) p = false then s else s.linkTwin p

/-- A lane is retired: recorded with its port, which stays at 400 Gb/s, or is retired with it. -/
def State.retireLane (s : State) (l : Lane) : State :=
  let s := (s.setItem 14 (laneIndex l) 2 5).fire pPKG 7
  let s := if l.page < 0x48 then s.setFld pFPC 0x188 (16 + (l.page - 0x40)) (16 + (l.page - 0x40)) 1 else s.setFld l.page 0x040 1 1 1
  s.retirePort l.page

/-- The retrain of a lane starts: the port drains as PLANE_CONTROL with PARAM1 = 1 does, or leaves service as under R225. -/
def State.startRetrain (s : State) (l : Lane) : State :=
  let s := { s with age.retraining := s.age.retraining ++ [l] }
  let s := ((s.setItem 14 (laneIndex l) 1 5).bump l.page (laneBase l.page + 0x14)).fire pPKG 6
  if l.page < 0x48 then
    let p := l.page - 0x40
    if s.inService p then
      ((s.setPlane p { s.plane p with draining := some 0 }).setFld pFPC 0x188 p p 0).fire pFPC 5
    else s
  else if bit (s.reg l.page 0x040) 0 then (((s.setFld l.page 0x040 0 0 0).setPg l.page .off 9).fire pTWC 8).portStops (l.page - 0x48)
  else s

/-- Fabric ports and twin ports each retrain one at a time. -/
def sameKind (a b : Lane) : Bool := decide (a.page < 0x48) == decide (b.page < 0x48)

/-- A lane asks for a retrain: at once, or behind the others of its kind. -/
def State.askRetrain (s : State) (l : Lane) : State :=
  if l ∈ s.age.retraining ∨ l ∈ s.age.queue then s
  else if s.age.retraining.any fun x => sameKind x l then { s with age.queue := s.age.queue ++ [l] }
  else s.startRetrain l

/-- The next lane of a kind that waits starts. -/
def State.nextRetrain (s : State) (l : Lane) : State :=
  match s.age.queue.find? fun x => sameKind x l with
  | some x => ({ s with age.queue := s.age.queue.filter (· ≠ x) }).startRetrain x
  | none => s

/-- Every 10 s: the eye of a lane, height in 0.1 mV, width in mUI. PCIe eyes are published only. A lane that needs a second retrain within 24 h is retired. -/
def execEyeMeasure (page lane height width : Nat) (s : State) : Res :=
  .next (
    let l : Lane := { page, lane }
    if s.realLane l = false ∨ s.lossOrRestore then s
    else
      let s := (s.noteEye l height width).setDone 5 1
      if page = 0x4C ∨ bit (s.reg page (laneBase page + 0x10)) (4 + lane) ∨ l ∈ s.age.retraining ∨ l ∈ s.age.queue ∨ s.eyeBelow height width 24 8 = false then s
      else
        match KM.get s.age.retrained (laneKey l) with
        | some t => if s.rtcSeconds < t + 86400 then (s.retireLane l).endChanges else (s.askRetrain l).endChanges
        | none => (s.askRetrain l).endChanges)

/-- A retrain ends, with the eye of the lane after it: the lane returns or is retired, its port returns, and the next one that waits starts. -/
def execLaneRetrainDone (page lane height width : Nat) (s : State) : Res :=
  .next (
    let l : Lane := { page, lane }
    if l ∉ s.age.retraining then s
    else
      let s := { s with age.retraining := s.age.retraining.filter (· ≠ l), age.retrained := KM.put s.age.retrained (laneKey l) s.rtcSeconds }
      let s := s.noteEye l height width
      let s := if s.eyeBelow height width 16 0 then s.retireLane l else s.setItem 14 (laneIndex l) 0 5
      ((s.returnPort page).nextRetrain l).endChanges)

/-! ### Commands (R423, R424) -/

/-- The items of the plan with their instances, in the order of the table: those of the units this part has. -/
def State.planItems (s : State) : List (Nat × Nat) :=
  let n := s.regions
  let all := fun (item k : Nat) => (List.range k).map fun i => (item, i)
  [(1, 0), (2, 0), (3, 0), (4, 0), (5, 0)] ++ all 6 n ++ all 7 (6 * n) ++ all 8 (6 * n) ++ all 9 17 ++ all 10 17 ++ all 11 (16 * n) ++ all 12 n ++ all 13 n ++
    (all 14 (4 * s.planes) ++ (List.range 16).map fun i => (14, 32 + i)) ++ all 15 n

/-- The entry of an item instance (R423). -/
def State.itemBytes (s : State) (x : Nat × Nat) : List Byte :=
  leBytes 1 x.1 ++ leBytes 1 x.2 ++ leBytes 2 0 ++ intBytes (s.planValue x.1 x.2) ++ leBytes 4 (KM.getD 0 s.age.items (256 * x.1 + x.2)) ++ leBytes 4 0

/-- MARGIN_PLAN_READ. -/
def execMarginPlanRead (c : AdminCmd) (s : State) : Res :=
  .next (s.adminRun 0x64 c fun _ s =>
    let recs := (s.age.log.take c.p0).reverse
    let bs := leBytes 4 (s.num pPKG 0x100) ++ leBytes 4 (s.num pPKG 0x108) ++ leBytes 8 (s.num pPKG 0x104) ++ s.planItems.flatMap s.itemBytes ++
      recs.flatMap changeBytes
    if 4096 < c.p0 ∨ properLen c < bs.length then (s, bad stINVALID_FIELD) else (s.toBuffer c bs, good (s.num pPKG 0x100) recs.length))

/-- The codes that a measurement on demand waits for. -/
def State.runCodes (s : State) (m : Nat) : List Nat := s.dayCodes.filter fun c => codeMeasure c == m

/-- AGEING_RUN. Measurements 3, 5 and 6 read what has been measured so far and complete at once (DESIGN CHOICE, log 37); the remaining time of one that runs is a free value. -/
def execAgeingRun (c : AdminCmd) (s : State) : Res :=
  .next (s.adminRun 0x65 c fun op s =>
    let m := c.p0
    let codes := s.runCodes m
    if m = 0 ∨ 6 < m then (s, bad stINVALID_FIELD)
    else if s.lossOrRestore then (s, bad stSTATE_CONFLICT)
    else if m = 3 ∨ m = 5 ∨ m = 6 then
      let s := s.plan [m] false
      (s, good (s.num pPKG 0x100))
    else if codes.any fun x => decide (x ∈ s.age.running) then
      let (v, s) := s.fresh
      (s, bad stBUSY_RETRY (v.toNat % 2 ^ 32))
    else if m = 1 then (if s.bankFit then (s.startBank op, none) else (s, bad stBUSY_RETRY 1800000000))
    else if ((List.range s.regions).all s.probeable) = false then (s, bad stBUSY_RETRY 1800000000)
    else
      let due := codes.foldl (fun l x => insertSorted x l) s.age.due
      let s := { s with age.due := due, age.runs := s.age.runs ++ [(op, m, codes)] }
      (s.tryCodes codes, none))

end Sys2Proof.Machine
end

