-- ==== Sys2Proof/Machine/Access.lean ====
section
/-!
DEFINITION. Register writes as they arrive over PCIe or from the Steward (R7, R9, R33, R41, R42): each goes to the behaviour of its register, and otherwise into its writable fields.
-/

namespace Sys2Proof.Machine

/-- The state a meaning answers. -/
def Res.state (s : State) : Res → State
  | .next t => t
  | _ => s

/-- The function of a requester. -/
def reqFn : Requester → Option Fn
  | .pf0 => some .pf0
  | .pf1 => some .pf1
  | .steward => none

/-- A write of PG_CTRL: ENABLE, DRILL and DRAIN take their bits; RESET_REQ, BYPASS_REQ and BYPASS_END act where they are 1 (R37). DRILL counts for the drain of the same write. -/
def State.writeCtrl (s : State) (req : Requester) (page : Nat) (data : Word) : State :=
  let s := Res.state s (execPgCtrlEnable req page (bit data 0) s)
  let s := Res.state s (execPgCtrlDrill req page (bit data 2) s)
  let s := Res.state s (execPgCtrlDrain req page (bit data 1) s)
  let region := page - 0x10
  let ofRegion := decide (0x10 ≤ page ∧ page < 0x14)
  let s := if ofRegion && bit data 4 then Res.state s (execBypassReq req region s) else s
  let s := if ofRegion && bit data 5 then Res.state s (execBypassEnd req region s) else s
  if bit data 3 then Res.state s (execResetReq req page s) else s

/-- A write of the common header beside PG_LOCK; its other registers are read only. -/
def State.writeHeader (s : State) (req : Requester) (page off : Nat) (data : Word) : State :=
  if off = 0x008 then s.writeCtrl req page data
  else if off = 0x010 then Res.state s (execEvStatusWrite req page data 0 s)
  else if off = 0x014 then s.setReg page 0x014 data
  else if off = 0x018 then Res.state s (execEvInjectWrite req page data s)
  else if off = 0x01C then Res.state s (execEvFirstWrite req page data s)
  else if off = 0x020 ∨ off = 0x024 then s.setReg page off data
  else s

/-- A write of the registers and doorbells of the PX page, by the accessing function. -/
def State.writePx (s : State) (fn : Fn) (off : Nat) (data : Word) : State :=
  if off = 0x050 then Res.state s (if bit data 31 then execAqEnableSet fn data s else execAqEnableClear fn data s)
  else if off = 0x058 ∨ off = 0x05C then Res.state s (execApertureBaseWrite fn (decide (off = 0x05C)) data s)
  else if 0x100 ≤ off ∧ off < 0x200 then
    if off % 8 = 0 then Res.state s (execSqTailDoorbell fn ((off - 0x100) / 8) data s) else Res.state s (execCqHeadDoorbell fn ((off - 0x100) / 8) data s)
  else s.writeFields (pPX fn) off data

/-- A write of a counter register (chapter 19). -/
def State.writeCounter (s : State) (req : Requester) (page off : Nat) (data : Word) : State :=
  let n := (off - 0xC00) / 16
  if off % 16 = 4 then Res.state s (execCounterOverflowClear req page n data s)
  else if off % 16 = 8 then Res.state s (execCounterSelectWrite req page n data s)
  else if off % 16 = 12 then Res.state s (execCounterClearWrite req page n data s)
  else s

/-- A write of a block register of the Fault Collector page; CLASS_CFG shows the class that CLASS_SEL names. -/
def State.writeFc (s : State) (req : Requester) (off : Nat) (data : Word) : State :=
  if off = 0x040 then (s.writeFields pFC off data).showClass
  else if off = 0x044 then Res.state s (execClassCfgWrite req data s)
  else if off = 0x048 then Res.state s (execClassAckWrite req data s)
  else if off = 0x064 then Res.state s (execFaultNClrWrite req data s)
  else if off = 0x080 then Res.state s (execFcInjectWrite req data s)
  else s.writeFields pFC off data

/-- A write of CHECK_CTRL: ABORT, START, or its fields. An abort here has no bytes scanned since the last row that reported some. -/
def State.writeScan (s : State) (req : Requester) (data : Word) : State :=
  if bit data 30 then Res.state s (execScanAbort req data [] s)
  else if bit data 31 then Res.state s (execScanStart req data s)
  else s.writeFields pCHK 0x040 data

/-- A write of the Attic controller's control register: UNLOCK_BOOT belongs to the Steward (R385). -/
def State.writeAttic (s : State) (req : Requester) (data : Word) : State :=
  let lock := if req = .steward then data else setBits data 31 31 (b2n (bit (s.reg pAC 0x040) 31))
  s.writeFields pAC 0x040 lock

/-- A write of a block register with a behaviour of its own, or of its writable fields. -/
def State.writeBlock (s : State) (req : Requester) (page off : Nat) (data : Word) : State :=
  let ty := (pageType page).getD 0xFF
  if (ackHeader ty off).isSome then Res.state s (execResultAckWrite req page off data s)
  else if 0xC00 ≤ off ∧ off < 0xD00 then s.writeCounter req page off data
  else if page = pFC then s.writeFc req off data
  else
    match ty, off with
    | 0x23, 0x120 => Res.state s (execRateProbeWrite req data s)
    | 0x23, 0x190 => Res.state s (execTenantDirtyProbe req data s)
    | 0x11, 0x060 => Res.state s (execWitnessVerdictWrite req data s)
    | 0x11, 0x040 => Res.state s (execPortEnWrite req data s)
    | 0x41, 0x040 => Res.state s (execLunRetireWrite req (page - 0x240) data s)
    | 0x08, 0x140 => Res.state s (execRetrainReqWrite req (page - 0x10) data s)
    | 0x25, 0x040 => s.writeScan req data
    | 0x24, 0x068 => Res.state s (execSlotProbeWrite req data s)
    | 0x12, 0x060 => Res.state s (execWdogWrite req s)
    | 0x34, 0x040 => s.writeAttic req data
    | 0x2A, 0x048 => Res.state s (execTallyRingHeadWrite req data s)
    | 0x2A, 0x064 => Res.state s (execTallyProbeWrite req data s)
    | 0x32, 0x04C => Res.state s (execRtcSetGo req data s)
    | 0x01, _ => if 0x100 ≤ off ∧ off < 0x190 ∧ off % 8 = 0 then Res.state s (execFreqReqWrite req ((off - 0x100) / 8) (bits data 15 0) s) else s.writeFields page off data
    | _, _ => s.writeFields page off data

/-- A write of an aligned register of BAR0. -/
def State.writeRegister (s : State) (req : Requester) (page off : Nat) (data : Word) : State :=
  if (pageType page).isNone ∨ 0x4000 ≤ page ∨ s.absent page then s
  else if off = 0x02C then Res.state s (execPgLockWrite req page (bit data 0) s)
  else if off ∈ [0x000, 0x004, 0x00C, 0x028, 0x030, 0x034, 0x038, 0x03C] then s
  else if s.lockedOut req page then s.lockDrop
  else if off < 0x040 then s.writeHeader req page off data
  else
    match page, reqFn req with
    | 0x4C, some fn => if off < 0xC00 then s.writePx fn off data else s.writeBlock req page off data
    | 0x4C, none => if off < 0xC00 then s else s.writeBlock req page off data
    | _, _ => s.writeBlock req page off data

/-- A write of a dword of the MSI-X table; unmasking a vector with its pending bit set sends its message. The pending-bit array is read only (R33, R52). -/
def State.writeMsix (s : State) (fn : Fn) (addr : Nat) (data : Word) : State :=
  if addr % 4 ≠ 0 ∨ 0x8000 ≤ addr then s
  else
    let vec := addr / 16
    let s := s.setMsixWord fn (addr / 4) data
    if addr % 16 = 12 ∧ bit data 0 = false ∧ vec ∈ s.msixPend fn then (s.setMsixPend fn ((s.msixPend fn).filter (· ≠ vec))).emit (.msix fn vec)
    else s

/-- REGISTER_WRITE: a 32-bit write at an offset of a base address register, 0, 2 or 4. -/
def execRegisterWrite (req : Requester) (bar addr : Nat) (data : Word) (s : State) : Res :=
  .next (
    if bar = 0 then (if addr % 4 ≠ 0 then s else s.writeRegister req (addr / 4096) (addr % 4096) data)
    else
      match reqFn req with
      | none => s
      | some fn =>
        if bar = 2 then Res.state s (execBar2Write fn addr (leBytes 4 data.toNat) s)
        else if bar = 4 then s.writeMsix fn addr data
        else s)

end Sys2Proof.Machine
end

