-- ==== Sys2Proof/Machine/Dispatch.lean ====
section
/-!
DEFINITION. One arm for every command: the call of its meaning.
-/

namespace Sys2Proof.Machine

open Host (Outcome)

/-- The effect of a command on everything but the queue of waiting commands. -/
def exec (i : Instr) (s : State) : Host.Outcome State Fault Refusal :=
  match i with
  | .dieLinkFlit die crcOk => Sys2Proof.Machine.execDieLinkFlit die crcOk s
  | .islandResetEnter k waiting => Sys2Proof.Machine.execIslandResetEnter k waiting s
  | .islandFreqChangeDone k held => Sys2Proof.Machine.execIslandFreqChangeDone k held s
  | .freqReqWrite req k mhz => Sys2Proof.Machine.execFreqReqWrite req k mhz s
  | .pgCtrlEnable req page on => Sys2Proof.Machine.execPgCtrlEnable req page on s
  | .enableConditionsMet page => Sys2Proof.Machine.execEnableConditionsMet page s
  | .pgCtrlDrain req page on => Sys2Proof.Machine.execPgCtrlDrain req page on s
  | .pgCtrlDrill req page on => Sys2Proof.Machine.execPgCtrlDrill req page on s
  | .resetReq req page => Sys2Proof.Machine.execResetReq req page s
  | .bypassReq req region => Sys2Proof.Machine.execBypassReq req region s
  | .bypassEnd req region => Sys2Proof.Machine.execBypassEnd req region s
  | .bypassLimitExpire region => Sys2Proof.Machine.execBypassLimitExpire region s
  | .bypassOpDone region ok => Sys2Proof.Machine.execBypassOpDone region ok s
  | .startUpDone page passed => Sys2Proof.Machine.execStartUpDone page passed s
  | .drainDone page => Sys2Proof.Machine.execDrainDone page s
  | .drainTimeout page => Sys2Proof.Machine.execDrainTimeout page s
  | .pageBistDone page passed => Sys2Proof.Machine.execPageBistDone page passed s
  | .functionLevelReset fn => Sys2Proof.Machine.execFunctionLevelReset fn s
  | .perstN link => Sys2Proof.Machine.execPerstN link s
  | .trstN => Sys2Proof.Machine.execTrstN s
  | .bar0NarrowAccess fn offset width write => Sys2Proof.Machine.execBar0NarrowAccess fn offset width write s
  | .registerWrite req bar addr data => Sys2Proof.Machine.execRegisterWrite req bar addr data s
  | .eventFire page sources => Sys2Proof.Machine.execEventFire page sources s
  | .evStatusWrite req page data firing => Sys2Proof.Machine.execEvStatusWrite req page data firing s
  | .evFirstWrite req page data => Sys2Proof.Machine.execEvFirstWrite req page data s
  | .evInjectWrite req page data => Sys2Proof.Machine.execEvInjectWrite req page data s
  | .pgLockWrite req page hold => Sys2Proof.Machine.execPgLockWrite req page hold s
  | .resultAckWrite req page off data => Sys2Proof.Machine.execResultAckWrite req page off data s
  | .aqEnableSet fn data => Sys2Proof.Machine.execAqEnableSet fn data s
  | .aqEnableClear fn data => Sys2Proof.Machine.execAqEnableClear fn data s
  | .sqTailDoorbell fn q data => Sys2Proof.Machine.execSqTailDoorbell fn q data s
  | .cqHeadDoorbell fn q data => Sys2Proof.Machine.execCqHeadDoorbell fn q data s
  | .sqeFetch fn q op c => Sys2Proof.Machine.execSqeFetch fn q op c s
  | .cqePost fn q => Sys2Proof.Machine.execCqePost fn q s
  | .cqStall fn q => Sys2Proof.Machine.execCqStall fn q s
  | .apertureBaseWrite fn high data => Sys2Proof.Machine.execApertureBaseWrite fn high data s
  | .bar2Read fn addr len => Sys2Proof.Machine.execBar2Read fn addr len s
  | .bar2Write fn addr data => Sys2Proof.Machine.execBar2Write fn addr data s
  | .nop c => Sys2Proof.Machine.execNop c s
  | .invalidOpcode op c => Sys2Proof.Machine.execInvalidOpcode op c s
  | .createQp c => Sys2Proof.Machine.execCreateQp c s
  | .deleteQp c => Sys2Proof.Machine.execDeleteQp c s
  | .abort c => Sys2Proof.Machine.execAbort c s
  | .getChallenge c => Sys2Proof.Machine.execGetChallenge c s
  | .identify c => Sys2Proof.Machine.execIdentify c s
  | .setVector c => Sys2Proof.Machine.execSetVector c s
  | .runBist c => Sys2Proof.Machine.execRunBist c s
  | .clearCounts c => Sys2Proof.Machine.execClearCounts c s
  | .lockBreak c => Sys2Proof.Machine.execLockBreak c s
  | .drillAuth c => Sys2Proof.Machine.execDrillAuth c s
  | .journalRead c => Sys2Proof.Machine.execJournalRead c s
  | .resetLevel c => Sys2Proof.Machine.execResetLevel c s
  | .resetPowerCycle c => Sys2Proof.Machine.execResetPowerCycle c s
  | .resetPowerDown c => Sys2Proof.Machine.execResetPowerDown c s
  | .tenantCreate c => Sys2Proof.Machine.execTenantCreate c s
  | .tenantErase c => Sys2Proof.Machine.execTenantErase c s
  | .windowCreate c => Sys2Proof.Machine.execWindowCreate c s
  | .objectCreate c => Sys2Proof.Machine.execObjectCreate c s
  | .objectAlias c => Sys2Proof.Machine.execObjectAlias c s
  | .windowRevoke c => Sys2Proof.Machine.execWindowRevoke c s
  | .windowRevokeObject c => Sys2Proof.Machine.execWindowRevokeObject c s
  | .revokeFenceDrained idx => Sys2Proof.Machine.execRevokeFenceDrained idx s
  | .revokeLate idx => Sys2Proof.Machine.execRevokeLate idx s
  | .windowModify c => Sys2Proof.Machine.execWindowModify c s
  | .hintPreload c => Sys2Proof.Machine.execHintPreload c s
  | .hintLock c => Sys2Proof.Machine.execHintLock c s
  | .hintUnlock c => Sys2Proof.Machine.execHintUnlock c s
  | .hintPinUp c => Sys2Proof.Machine.execHintPinUp c s
  | .hintPinClear c => Sys2Proof.Machine.execHintPinClear c s
  | .hintReadahead c => Sys2Proof.Machine.execHintReadahead c s
  | .cacheInvalidate c => Sys2Proof.Machine.execCacheInvalidate c s
  | .windowCacheFillDone idx => Sys2Proof.Machine.execWindowCacheFillDone idx s
  | .translationFillDone object page => Sys2Proof.Machine.execTranslationFillDone object page s
  | .migratePromote c => Sys2Proof.Machine.execMigratePromote c s
  | .migrateDemote c => Sys2Proof.Machine.execMigrateDemote c s
  | .migrateCopyRoundDone op => Sys2Proof.Machine.execMigrateCopyRoundDone op s
  | .migrateSwitchConfirmed op => Sys2Proof.Machine.execMigrateSwitchConfirmed op s
  | .migrateStallLimit op => Sys2Proof.Machine.execMigrateStallLimit op s
  | .moverZeroFillDone page => Sys2Proof.Machine.execMoverZeroFillDone page s
  | .qpCreate c => Sys2Proof.Machine.execQpCreate c s
  | .qpModifyReady c => Sys2Proof.Machine.execQpModifyReady c s
  | .qpModifyError c => Sys2Proof.Machine.execQpModifyError c s
  | .qpModifyReset c => Sys2Proof.Machine.execQpModifyReset c s
  | .qpModifyPaths c => Sys2Proof.Machine.execQpModifyPaths c s
  | .qpModifyKeysel c => Sys2Proof.Machine.execQpModifyKeysel c s
  | .qpModifySync c => Sys2Proof.Machine.execQpModifySync c s
  | .qpModifyAcks c => Sys2Proof.Machine.execQpModifyAcks c s
  | .qpDestroy c => Sys2Proof.Machine.execQpDestroy c s
  | .peerSet c => Sys2Proof.Machine.execPeerSet c s
  | .planeControlOut c => Sys2Proof.Machine.execPlaneControlOut c s
  | .planeDrainExpire plane => Sys2Proof.Machine.execPlaneDrainExpire plane s
  | .planeControlIn c => Sys2Proof.Machine.execPlaneControlIn c s
  | .tenantShare c => Sys2Proof.Machine.execTenantShare c s
  | .policySet c => Sys2Proof.Machine.execPolicySet c s
  | .powerCapSet c => Sys2Proof.Machine.execPowerCapSet c s
  | .roleSwap c => Sys2Proof.Machine.execRoleSwap c s
  | .roleSwapDrained => Sys2Proof.Machine.execRoleSwapDrained s
  | .resyncStart c => Sys2Proof.Machine.execResyncStart c s
  | .resyncComplete => Sys2Proof.Machine.execResyncComplete s
  | .auditStart c => Sys2Proof.Machine.execAuditStart c s
  | .keyImportWrapped c => Sys2Proof.Machine.execKeyImportWrapped c s
  | .keyImportEcdh c => Sys2Proof.Machine.execKeyImportEcdh c s
  | .keyRewrite c => Sys2Proof.Machine.execKeyRewrite c s
  | .keyRewriteNewStorage c => Sys2Proof.Machine.execKeyRewriteNewStorage c s
  | .rewriteSwitch slot => Sys2Proof.Machine.execRewriteSwitch slot s
  | .keyZeroise c => Sys2Proof.Machine.execKeyZeroise c s
  | .streamOpen c => Sys2Proof.Machine.execStreamOpen c s
  | .streamSegDone op ciphertext xferOk => Sys2Proof.Machine.execStreamSegDone op ciphertext xferOk s
  | .fwStage c => Sys2Proof.Machine.execFwStage c s
  | .fwActivateNextReset c => Sys2Proof.Machine.execFwActivateNextReset c s
  | .fwActivateLive c => Sys2Proof.Machine.execFwActivateLive c s
  | .liveActivationStepDone step ok data => Sys2Proof.Machine.execLiveActivationStepDone step ok data s
  | .probationEnd => Sys2Proof.Machine.execProbationEnd s
  | .coreSwap c => Sys2Proof.Machine.execCoreSwap c s
  | .configRead c => Sys2Proof.Machine.execConfigRead c s
  | .configWrite c => Sys2Proof.Machine.execConfigWrite c s
  | .tallyRingSet c => Sys2Proof.Machine.execTallyRingSet c s
  | .historyRead c part => Sys2Proof.Machine.execHistoryRead c part s
  | .historyClear c => Sys2Proof.Machine.execHistoryClear c s
  | .samplerConfigRequest c => Sys2Proof.Machine.execSamplerConfigRequest c s
  | .samplerConfigInstruction c => Sys2Proof.Machine.execSamplerConfigInstruction c s
  | .marginPlanRead c => Sys2Proof.Machine.execMarginPlanRead c s
  | .ageingRun c => Sys2Proof.Machine.execAgeingRun c s
  | .pxtWriteRx f => Sys2Proof.Machine.execPxtWriteRx f s
  | .pxtReadRx f => Sys2Proof.Machine.execPxtReadRx f s
  | .markEchoRx f => Sys2Proof.Machine.execMarkEchoRx f s
  | .probeRx f delay => Sys2Proof.Machine.execProbeRx f delay s
  | .probeReplyRx f => Sys2Proof.Machine.execProbeReplyRx f s
  | .exceptionFrameRx kind f => Sys2Proof.Machine.execExceptionFrameRx kind f s
  | .nonPxtFrameRx f => Sys2Proof.Machine.execNonPxtFrameRx f s
  | .qpcFetchDone qpn => Sys2Proof.Machine.execQpcFetchDone qpn s
  | .missqWaitExpire plane => Sys2Proof.Machine.execMissqWaitExpire plane s
  | .qpcWritebackDone qpn => Sys2Proof.Machine.execQpcWritebackDone qpn s
  | .packetPlacement qpn psn => Sys2Proof.Machine.execPacketPlacement qpn psn s
  | .ackDelayExpire qpn => Sys2Proof.Machine.execAckDelayExpire qpn s
  | .trackerTimeout qpn msn => Sys2Proof.Machine.execTrackerTimeout qpn msn s
  | .readDataReady qpn msn resend => Sys2Proof.Machine.execReadDataReady qpn msn resend s
  | .readRespDepart plane => Sys2Proof.Machine.execReadRespDepart plane s
  | .probeIdleExpire peer plane => Sys2Proof.Machine.execProbeIdleExpire peer plane s
  | .probeTimeoutExpire peer plane => Sys2Proof.Machine.execProbeTimeoutExpire peer plane s
  | .fabricLinkDown plane => Sys2Proof.Machine.execFabricLinkDown plane s
  | .fabricLinkUp plane => Sys2Proof.Machine.execFabricLinkUp plane s
  | .rateBatch done => Sys2Proof.Machine.execRateBatch done s
  | .rateProbeWrite req data => Sys2Proof.Machine.execRateProbeWrite req data s
  | .harvestPlan region done => Sys2Proof.Machine.execHarvestPlan region done s
  | .harvestProgramDone page ok => Sys2Proof.Machine.execHarvestProgramDone page ok s
  | .gatherFillDone page ok => Sys2Proof.Machine.execGatherFillDone page ok s
  | .wearBucketSave => Sys2Proof.Machine.execWearBucketSave s
  | .tenantDirtyProbe req data => Sys2Proof.Machine.execTenantDirtyProbe req data s
  | .ledgerPeriod done mon adc vbus ibus pIn => Sys2Proof.Machine.execLedgerPeriod done mon adc vbus ibus pIn s
  | .vbankOv mon adc => Sys2Proof.Machine.execVbankOv mon adc s
  | .chargerRestart => Sys2Proof.Machine.execChargerRestart s
  | .senseMismatch => Sys2Proof.Machine.execSenseMismatch s
  | .couplerFault => Sys2Proof.Machine.execCouplerFault s
  | .vbusOv => Sys2Proof.Machine.execVbusOv s
  | .chargerFault => Sys2Proof.Machine.execChargerFault s
  | .powerLoss => Sys2Proof.Machine.execPowerLoss s
  | .rideRecovered => Sys2Proof.Machine.execRideRecovered s
  | .rideExpire => Sys2Proof.Machine.execRideExpire s
  | .flushDataEnd => Sys2Proof.Machine.execFlushDataEnd s
  | .flushStop region pages cause => Sys2Proof.Machine.execFlushStop region pages cause s
  | .managedPowerDown => Sys2Proof.Machine.execManagedPowerDown s
  | .vbusReturnCountDone => Sys2Proof.Machine.execVbusReturnCountDone s
  | .vbusReturnWaitExpire => Sys2Proof.Machine.execVbusReturnWaitExpire s
  | .restoreStepDone n bad => Sys2Proof.Machine.execRestoreStepDone n bad s
  | .twinWaitExpire => Sys2Proof.Machine.execTwinWaitExpire s
  | .regionRestoreReady region => Sys2Proof.Machine.execRegionRestoreReady region s
  | .imageRelease => Sys2Proof.Machine.execImageRelease s
  | .zoneEraseDone region mib => Sys2Proof.Machine.execZoneEraseDone region mib s
  | .loftPageLoadDone page ok => Sys2Proof.Machine.execLoftPageLoadDone page ok s
  | .mirrorDataRx f => Sys2Proof.Machine.execMirrorDataRx f s
  | .mirrorMetaRx f => Sys2Proof.Machine.execMirrorMetaRx f s
  | .mackRx f => Sys2Proof.Machine.execMackRx f s
  | .leaseRx f => Sys2Proof.Machine.execLeaseRx f s
  | .leaseGrantRx f => Sys2Proof.Machine.execLeaseGrantRx f s
  | .noticeRx f => Sys2Proof.Machine.execNoticeRx f s
  | .readReqRx f => Sys2Proof.Machine.execReadReqRx f s
  | .readDataRx f => Sys2Proof.Machine.execReadDataRx f s
  | .logRx f => Sys2Proof.Machine.execLogRx f s
  | .auditReqRx f => Sys2Proof.Machine.execAuditReqRx f s
  | .auditDigestRx f => Sys2Proof.Machine.execAuditDigestRx f s
  | .helloRx f => Sys2Proof.Machine.execHelloRx f s
  | .twinFrameDrop port tagFailed => Sys2Proof.Machine.execTwinFrameDrop port tagFailed s
  | .mackSendTimer port => Sys2Proof.Machine.execMackSendTimer port s
  | .twinRtoExpire mseq => Sys2Proof.Machine.execTwinRtoExpire mseq s
  | .mirrorUnappliedLimit mseq => Sys2Proof.Machine.execMirrorUnappliedLimit mseq s
  | .leaseSendTimer => Sys2Proof.Machine.execLeaseSendTimer s
  | .leaseExpire => Sys2Proof.Machine.execLeaseExpire s
  | .grantMissingExpire => Sys2Proof.Machine.execGrantMissingExpire s
  | .helloTimeout => Sys2Proof.Machine.execHelloTimeout s
  | .witnessVerdictWrite req data => Sys2Proof.Machine.execWitnessVerdictWrite req data s
  | .soloEnter => Sys2Proof.Machine.execSoloEnter s
  | .twinPortLinkDown port => Sys2Proof.Machine.execTwinPortLinkDown port s
  | .twinPortLinkUp port => Sys2Proof.Machine.execTwinPortLinkUp port s
  | .portEnWrite req data => Sys2Proof.Machine.execPortEnWrite req data s
  | .readReqTimeout id => Sys2Proof.Machine.execReadReqTimeout id s
  | .nandReadDone loc ok bits => Sys2Proof.Machine.execNandReadDone loc ok bits s
  | .sheafWaitExpire region key => Sys2Proof.Machine.execSheafWaitExpire region key s
  | .relocationCopyDone loc => Sys2Proof.Machine.execRelocationCopyDone loc s
  | .dailyWearRelocation region => Sys2Proof.Machine.execDailyWearRelocation region s
  | .programFail channel lun block => Sys2Proof.Machine.execProgramFail channel lun block s
  | .eraseFail channel lun block => Sys2Proof.Machine.execEraseFail channel lun block s
  | .lunRetireWrite req channel data => Sys2Proof.Machine.execLunRetireWrite req channel data s
  | .lunFault channel lun => Sys2Proof.Machine.execLunFault channel lun s
  | .lunRetired channel lun => Sys2Proof.Machine.execLunRetired channel lun s
  | .stagingReadDone page ok => Sys2Proof.Machine.execStagingReadDone page ok s
  | .refreshInterval channel rank demand => Sys2Proof.Machine.execRefreshInterval channel rank demand s
  | .rowActivation channel sub rank group bank row tenant => Sys2Proof.Machine.execRowActivation channel sub rank group bank row tenant s
  | .throttleEnd region tenant => Sys2Proof.Machine.execThrottleEnd region tenant s
  | .bankIdleTimer channel sub rank group bank => Sys2Proof.Machine.execBankIdleTimer channel sub rank group bank s
  | .rankPdIdle channel rank => Sys2Proof.Machine.execRankPdIdle channel rank s
  | .dimmTempPoll channel ok temp => Sys2Proof.Machine.execDimmTempPoll channel ok temp s
  | .spdFault channel => Sys2Proof.Machine.execSpdFault channel s
  | .retrainReqWrite req region data => Sys2Proof.Machine.execRetrainReqWrite req region data s
  | .retrainBypassStart region => Sys2Proof.Machine.execRetrainBypassStart region s
  | .trainStepDone region => Sys2Proof.Machine.execTrainStepDone region s
  | .trainVerifyDone region working committed eyes => Sys2Proof.Machine.execTrainVerifyDone region working committed eyes s
  | .retrainDeferred region => Sys2Proof.Machine.execRetrainDeferred region s
  | .speedChangeStart region => Sys2Proof.Machine.execSpeedChangeStart region s
  | .speedChangeDone region passed => Sys2Proof.Machine.execSpeedChangeDone region passed s
  | .hardRepairStepDone region => Sys2Proof.Machine.execHardRepairStepDone region s
  | .softRepairDone channel sub rank group bank row => Sys2Proof.Machine.execSoftRepairDone channel sub rank group bank row s
  | .loftLineDecode dpa errors reader => Sys2Proof.Machine.execLoftLineDecode dpa errors reader s
  | .lineRecoveryDone dpa ok => Sys2Proof.Machine.execLineRecoveryDone dpa ok s
  | .pageRetireDone page => Sys2Proof.Machine.execPageRetireDone page s
  | .parityError page path => Sys2Proof.Machine.execParityError page path s
  | .scanStart req data => Sys2Proof.Machine.execScanStart req data s
  | .scanAbort req data bytes => Sys2Proof.Machine.execScanAbort req data bytes s
  | .scanDone bytes ok => Sys2Proof.Machine.execScanDone bytes ok s
  | .gleanSlice region lines pages warns fails cut => Sys2Proof.Machine.execGleanSlice region lines pages warns fails cut s
  | .gleanPassEnd region cellar => Sys2Proof.Machine.execGleanPassEnd region cellar s
  | .larderRequest op prio slot client tag aadLen len salt counter dataRef => Sys2Proof.Machine.execLarderRequest op prio slot client tag aadLen len salt counter dataRef s
  | .sealUnitDone engine matched tagOk => Sys2Proof.Machine.execSealUnitDone engine matched tagOk s
  | .hwmRecordProgrammed slot => Sys2Proof.Machine.execHwmRecordProgrammed slot s
  | .drbgReseed => Sys2Proof.Machine.execDrbgReseed s
  | .healthTestFail => Sys2Proof.Machine.execHealthTestFail s
  | .drbgReinstantiate => Sys2Proof.Machine.execDrbgReinstantiate s
  | .classDSensor => Sys2Proof.Machine.execClassDSensor s
  | .keyRecordBlockErase => Sys2Proof.Machine.execKeyRecordBlockErase s
  | .slotProbeWrite req data => Sys2Proof.Machine.execSlotProbeWrite req data s
  | .checkpoint early => Sys2Proof.Machine.execCheckpoint early s
  | .miscompare => Sys2Proof.Machine.execMiscompare s
  | .coreBistDone leadOk shadowOk => Sys2Proof.Machine.execCoreBistDone leadOk shadowOk s
  | .spareLoaded ok => Sys2Proof.Machine.execSpareLoaded ok s
  | .replayEnd matched => Sys2Proof.Machine.execReplayEnd matched s
  | .fenceOutput slot epoch kind addr data inputs => Sys2Proof.Machine.execFenceOutput slot epoch kind addr data inputs s
  | .wdogWrite req => Sys2Proof.Machine.execWdogWrite req s
  | .stewardWatchdog => Sys2Proof.Machine.execStewardWatchdog s
  | .bootRomStart ok0 ok1 => Sys2Proof.Machine.execBootRomStart ok0 ok1 s
  | .mainImageStart okA okB recoveryOk bist version => Sys2Proof.Machine.execMainImageStart okA okB recoveryOk bist version s
  | .atticCmdWrite offset data => Sys2Proof.Machine.execAtticCmdWrite offset data s
  | .atticSeqTimeout => Sys2Proof.Machine.execAtticSeqTimeout s
  | .atticOpDone ok => Sys2Proof.Machine.execAtticOpDone ok s
  | .atticRead offset len corrected => Sys2Proof.Machine.execAtticRead offset len corrected s
  | .atticResetDeferEnd => Sys2Proof.Machine.execAtticResetDeferEnd s
  | .xipFetch offset taken => Sys2Proof.Machine.execXipFetch offset taken s
  | .coldStart casc waiting => Sys2Proof.Machine.execColdStart casc waiting s
  | .startConditionsMet => Sys2Proof.Machine.execStartConditionsMet s
  | .seqSyncRise bifur ftm => Sys2Proof.Machine.execSeqSyncRise bifur ftm s
  | .seqStepTimeout => Sys2Proof.Machine.execSeqStepTimeout s
  | .seqDownRequest => Sys2Proof.Machine.execSeqDownRequest s
  | .pgInputLow rail => Sys2Proof.Machine.execPgInputLow rail s
  | .pgStable rail => Sys2Proof.Machine.execPgStable rail s
  | .seqInRise => Sys2Proof.Machine.execSeqInRise s
  | .seqInFall => Sys2Proof.Machine.execSeqInFall s
  | .railLost rail => Sys2Proof.Machine.execRailLost rail s
  | .dischargeTimeout rail => Sys2Proof.Machine.execDischargeTimeout rail s
  | .seqStall => Sys2Proof.Machine.execSeqStall s
  | .faultHoldExpire => Sys2Proof.Machine.execFaultHoldExpire s
  | .faultRetry => Sys2Proof.Machine.execFaultRetry s
  | .cascDelayExpire => Sys2Proof.Machine.execCascDelayExpire s
  | .cascDownWaitExpire => Sys2Proof.Machine.execCascDownWaitExpire s
  | .refclkLoss ref => Sys2Proof.Machine.execRefclkLoss ref s
  | .refclkReturn ref => Sys2Proof.Machine.execRefclkReturn ref s
  | .islandUnlock k => Sys2Proof.Machine.execIslandUnlock k s
  | .chipReset => Sys2Proof.Machine.execChipReset s
  | .ageingWindowOpen => Sys2Proof.Machine.execAgeingWindowOpen s
  | .ageingRetryTimer => Sys2Proof.Machine.execAgeingRetryTimer s
  | .bankMeasDone drop step charge vint energy rehearsal times => Sys2Proof.Machine.execBankMeasDone drop step charge vint energy rehearsal times s
  | .bankMeasAbort => Sys2Proof.Machine.execBankMeasAbort s
  | .retryProbeDone region counts slow => Sys2Proof.Machine.execRetryProbeDone region counts slow s
  | .senseProbeDone channel margin => Sys2Proof.Machine.execSenseProbeDone channel margin s
  | .ageingWindowClose => Sys2Proof.Machine.execAgeingWindowClose s
  | .slackMonitor island slack => Sys2Proof.Machine.execSlackMonitor island slack s
  | .eyeMeasure page lane height width => Sys2Proof.Machine.execEyeMeasure page lane height width s
  | .laneRetrainDone page lane height width => Sys2Proof.Machine.execLaneRetrainDone page lane height width s
  | .fcFiringArrival => Sys2Proof.Machine.execFcFiringArrival s
  | .graceExpire ty src => Sys2Proof.Machine.execGraceExpire ty src s
  | .classAckWrite req data => Sys2Proof.Machine.execClassAckWrite req data s
  | .classCfgWrite req data => Sys2Proof.Machine.execClassCfgWrite req data s
  | .faultNClrWrite req data => Sys2Proof.Machine.execFaultNClrWrite req data s
  | .fcInjectWrite req data => Sys2Proof.Machine.execFcInjectWrite req data s
  | .rtcSetGo req data => Sys2Proof.Machine.execRtcSetGo req data s
  | .rtcSlewDone => Sys2Proof.Machine.execRtcSlewDone s
  | .rtcNowLoRead => Sys2Proof.Machine.execRtcNowLoRead s
  | .summaryBoundary seconds => Sys2Proof.Machine.execSummaryBoundary seconds s
  | .historyPageProgram => Sys2Proof.Machine.execHistoryPageProgram s
  | .historyStateCopy junction slack => Sys2Proof.Machine.execHistoryStateCopy junction slack s
  | .historyHeadScanDone => Sys2Proof.Machine.execHistoryHeadScanDone s
  | .historyEraseDeferLimit => Sys2Proof.Machine.execHistoryEraseDeferLimit s
  | .minuteBoundary seconds => Sys2Proof.Machine.execMinuteBoundary seconds s
  | .tallyCloseStart => Sys2Proof.Machine.execTallyCloseStart s
  | .tallyStagingCopy => Sys2Proof.Machine.execTallyStagingCopy s
  | .tallyRingDelivery fn => Sys2Proof.Machine.execTallyRingDelivery fn s
  | .tallyRingHeadWrite req data => Sys2Proof.Machine.execTallyRingHeadWrite req data s
  | .tallyProbeWrite req data => Sys2Proof.Machine.execTallyProbeWrite req data s
  | .counterSelectWrite req page n data => Sys2Proof.Machine.execCounterSelectWrite req page n data s
  | .counterClearWrite req page n data => Sys2Proof.Machine.execCounterClearWrite req page n data s
  | .counterOverflowClear req page n data => Sys2Proof.Machine.execCounterOverflowClear req page n data s
  | .counterValueLoRead page n => Sys2Proof.Machine.execCounterValueLoRead page n s
  | .sampleRecordClose sampler info => Sys2Proof.Machine.execSampleRecordClose sampler info s
  | .samplerPopRead sampler => Sys2Proof.Machine.execSamplerPopRead sampler s
  | .detectorRecovery => Sys2Proof.Machine.execDetectorRecovery s
  | .vbusDip => Sys2Proof.Machine.execVbusDip s
  | .railDischarged rail => Sys2Proof.Machine.execRailDischarged rail s
  | .islandClocksLocked => Sys2Proof.Machine.execIslandClocksLocked s
  | .laneFault port => Sys2Proof.Machine.execLaneFault port s
  | .rtcOscFail => Sys2Proof.Machine.execRtcOscFail s
  | .retrainPeriodExpire channel => Sys2Proof.Machine.execRetrainPeriodExpire channel s
  | .gleanPositionSave region => Sys2Proof.Machine.execGleanPositionSave region s
  | .atticRecordRewrite page => Sys2Proof.Machine.execAtticRecordRewrite page s
  | .nandEraseDone band => Sys2Proof.Machine.execNandEraseDone band s
  | .cqCoalesceExpire fn q => Sys2Proof.Machine.execCqCoalesceExpire fn q s

end Sys2Proof.Machine
end

