-- ==== Sys2Proof/Safety.lean ====
section
/-!
DEFINITION. What statements are stated in: the canonical form of the register file and of the Loft, a byte and a line of the Loft as they read, register writes that land, and the
start of a command that passes its checks.
-/

namespace Sys2Proof.Machine

/-- The register file is canonical: its keys rise strictly, and no entry holds the reset value of its register, so that equal register files are equal lists. -/
def regsCanonical (m : KMap Word) : Bool := KM.wf m && KM.noDefault resetAt m

/-- The Loft's bytes are canonical: addresses rise strictly, and no byte equal to what an unlisted address reads as (0) is listed. -/
def bytesCanonical (m : KMap Byte) : Bool := KM.wf m && KM.noDefault (fun _ => 0) m

/-- The Loft's poison marks are canonical: line numbers rise strictly, and only poisoned lines are listed. -/
def poisonCanonical (m : KMap Bool) : Bool := KM.wf m && KM.noDefault (fun _ => false) m

/-- A register file, Loft bytes and poison marks are canonical. -/
def Canonical (regs : KMap Word) (bytes : KMap Byte) (poison : KMap Bool) : Prop :=
  regsCanonical regs = true ∧ bytesCanonical bytes = true ∧ poisonCanonical poison = true

/-- The state's register file and Loft are canonical. -/
def Canon (s : State) : Prop := Canonical s.regs s.loft.bytes s.loft.poison

/-- The Loft reads the same in both states: every byte, and the poison of every line. -/
def SameLoft (s t : State) : Prop := ∀ a, t.loftByte a = s.loftByte a ∧ t.poisoned (a / 64) = s.poisoned (a / 64)

/-- A register write of a requester to a page lands: the page exists in this part, and no other requester holds its lock (R3, R35, R42). -/
def State.writable (s : State) (req : Requester) (page : Nat) : Bool :=
  (pageType page).isSome && !s.absent page && !s.lockedOut req page

/-- An event of a page is raised: the page exists in this part (R3, R38). -/
def State.raises (s : State) (page : Nat) : Bool := (pageType page).isSome && !s.absent page

/-- The command c of opcode op begins: it waits fetched, the pair runs, every command before it allows it to start (R47), and it passes the checks that every command meets.
Answers its operation identifier, and the state in which its own effect takes place. -/
def State.starting (s : State) (op : Nat) (c : AdminCmd) : Option (Nat × State) :=
  match findCmd op c [] s.host.cmds with
  | none => none
  | some (o, before) =>
    if s.pairRuns && (o.started || mayStart c before) then
      let (opId, s) := if o.started then (o.opId, s) else s.enter op c
      let s := { s with host.cmds := replaceFirst (fun x => sameCmd op c x && !x.running)
                                       (fun x => { x with started := true, running := true, opId }) s.host.cmds }
      match s.checks op c with
      | (some _, _) => none
      | (none, s) => some (opId, s)
    else none

/-- The command begins. -/
def State.admits (s : State) (op : Nat) (c : AdminCmd) : Bool := (s.starting op c).isSome

/-- The operation identifier of a command that begins. -/
def State.opOf (s : State) (op : Nat) (c : AdminCmd) : Nat := ((s.starting op c).map (·.1)).getD 0

/-- The state in which the effect of a command that begins takes place. -/
def State.begun (s : State) (op : Nat) (c : AdminCmd) : State := ((s.starting op c).map (·.2)).getD s

/-- The command completes with SUCCESS and its results, its effect having left the state t. -/
def State.success (s : State) (op : Nat) (c : AdminCmd) (t : State) (r0 : Nat := 0) (r1 : Nat := 0) : Res :=
  .next (t.complete (s.opOf op c) { status := stSUCCESS, r0, r1 })

/-- The command goes on or ends as its effect says: its completion, where there is one, and the state its effect left. -/
def State.ends (s : State) (op : Nat) (c : AdminCmd) : State × Option Answer → Res
  | (t, some a) => .next (t.complete (s.opOf op c) a)
  | (t, none) => .next t

/-- An administration command of the table: its opcode and its submission queue entry. A row that is one of several of its opcode stands for the entries that name it. -/
def adminOf : Instr → Option (Nat × AdminCmd)
  | .nop c => some (0x00, c)
  | .createQp c => some (0x01, c)
  | .deleteQp c => some (0x02, c)
  | .abort c => some (0x03, c)
  | .getChallenge c => some (0x04, c)
  | .identify c => some (0x05, c)
  | .setVector c => some (0x06, c)
  | .runBist c => some (0x07, c)
  | .clearCounts c => some (0x08, c)
  | .lockBreak c => some (0x09, c)
  | .drillAuth c => some (0x0A, c)
  | .journalRead c => some (0x0B, c)
  | .resetLevel c => if c.p0 = 1 ∨ c.p0 = 2 then none else some (0x0C, c)
  | .resetPowerCycle c => if c.p0 ≠ 1 then none else some (0x0C, c)
  | .resetPowerDown c => if c.p0 ≠ 2 then none else some (0x0C, c)
  | .tenantCreate c => some (0x10, c)
  | .tenantErase c => some (0x11, c)
  | .windowCreate c => some (0x12, c)
  | .objectCreate c => some (0x15, c)
  | .objectAlias c => some (0x16, c)
  | .windowRevoke c | .windowRevokeObject c => some (0x13, c)
  | .windowModify c => some (0x14, c)
  | .hintPreload c | .hintLock c | .hintUnlock c | .hintPinUp c | .hintPinClear c | .hintReadahead c => some (0x17, c)
  | .cacheInvalidate c => some (0x19, c)
  | .migratePromote c | .migrateDemote c => some (0x18, c)
  | .qpCreate c => some (0x20, c)
  | .qpModifyReady c | .qpModifyError c | .qpModifyReset c | .qpModifyPaths c | .qpModifyKeysel c | .qpModifySync c | .qpModifyAcks c => some (0x21, c)
  | .qpDestroy c => some (0x22, c)
  | .peerSet c => some (0x23, c)
  | .planeControlOut c | .planeControlIn c => some (0x24, c)
  | .tenantShare c => some (0x25, c)
  | .policySet c => some (0x30, c)
  | .powerCapSet c => some (0x31, c)
  | .roleSwap c => some (0x32, c)
  | .resyncStart c => some (0x33, c)
  | .auditStart c => some (0x34, c)
  | .keyImportWrapped c => some (0x40, c)
  | .keyImportEcdh c => some (0x41, c)
  | .keyRewrite c | .keyRewriteNewStorage c => some (0x42, c)
  | .keyZeroise c => some (0x43, c)
  | .streamOpen c => some (0x44, c)
  | .fwStage c => some (0x50, c)
  | .fwActivateNextReset c => if c.p0 = 0 then none else some (0x51, c)
  | .fwActivateLive c => if c.p0 ≠ 0 then none else some (0x51, c)
  | .coreSwap c => some (0x52, c)
  | .configRead c => some (0x53, c)
  | .configWrite c => some (0x54, c)
  | .tallyRingSet c => some (0x60, c)
  | .historyClear c => some (0x62, c)
  | .samplerConfigRequest c => if c.target = 8 then none else some (0x63, c)
  | .samplerConfigInstruction c => if c.target ≠ 8 then none else some (0x63, c)
  | .marginPlanRead c => some (0x64, c)
  | .ageingRun c => some (0x65, c)
  | .invalidOpcode op c => if op ∈ knownOps then none else some (op, c)
  | _ => none

/-- The command c of opcode op begins and fails one of the checks that every command meets: its operation identifier, the status that ends it, and the state after the checks. -/
def State.turnedAway (s : State) (op : Nat) (c : AdminCmd) : Option (Nat × Nat × State) :=
  match findCmd op c [] s.host.cmds with
  | none => none
  | some (o, before) =>
    if s.pairRuns && (o.started || mayStart c before) then
      let (opId, s) := if o.started then (o.opId, s) else s.enter op c
      let s := { s with host.cmds := replaceFirst (fun x => sameCmd op c x && !x.running)
                                       (fun x => { x with started := true, running := true, opId }) s.host.cmds }
      match s.checks op c with
      | (some st, s) => some (opId, st, s)
      | (none, _) => none
    else none

/-- The rows that write one register of a page for a requester, below PG_LOCK and the event record: who writes, and which page (R42). -/
def writesPage : Instr → Option (Requester × Nat)
  | .pgCtrlEnable req page _ | .pgCtrlDrain req page _ | .pgCtrlDrill req page _ | .resetReq req page | .evFirstWrite req page _ | .evInjectWrite req page _
  | .resultAckWrite req page _ _ => some (req, page)
  | .counterSelectWrite req page n _ | .counterClearWrite req page n _ | .counterOverflowClear req page n _ => if n < 16 then some (req, page) else none
  | .bypassReq req region | .bypassEnd req region | .retrainReqWrite req region _ => if region < 4 then some (req, pRG region) else none
  | .freqReqWrite req k _ => if k < 17 then some (req, pHD) else none
  | .aqEnableSet fn _ | .aqEnableClear fn _ | .apertureBaseWrite fn _ _ => some (fnReq fn, 0x004C)
  | .sqTailDoorbell fn q _ | .cqHeadDoorbell fn q _ => if q < 32 then some (fnReq fn, 0x004C) else none
  | .lunRetireWrite req channel _ => if channel < 64 then some (req, pNC channel) else none
  | .classAckWrite req _ | .classCfgWrite req _ | .faultNClrWrite req _ | .fcInjectWrite req _ => some (req, pFC)
  | .tenantDirtyProbe req _ | .rateProbeWrite req _ => some (req, pTC)
  | .rtcSetGo req _ => some (req, pRTC)
  | .scanStart req _ | .scanAbort req _ _ => some (req, pCHK)
  | .slotProbeWrite req _ => some (req, pLD)
  | .wdogWrite req => some (req, pSTW)
  | .tallyRingHeadWrite req _ | .tallyProbeWrite req _ => some (req, pTLY)
  | .witnessVerdictWrite req _ | .portEnWrite req _ => some (req, pTWC)
  | _ => none

/-! ### Packets -/

/-- A frame carries a packet of an opcode that is served: the port runs, the frame, its ICRC, version and plane are good (R86, R105, R106), the context of its queue pair is at hand
(R115), and its source is the queue pair's peer. -/
def State.reaches (s : State) (f : Frame) (op : Nat) : Bool :=
  let b := f.payload
  let h := parsePxt b
  !s.fabricDark && decide (f.port < s.planes) && s.portRuns f.port && f.fcsOk && s.frameOk f && decide ((crc32c (b.take (b.length - 4))).toNat = h.icrc) &&
    decide (h.ver = 1) && decide (h.plane = f.port) && decide (h.opcode = op) &&
    (match s.qpcEntry h.dqpn with
     | some e => !e.issued && (s.hitQpc h.dqpn e).sourceOk f
     | none => false)

/-- The state in which such a packet has been counted. -/
def State.counted (s : State) (f : Frame) : State :=
  match s.qpcEntry (parsePxt f.payload).dqpn with
  | some e => (s.hitQpc (parsePxt f.payload).dqpn e).countPacket f
  | none => s

/-- A queue pair needs a reorder slot for a packet (R123). -/
def State.needsSlot (s : State) (h : Pxt) : Bool := decide (h.psn ≠ (s.qp h.dqpn).cumPsn) && !(s.qp h.dqpn).slot

/-- A WRITE or READ passes step 8: the state of the queue pair allows it, it is new, within the windows of PSN and MSN, and a reorder slot is free where it needs one (R111, R122, R123). -/
def State.timely (s : State) (h : Pxt) (resend : Bool) : Bool :=
  let q := s.qp h.dqpn
  (stateRefuses q h.msn resend).isNone && !(precedes h.psn q.cumPsn || decide (h.psn ∈ q.received)) && decide (dist32 q.cumPsn h.psn < 4096) &&
    (resend || decide (dist32 q.cmsn h.msn ≠ 0 ∧ dist32 q.cmsn h.msn ≤ 1024)) &&
    !(s.needsSlot h && decide (8192 ≤ s.num pTC 0x09C))

/-- The state in which such a WRITE or READ meets the access check. -/
def State.noted (s : State) (h : Pxt) : State := (s.noteArrival h.dqpn h.msn).takePsn h.dqpn h.psn (s.needsSlot h)

/-- The range a READ asks for: its message offset and length. -/
def readRange (h : Pxt) (b : List Byte) : Nat × Nat := (if h.resend then be b 40 4 else 0, if h.resend then be b 44 4 else be b 36 4)

/-- A READ is granted: its window grants the range, no fence, outage or tracker stands in its way (R67, R135, R137). -/
def State.grantsRead (s : State) (h : Pxt) (b : List Byte) : Bool :=
  let w := s.window (be b 24 4 / 256)
  let woff := be b 28 8 + (readRange h b).1
  let len := (readRange h b).2
  (s.accessFault (s.qp h.dqpn).tenant (be b 24 4) woff len false).isNone && !s.fenced &&
    (s.deadRegion (s.regionsOf (s.backing (s.object w.object) (pieces w.firstPage woff (len / 16384 + 2) len)))).isNone &&
    (h.resend || ((s.tracker h.dqpn h.msn).isNone && !s.noTracker h.dqpn))

/-- A WRITE is granted: its window is at home here and grants the range, no fence or role swap stands in its way, and a message that is open has the same window, offset and length (R67, R94, R167,
R239). -/
def State.grantsWrite (s : State) (h : Pxt) (b : List Byte) : Bool :=
  let q := s.qp h.dqpn
  let tr := s.tracker h.dqpn h.msn
  (s.accessFault q.tenant (be b 24 4) (be b 28 8 + be b 40 4) h.plen true).isNone && s.homeHere (be b 24 4 / 256) && !(q.sealReq && !h.isSealed) &&
    !(h.isSealed && decide (q.rxKey0 = 0 ∧ q.rxKey1 = 0)) && !s.fenced &&
    (match tr with
     | some x => !x.read && decide (x.handle = be b 24 4 ∧ x.offset = be b 28 8 ∧ x.msgLen = be b 36 4)
     | none => !s.swapping (be b 24 4 / 256))

/-- The pages a WRITE touches. -/
def State.writePages (s : State) (h : Pxt) (b : List Byte) : List Nat :=
  let w := s.window (be b 24 4 / 256)
  s.backing (s.object w.object) (pieces w.firstPage (be b 28 8 + be b 40 4) 3 h.plen)

/-! ### Where the Loft is written -/

/-- A command whose effect may write bytes of the Loft or poison marks of its lines. -/
def mayWriteLoft : Instr → Bool
  | .pgCtrlDrain .. | .pgCtrlDrill .. | .resetReq .. | .startUpDone .. | .drainDone .. | .registerWrite .. | .bar2Write .. | .resetLevel .. | .resetPowerCycle ..
  | .resetPowerDown .. | .tenantErase .. | .windowRevokeObject .. | .revokeFenceDrained .. | .migratePromote .. | .migrateDemote .. | .migrateCopyRoundDone ..
  | .migrateSwitchConfirmed .. | .migrateStallLimit .. | .moverZeroFillDone .. | .policySet .. | .resyncComplete .. | .keyZeroise .. | .streamSegDone .. | .pxtWriteRx ..
  | .pxtReadRx .. | .markEchoRx .. | .probeRx .. | .probeReplyRx .. | .qpcFetchDone .. | .packetPlacement .. | .harvestPlan .. | .harvestProgramDone ..
  | .gatherFillDone .. | .ledgerPeriod .. | .couplerFault .. | .powerLoss .. | .rideRecovered .. | .rideExpire .. | .managedPowerDown .. | .vbusReturnWaitExpire ..
  | .restoreStepDone .. | .twinWaitExpire .. | .regionRestoreReady .. | .loftPageLoadDone .. | .mirrorDataRx .. | .mirrorMetaRx .. | .mackRx .. | .leaseRx ..
  | .leaseGrantRx .. | .noticeRx .. | .readDataRx .. | .auditReqRx .. | .helloRx .. | .mackSendTimer .. | .mirrorUnappliedLimit .. | .leaseExpire ..
  | .grantMissingExpire .. | .helloTimeout .. | .witnessVerdictWrite .. | .soloEnter .. | .twinPortLinkDown .. | .twinPortLinkUp .. | .portEnWrite ..
  | .readReqTimeout .. | .nandReadDone .. | .sheafWaitExpire .. | .stagingReadDone .. | .hardRepairStepDone .. | .loftLineDecode .. | .lineRecoveryDone ..
  | .gleanSlice .. | .sealUnitDone .. | .classDSensor .. | .atticResetDeferEnd .. | .coldStart .. | .seqSyncRise .. | .seqDownRequest .. | .seqInFall .. | .railLost ..
  | .dischargeTimeout .. | .seqStall .. | .refclkLoss .. | .islandUnlock .. | .chipReset .. | .eyeMeasure .. | .laneRetrainDone .. | .fcFiringArrival ..
  | .graceExpire .. | .fcInjectWrite .. | .railDischarged .. => true
  | _ => false

/-- The address a lies in the bytes that a piece of a placement stores to: n bytes of the object page i from off on, at the address that holds them (R100, R163). A piece with a
poisoned line stores the whole of the lines it touches (R303), as does one into a gather page, whose lines are filled first (R179); one into a page that is not resident
stores the whole page, which is loaded first (R216). -/
def State.pieceStores (s : State) (object i off n map a : Nat) : Prop :=
  match s.objectPage (s.object object) i with
  | none => False
  | some page =>
    let at_ := s.placeAddr page off
    if (s.gatherOf page).isNone ∧ (KM.get s.loft.away page).isSome then a / 16384 = page ∨ (at_ / 64 ≤ a / 64 ∧ a / 64 * 64 < at_ + n)
    else if map = 0 ∧ (s.gatherOf page).isNone then at_ ≤ a ∧ a < at_ + n
    else at_ / 64 ≤ a / 64 ∧ a / 64 * 64 < at_ + n

/-- The address a lies in the bytes that the pieces of a placement store to, each found in the state that the pieces before it have left. -/
def State.piecesStore (s : State) (p : Placement) (bs : List Byte) (map : Nat) (a : Nat) : List (Nat × Nat × Nat) → Prop
  | [] => False
  | (i, off, n) :: l =>
    s.pieceStores p.object i off n (map % 2 ^ linesTouched off n) a ∨
      (s.placePiece p i off (bs.take n) (map % 2 ^ linesTouched off n)).2.2.piecesStore p (bs.drop n) (map / 2 ^ linesTouched off n) a l

end Sys2Proof.Machine
end

