-- ==== Sys2Proof/Certificates/Slice0/Obligations.lean ====
section
/-!
DEFINITION. The statements for the provers, each with the rules of spec/ it comes from: the whole-machine statements first, then, chapter by chapter, where every command of the table
completes and what state it leaves.
-/

open Sys2Proof Sys2Proof.Machine

/-- For every command, every rest of the queue and every state: a step takes the command at the front, first in, first out, and answers what the command answers on the state with the rest of the queue. That a command of the queue is what the outside world does next is the row's cut, not a rule of the spec (log 1). -/
def Obligations.AStepRunsTheFrontCommand : Prop :=
  ∀ (c : Instr) (q : List Instr) (s : State), step { s with pending := c :: q } = exec c { s with pending := q }

/-- The idle step (DESIGN CHOICE, log 1): the block's clock moves on by 1 ns and nothing else changes. -/
def Obligations.AnIdleStepPassesANanosecond : Prop :=
  ∀ (s : State), s.pending = [] → step s = .next { s with now := s.now + 1 }

/-- The reset values that the register tables give (R36, and the tables of chapters 02, 04, 06, 07, 09, 10 and 14), for the common header of every page and for a register of each of those chapters. The last clause is the model's choice (log 4). -/
def Obligations.ResetLeavesTheRegistersAtTheirResetValues : Prop :=
  (∀ (page ty : Nat), pageType page = some ty → State.reset.reg page 0x004 = 0xB1010100 ∧ State.reset.reg page 0x008 = 0 ∧ State.reset.reg page 0x00C = 0 ∧ State.reset.reg page 0x010 = 0 ∧
      State.reset.reg page 0x014 = BitVec.ofNat 32 (definedSources ty) ∧ State.reset.reg page 0x01C = 0 ∧ State.reset.reg page 0x028 = 0 ∧ State.reset.reg page 0x02C = 0) ∧
  (State.reset.reg pFPC 0x040 = 0x0003B9A0 ∧ State.reset.reg pTC 0x100 = 0x84000020 ∧ State.reset.reg (pRG 0) 0x040 = 0x8000190A ∧ State.reset.reg (pRG 0) 0x044 = 0x00005F32 ∧
      State.reset.fld pTWC 0x040 3 0 = 0xF ∧ State.reset.fld (pNC 0) 0x048 15 8 = 60 ∧ State.reset.fld (pRG 0) 0x0C0 23 16 = 10 ∧ State.reset.num pSTW 0x064 = 100) ∧
  (State.reset.pending = [] ∧ ∀ a, State.reset.loftByte a = 0 ∧ State.reset.poisoned (a / 64) = false)

/-- The invariant that every step keeps holds after reset: the register file and the Loft are canonical, so that equal contents are equal data. -/
def Obligations.ResetIsCanonical : Prop :=
  Canon State.reset

/-- The invariant of the whole machine: whatever command runs, the register file and the Loft keep their canonical form (strictly rising keys, no entry equal to what an unlisted key reads as), from every canonical state and not only from those a run reaches. -/
def Obligations.EveryStepKeepsTheCanonicalForm : Prop :=
  ∀ (s t : State), Canon s → step s = .next t → Canon t

/-- No command changes the queue of the commands that wait: after a step the rest of the queue is as it was, in order. -/
def Obligations.ACommandLeavesTheRestOfTheQueue : Prop :=
  (∀ (c : Instr) (s t : State), Canon s → exec c s = .next t → t.pending = s.pending) ∧
  (∀ (c : Instr) (q : List Instr) (s t : State), Canon s → s.pending = c :: q → step s = .next t → t.pending = q)

/-- Every command answers a next state in every state: what the rules refuse, ignore or complete with an error is an effect of its own, and nothing stops the block. -/
def Obligations.EveryCommandIsTaken : Prop :=
  ∀ (c : Instr) (s : State), ∃ t, exec c s = .next t

/-- The memory frame of the commands that store nothing: register writes, timers, events, administration, reads, power and flash bookkeeping leave every byte of the Loft and the poison of every line as they were. -/
def Obligations.CommandsThatLeaveTheLoftAlone : Prop :=
  ∀ (c : Instr) (s t : State), Canon s → mayWriteLoft c = false → exec c s = .next t → SameLoft s t

/-- The store frame of PACKET_PLACEMENT, on every form: a byte that lies in no piece of the placement, and the poison of its line, read as before. Whatever else happens (a duplicate, a tag that fails, a placement that waits), no byte changes outside the pieces of the placement found. -/
def Obligations.APlacementStoresToItsPiecesOnly : Prop :=
  ∀ (qpn psn a : Nat) (s t : State), Canon s → exec (.packetPlacement qpn psn) s = .next t → (∀ p data, s.fab.placements.find? (fun p => p.qpn == qpn && p.trig.psn == psn) = some p → s.openPacket p = some data → ¬ ({ s with fab.placements := s.fab.placements.erase p } : State).piecesStore p data p.poison a p.pieces) → t.loftByte a = s.loftByte a ∧ t.poisoned (a / 64) = s.poisoned (a / 64)

/-- R38 with its frame: what firings of a page leave in EV_STATUS, EV_COUNT and EV_FIRST, with and without a clearing write in the same cycle, and that every other register of every page keeps its value; an absent page raises no event (R3). That EV_COUNT saturates is read from its table. -/
def Obligations.FiringsRecordTheEventRegisters : Prop :=
  (∀ (page ty : Nat) (sources : Word) (s : State), pageType page = some ty → s.absent page = false → sources &&& BitVec.ofNat 32 (definedSources ty) ≠ 0 → ∃ t, exec (.eventFire page sources) s = .next t ∧ t.reg page 0x010 = s.reg page 0x010 ||| (sources &&& BitVec.ofNat 32 (definedSources ty)) ∧ t.reg page 0x028 = satAdd (s.reg page 0x028) (popCount (sources &&& BitVec.ofNat 32 (definedSources ty))) ∧
        t.reg page 0x01C = (if bit (s.reg page 0x01C) 31 then s.reg page 0x01C else BitVec.ofNat 32 (2 ^ 31 + lowestBit (sources &&& BitVec.ofNat 32 (definedSources ty)))) ∧
        ∀ p o, o < 4096 → (p ≠ page ∨ (o ≠ 0x010 ∧ o ≠ 0x01C ∧ o ≠ 0x028)) → t.reg p o = s.reg p o) ∧
  (∀ (req : Requester) (page ty : Nat) (data firing : Word) (s : State), s.writable req page = true → pageType page = some ty → firing &&& BitVec.ofNat 32 (definedSources ty) ≠ 0 → ∃ t, exec (.evStatusWrite req page data firing) s = .next t ∧ t.reg page 0x010 = (s.reg page 0x010 &&& ~~~data) ||| (firing &&& BitVec.ofNat 32 (definedSources ty)) ∧ t.reg page 0x028 = satAdd (s.reg page 0x028) (popCount (firing &&& BitVec.ofNat 32 (definedSources ty))) ∧
        t.reg page 0x01C = (if bit (s.reg page 0x01C) 31 then s.reg page 0x01C else BitVec.ofNat 32 (2 ^ 31 + lowestBit (firing &&& BitVec.ofNat 32 (definedSources ty)))) ∧
        ∀ p o, o < 4096 → (p ≠ page ∨ (o ≠ 0x010 ∧ o ≠ 0x01C ∧ o ≠ 0x028)) → t.reg p o = s.reg p o) ∧
  (∀ (req : Requester) (page : Nat) (data : Word) (s : State), s.writable req page = true → ∃ t, exec (.evStatusWrite req page data 0) s = .next t ∧ t.reg page 0x010 = s.reg page 0x010 &&& ~~~data ∧ ∀ p o, o < 4096 → (p ≠ page ∨ o ≠ 0x010) → t.reg p o = s.reg p o) ∧
  (∀ (page : Nat) (sources : Word) (s : State), pageType page = none ∨ s.absent page = true → exec (.eventFire page sources) s = .next s)

/-- R41, the writes of PG_LOCK that change nothing: taking a held lock, and releasing one that is not one's own. Taking a free lock and the owner's release are stated with the completions. -/
def Obligations.APageLockHasOneOwner : Prop :=
  (∀ (req : Requester) (page : Nat) (s : State), bit (s.reg page 0x02C) 31 = true → exec (.pgLockWrite req page true) s = .next s) ∧
  (∀ (req : Requester) (page : Nat) (s : State), bit (s.reg page 0x02C) 31 = false ∨ s.fld page 0x02C 17 16 ≠ reqCode req → exec (.pgLockWrite req page false) s = .next s)

/-- R42 over every row that writes a register of a page: the write of a requester that another's lock keeps out is the counting of a lock drop and nothing else, which changes one register and the performance counters that select it. -/
def Obligations.ALockedOutWriteIsDroppedAndCounted : Prop :=
  (∀ (c : Instr) (req : Requester) (page : Nat) (s : State), writesPage c = some (req, page) → (pageType page).isSome = true → s.absent page = false → s.lockedOut req page = true → exec c s = .next s.lockDrop) ∧
  (∀ (req : Requester) (addr : Nat) (data : Word) (s : State), addr % 4 = 0 → (pageType (addr / 4096)).isSome = true → s.absent (addr / 4096) = false → s.lockedOut req (addr / 4096) = true → addr < 0x4000000 → addr % 4096 ∈ [0x008, 0x010, 0x014, 0x018, 0x01C, 0x020, 0x024] ∨ 0x040 ≤ addr % 4096 → exec (.registerWrite req 0 addr data) s = .next s.lockDrop) ∧
  (∀ (s : State), s.lockDrop.reg pPKG 0x04C = satAdd (s.reg pPKG 0x04C) 1 ∧ (∀ p o, o < 4096 → (p ≠ pPKG ∨ o ≠ 0x04C) → s.lockDrop.reg p o = s.reg p o) ∧ s.lockDrop = { s with regs := s.lockDrop.regs, perf := s.lockDrop.perf })

/-- R3 and R35 over every row that writes a register: a reserved page index and the page of a unit that this bin does not have ignore writes and raise no event. -/
def Obligations.WritesToAbsentPagesChangeNothing : Prop :=
  (∀ (c : Instr) (req : Requester) (page : Nat) (s : State), writesPage c = some (req, page) → pageType page = none ∨ s.absent page = true → exec c s = .next s) ∧
  (∀ (req : Requester) (addr : Nat) (data : Word) (s : State), pageType (addr / 4096) = none ∨ s.absent (addr / 4096) = true → exec (.registerWrite req 0 addr data) s = .next s) ∧
  (∀ (req : Requester) (page : Nat) (data firing : Word) (s : State), pageType page = none ∨ s.absent page = true → exec (.evStatusWrite req page data firing) s = .next s) ∧
  (∀ (req : Requester) (page : Nat) (hold : Bool) (s : State), pageType page = none ∨ s.absent page = true → exec (.pgLockWrite req page hold) s = .next s)

/-- R43 as the ACK registers carry it out, with what becomes of every register: consuming a result with and without a record waiting, and the two kinds of ACK write that only count. -/
def Obligations.ResultRegistersAreConsumedByTheirSequence : Prop :=
  (∀ (req : Requester) (page off h : Nat) (data : Word) (s : State), s.writable req page = true → ackHeader ((pageType page).getD 0xFF) off = some h → h < 4096 → s.resultValid page h = true → bits data 15 0 = s.fld page h 15 0 → KM.getD [] s.host.results (regKey page h) = [] → ∃ t, exec (.resultAckWrite req page off data) s = .next t ∧ t.reg page h = setBits (s.reg page h) 31 31 0 ∧ (∀ p o, o < 4096 → (p ≠ page ∨ o ≠ h) → t.reg p o = s.reg p o) ∧ t.host = s.host) ∧
  (∀ (req : Requester) (page off h w : Nat) (data : Word) (ws : List Nat) (q : List (List Nat)) (s : State), s.writable req page = true → ackHeader ((pageType page).getD 0xFF) off = some h → h + 4 * (ws.length + 2) ≤ 4096 → s.resultValid page h = true → bits data 15 0 = s.fld page h 15 0 → KM.getD [] s.host.results (regKey page h) = (w :: ws) :: q → regKey page h ∉ s.host.overflow → ∃ t, exec (.resultAckWrite req page off data) s = .next t ∧ t.reg page h = BitVec.ofNat 32 (2 ^ 31 + nextSeq (bits data 15 0)) ∧ (∀ i, i < (w :: ws).length → t.reg page (h + 4 + 4 * i) = BitVec.ofNat 32 ((w :: ws).getD i 0)) ∧
      (∀ p o, o < 4096 → (p ≠ page ∨ o < h ∨ h + 4 * (ws.length + 2) ≤ o) → t.reg p o = s.reg p o) ∧ KM.getD [] t.host.results (regKey page h) = q) ∧
  (∀ (req : Requester) (page off h : Nat) (data : Word) (s : State), s.writable req page = true → ackHeader ((pageType page).getD 0xFF) off = some h → s.resultValid page h = false ∨ bits data 15 0 ≠ s.fld page h 15 0 → ∃ t, exec (.resultAckWrite req page off data) s = .next t ∧ t.reg pPKG 0x054 = satAdd (s.reg pPKG 0x054) 1 ∧ (∀ p o, o < 4096 → (p ≠ pPKG ∨ o ≠ 0x054) → t.reg p o = s.reg p o) ∧ t.host = s.host)

/-- What every administration command meets before its own effect (R9, R50, R51, R334, R372): the failing check ends it with its status, and nothing but its bookkeeping has changed. The order of the checks is the model's choice (log 38). -/
def Obligations.ACommandThatFailsItsChecksChangesNothing : Prop :=
  (∀ (i : Instr) (op opId st : Nat) (c : AdminCmd) (s u : State), adminOf i = some (op, c) → s.turnedAway op c = some (opId, st, u) → exec i s = .next (u.complete opId { status := st })) ∧
  (∀ (op opId st : Nat) (c : AdminCmd) (s u : State), s.turnedAway op c = some (opId, st, u) → (∀ p o, o < 4096 → (p ≠ pSTW ∨ (o ≠ 0x068 ∧ o ≠ 0x06C)) → u.reg p o = s.reg p o) ∧
      u = { s with regs := u.regs, host.cmds := u.host.cmds, host.journal := u.host.journal, host.nextJseq := u.host.nextJseq, host.nextOp := u.host.nextOp, host.challenges := u.host.challenges }) ∧
  (∀ (op : Nat) (c : AdminCmd) (s : State), badFields c = true → s.checks op c = (some stINVALID_FIELD, s)) ∧
  (∀ (op : Nat) (c : AdminCmd) (s : State), badFields c = false → s.stwState = 6 → rescueOk op c = false → s.checks op c = (some stSTATE_CONFLICT, s)) ∧
  (∀ (op : Nat) (c : AdminCmd) (s : State), badFields c = false → s.stwState ≠ 6 ∨ rescueOk op c = true → c.xferOk = false → s.checks op c = (some stDATA_XFER_ERROR, s)) ∧
  (∀ (op : Nat) (c : AdminCmd) (s : State), badFields c = false → s.stwState ≠ 6 ∨ rescueOk op c = true → c.xferOk = true → op ∈ authOps → cmdAuth c = false → op ≠ 0x41 ∨ c.target ≠ 2 ∨ (KM.getD {} s.larder.slots 2).state ≠ .empty → s.checks op c = (some stAUTH_FAIL, s)) ∧
  (∀ (op : Nat) (c : AdminCmd) (s : State), badFields c = false → s.stwState ≠ 6 ∨ rescueOk op c = true → c.xferOk = true → cmdAuth c = true → s.authOk op c = false → s.checks op c = (some stAUTH_FAIL, s.useChallenge c))

/-- Completion (R34, R45, R364): what State.complete, in whose terms the completions of commands are stated, leaves in the outstanding commands, in the queue pair, and nowhere else. -/
def Obligations.ACompletedCommandPostsOneEntry : Prop :=
  (∀ (opId : Nat) (a : Answer) (o : Outstanding) (q : AdminQ) (s : State), s.host.cmds.find? (fun x => x.started && x.opId == opId) = some o → o.discard = false → s.aq o.cmd.fn o.cmd.sq = some q → (s.complete opId a).aq o.cmd.fn o.cmd.sq = some { q with held := q.held ++ [{ cid := o.cmd.cid, sqHead := o.sqHead, sqId := o.cmd.sq, status := a.status, result0 := a.r0, result1 := a.r1, opId := a.op.getD opId }] } ∧
      (s.complete opId a).host.cmds = s.host.cmds.filter (fun x => !(x.started && x.opId == opId)) ∧ (s.complete opId a).regs = s.regs ∧ (s.complete opId a).loft = s.loft ∧ (s.complete opId a).win = s.win ∧
      (∀ fn n, (fn, n) ≠ (o.cmd.fn, o.cmd.sq) → (s.complete opId a).aq fn n = s.aq fn n)) ∧
  (∀ (opId : Nat) (a : Answer) (o : Outstanding) (s : State), s.host.cmds.find? (fun x => x.started && x.opId == opId) = some o → o.discard = true → s.complete opId a = { s with host.journal := closeEntry opId a.status a.r0 a.r1 (a.op.getD opId) s.rtc 2 s.host.journal, host.cmds := s.host.cmds.filter (fun x => !(x.started && x.opId == opId)) })

/-- R92 whole: the order of sequence numbers, on the integers, and the number that follows one. The same functions serve PSN and MSN. -/
def Obligations.SequenceNumbersAreModulo2ToThe32 : Prop :=
  (∀ (a b : Nat), a < 2 ^ 32 → b < 2 ^ 32 → (precedes a b = true ↔ 1 ≤ ((b : Int) - a) % 2 ^ 32 ∧ ((b : Int) - a) % 2 ^ 32 ≤ 2 ^ 31 - 1)) ∧
  (∀ (a : Nat), inc32 a = (a + 1) % 2 ^ 32)

/-- R178 whole: an abandoned plan counts in HV_LATE_COUNT, and the rate in force and every harvest that runs stay as they were. The rate is the field rate of a region's accounting and the register at 0x05C; the harvests are in the same accounting. -/
def Obligations.ALateHarvestPlanKeepsTheRate : Prop :=
  ∀ (region : Nat) (s : State), region < s.regions → ∃ t, exec (.harvestPlan region false) s = .next t ∧ t.reg (pRG region) 0x07C = satAdd (s.reg (pRG region) 0x07C) 1 ∧ (t.dirty region).rate = (s.dirty region).rate ∧ t.reg (pRG region) 0x05C = s.reg (pRG region) 0x05C ∧
      (t.dirty region).harvests = (s.dirty region).harvests ∧ t.dur = s.dur ∧ t.dram = s.dram ∧ t.loft = s.loft ∧ t.cellar = s.cellar ∧
      (∀ p o, o < 4096 → (p ≠ pRG region ∨ (o ≠ 0x07C ∧ o ≠ 0x010 ∧ o ≠ 0x01C ∧ o ≠ 0x028)) → t.reg p o = s.reg p o)

/-- R198 for one period: the count, the budget that stays in force, and the fifth abandoned period in a row. That B stays at 0 until a period completes is not stated here. -/
def Obligations.ALateLedgerPeriodKeepsOrDropsTheBudget : Prop :=
  (∀ (mon adc vbus ibus pIn : Nat) (s : State), s.fld pLG 0x080 2 0 ≠ 4 → ∃ t, exec (.ledgerPeriod false mon adc vbus ibus pIn) s = .next t ∧ t.reg pLG 0x07C = satAdd (s.reg pLG 0x07C) 1 ∧ t.budget = s.budget ∧ t.dur = s.dur ∧ t.loft = s.loft ∧ (∀ p o, p ≠ pLG → o < 4096 → t.reg p o = s.reg p o)) ∧
  (∀ (mon adc vbus ibus pIn : Nat) (s u : State), s.fld pLG 0x080 2 0 = 4 → (((s.bump pLG 0x07C).setFld pLG 0x080 2 0 5).fireLimited pLG 0) = u → exec (.ledgerPeriod false mon adc vbus ibus pIn) s =
      .next ((((match u.power.tcSince with | some n => { u with power.tcSince := some (n + 1) } | none => u).setFld pLG 0x058 1 0 3).setBudget 0).fire pLG 1))

/-- R274 whole, on bit vectors: the six steps from a DPA to its channel and channel address in the PW8840, and the table of the channel address, with the rule's example. -/
def Obligations.ALoftAddressHasItsChannelAndCell : Prop :=
  (∀ (d : BitVec 49) (s : State), s.regions = 4 → s.channelOf d.toNat = (let m := (d.extractLsb 48 14).toNat; let local_ := m / 4 * 16384 + (d.extractLsb 13 0).toNat; let k := local_ / 256;
      (6 * (m % 4) + k % 6, k / 6 * 256 + local_ % 256))) ∧
  (∀ (a : BitVec 39), splitAddress a.toNat = ((a.extractLsb 6 6).toNat, (a.extractLsb 20 19).toNat, (a.extractLsb 10 8 ^^^ a.extractLsb 23 21).toNat, (a.extractLsb 18 17).toNat, (a.extractLsb 38 21).toNat,
      (a.extractLsb 16 11).toNat * 2 + (a.extractLsb 7 7).toNat)) ∧
  (∀ (s : State), s.regions = 4 → s.channelOf 0x12345678 = (8, 0xC22E78) ∧ splitAddress 0xC22E78 = (1, 0, 0, 1, 6, 10))

/-- Die links, islands and the life of a page (R11, R16, R17, R22, R37, R402): each command's effect, on the states and operands in which the rules give it one. The explicit next state is also the frame: what its operations do not name is as before. -/
def Obligations.PageLifeCompletes : Prop :=
  (∀ (die : Nat) (ok : Bool) (s : State), 2 ≤ die → die ≤ 5 → s.absent die = false → (KM.getD {} s.arch.links die).down = false → exec (.dieLinkFlit die ok) s = .next (if ok then { s with arch.links := KM.putD {} s.arch.links die {} }
    else if (KM.getD ({} : DieLink) s.arch.links die).retries < 64 then
      { s with arch.links := KM.putD {} s.arch.links die { retries := (KM.getD ({} : DieLink) s.arch.links die).retries + 1 } }
    else ({ s with arch.links := KM.putD {} s.arch.links die { retries := (KM.getD ({} : DieLink) s.arch.links die).retries, down := true } }).fire die 0)) ∧
  (∀ (k : Nat) (waiting : List Handshake) (s : State), k < 17 → exec (.islandResetEnter k waiting) s = .next ((s.setIsland k { s.island k with inReset := true }).abortHandshakes k waiting)) ∧
  (∀ (k : Nat) (held : List Handshake) (f : Nat) (s : State), k < 17 → (s.island k).target = some f → exec (.islandFreqChangeDone k held) s = .next ((((s.setIsland k { s.island k with gated := false, target := none }).setFld pHD (islandReg k + 4) 29 29 0).setFld pHD
      (islandReg k + 4) 15 0 f).endHandshakes held)) ∧
  (∀ (req : Requester) (k mhz : Nat) (s : State), k < 17 → s.writable req pHD = true → mhz % 25 = 0 → mhz ≤ bits (resetWord pHD (islandReg k)) 15 0 → bits (resetWord pHD (islandReg k)) 15 0 ≤ 2 * mhz → s.aboveCap k mhz = false → exec (.freqReqWrite req k mhz) s = .next (s.beginFreq k mhz)) ∧
  (∀ (req : Requester) (page : Nat) (on : Bool) (s : State), s.writable req page = true → exec (.pgCtrlEnable req page on) s = .next ((s.setFld page 0x008 0 0 (b2n on)).tryStart page)) ∧
  (∀ (page : Nat) (s : State), (pageType page).isSome = true → exec (.enableConditionsMet page) s = .next (s.tryStart page)) ∧
  (∀ (req : Requester) (page : Nat) (s : State), page ≠ pFC → s.writable req page = true → (s.setFld page 0x008 1 1 1).pg page = .service → exec (.pgCtrlDrain req page true) s = .next ((s.setFld page 0x008 1 1 1).beginDrain page)) ∧
  (∀ (req : Requester) (page : Nat) (s : State), page ≠ pFC → s.writable req page = true → exec (.pgCtrlDrain req page false) s = .next (s.setFld page 0x008 1 1 0)) ∧
  (∀ (req : Requester) (page : Nat) (s : State), page ≠ pFC → s.writable req page = true → exec (.pgCtrlDrill req page true) s = .next (s.setFld page 0x008 2 2 1)) ∧
  (∀ (req : Requester) (page : Nat) (s : State), page ≠ pFC → s.writable req page = true → (s.setFld page 0x008 2 2 0).pg page = .drill → exec (.pgCtrlDrill req page false) s = .next ((s.setFld page 0x008 2 2 0).requestReset page 1 0)) ∧
  (∀ (req : Requester) (page : Nat) (s : State), s.writable req page = true → s.lossOrRestore = false → neverReset page = false → s.arch.chipDue = none → 2 ≤ page → s.resettable page = true → exec (.resetReq req page) s = .next (s.requestReset page 1 0)) ∧
  (∀ (req : Requester) (page : Nat) (s : State), s.writable req page = true → s.lossOrRestore = false → neverReset page = false → s.arch.chipDue = none → page < 2 → exec (.resetReq req page) s = .next ((s.requestChip 3).setFld page 0x008 3 3 1)) ∧
  (∀ (req : Requester) (region : Nat) (s : State), region < 4 → s.writable req (pRG region) = true → s.pg (pRG region) = .service → s.ownSequence region = false → s.twinHealthy = true → exec (.bypassReq req region) s = .next (s.enterBypass region .runtime)) ∧
  (∀ (req : Requester) (region : Nat) (s : State), region < 4 → s.writable req (pRG region) = true → s.pg (pRG region) = .service → s.ownSequence region = true → exec (.bypassReq req region) s = .next ((s.setRegion region { s.region region with request := true }).setFld (pRG region) 0x008 4 4 1)) ∧
  (∀ (req : Requester) (region : Nat) (s : State), region < 4 → s.writable req (pRG region) = true → (s.region region).bypass = some .runtime → exec (.bypassEnd req region) s = .next ((s.setFld (pRG region) 0x008 5 5 1).endRuntime region)) ∧
  (∀ (region : Nat) (s : State), exec (.bypassLimitExpire region) s = .next (s.endRuntime region)) ∧
  (∀ (region : Nat) (s : State), s.pg (pRG region) = .bypass → (s.region region).opRuns = true → exec (.bypassOpDone region true) s = .next (s.endTrain region)) ∧
  (∀ (region : Nat) (s : State), s.pg (pRG region) = .bypass → (s.region region).opRuns = true → exec (.bypassOpDone region false) s = .next (s.failRegion region)) ∧
  (∀ (page : Nat) (passed : Bool) (s : State), s.pg page = .starting → pageType page ≠ some 0x08 → pageType page ≠ some 0x4C → exec (.startUpDone page passed) s = .next (if passed then s.joinService page else if pageType page = some 0x20 then ((s.retirePage page 5).fire page 31).planeTrained (page - 0x40) false else (s.retirePage page 5).fire page 31)) ∧
  (∀ (page : Nat) (passed : Bool) (s : State), s.pg page = .starting → pageType page = some 0x4C → exec (.startUpDone page passed) s = .next (if passed then (s.setFld page 0x040 2 2 1).joinService page else (((s.setFld page 0x040 2 2 0).retirePage page 5).fire page 31).fire page 0)) ∧
  (∀ (page : Nat) (s : State), s.pg page = .starting → pageType page = some 0x08 → s.restoring (page - 0x10) = false → s.engineFailed (page - 0x10) = false → exec (.startUpDone page true) s = .next (s.joinService page)) ∧
  (∀ (page : Nat) (s : State), s.pg page = .draining → bit (s.reg page 0x008) 2 = true → pageType page ≠ some 0x21 → pageType page ≠ some 0x20 → exec (.drainDone page) s = .next ((s.setFld page 0x008 1 1 0).setPg page .drill 1)) ∧
  (∀ (page : Nat) (s : State), s.pg page = .draining → bit (s.reg page 0x008) 2 = false → pageType page ≠ some 0x21 → pageType page ≠ some 0x20 → exec (.drainDone page) s = .next (({ s.setFld page 0x008 1 1 0 with arch.inService := s.arch.inService.filter (· ≠ page) }.setFld page 0x008 0 0 0).setPg page .off 1)) ∧
  (∀ (page : Nat) (s : State), s.pg page = .draining → (s.pageInfo page).drainExpired = false → exec (.drainTimeout page) s = .next (((s.setPageInfo page { s.pageInfo page with drainExpired := true }).setPg page .draining 6).fire page 30))

/-- BIST results, resets of a function, and the event registers of a page (R7, R9, R23, R34, R38, R39, R404): the effect of each command where the rules give it one. -/
def Obligations.BistAndFunctionResetsComplete : Prop :=
  (∀ (page : Nat) (passed : Bool) (op : Nat) (s : State), KM.get s.host.bistRuns page = some op → page < pSC 0 → exec (.pageBistDone page passed) s = .next (if passed then { s with host.bistRuns := KM.del s.host.bistRuns page }.unretire page else { s with host.bistRuns := KM.del s.host.bistRuns page }.setPg page .failed 5)) ∧
  (∀ (fn : Fn) (s : State), exec (.functionLevelReset fn) s = .next (s.flr fn)) ∧
  (∀ (link : Nat) (s : State), link < 2 → bit (s.reg pPKG 0x058) 0 = true → exec (.perstN link) s = .next (s.flr (if link = 0 then .pf0 else .pf1))) ∧
  (∀ (link : Nat) (s : State), link < 2 → bit (s.reg pPKG 0x058) 0 = false → exec (.perstN link) s = .next ((s.flr .pf0).flr .pf1)) ∧
  (∀ (s : State), exec .trstN s = .next s) ∧
  (∀ (fn : Fn) (offset width : Nat) (write : Bool) (s : State), width ≠ 4 ∧ width ≠ 8 ∨ offset % width ≠ 0 → exec (.bar0NarrowAccess fn offset width write) s = .next (if write then s else s.emit (.readData (2 ^ (8 * width) - 1)))) ∧
  (∀ (req : Requester) (addr : Nat) (data : Word) (s : State), addr % 4 = 0 → exec (.registerWrite req 0 addr data) s = .next (s.writeRegister req (addr / 4096) (addr % 4096) data)) ∧
  (∀ (page : Nat) (sources : Word) (ty : Nat) (s : State), pageType page = some ty → exec (.eventFire page sources) s = .next (s.fireMask page (sources &&& BitVec.ofNat 32 (definedSources ty)))) ∧
  (∀ (req : Requester) (page : Nat) (data firing : Word) (ty : Nat) (s : State), s.writable req page = true → pageType page = some ty → exec (.evStatusWrite req page data firing) s = .next ((s.setReg page 0x010 (s.reg page 0x010 &&& ~~~data)).fireMask page (firing &&& BitVec.ofNat 32 (definedSources ty)))) ∧
  (∀ (req : Requester) (page : Nat) (data : Word) (s : State), s.writable req page = true → bit data 31 = true → exec (.evFirstWrite req page data) s = .next (s.setFld page 0x01C 31 31 0)) ∧
  (∀ (req : Requester) (page : Nat) (data : Word) (g : Nat) (s : State), s.writable req page = true → KM.get s.host.grants page = some g → s.pg page = .drill → data &&& ~~~(BitVec.ofNat 32 g) = 0 → exec (.evInjectWrite req page data) s = .next (s.fireMask page data))

/-- Page locks, result registers, queue pairs and the BAR2 window (R41, R43, R45 to R48, R53, R54, R493, R494): the effect of each command where the rules give it one. -/
def Obligations.LocksResultsAndQueuesComplete : Prop :=
  (∀ (req : Requester) (page : Nat) (s : State), (pageType page).isSome = true → s.absent page = false → bit (s.reg page 0x02C) 31 = false → exec (.pgLockWrite req page true) s = .next (s.setNum page 0x02C (2 ^ 31 + reqCode req * 2 ^ 16 + 1))) ∧
  (∀ (req : Requester) (page : Nat) (s : State), (pageType page).isSome = true → s.absent page = false → bit (s.reg page 0x02C) 31 = true → s.fld page 0x02C 17 16 = reqCode req → exec (.pgLockWrite req page false) s = .next (s.setNum page 0x02C 0)) ∧
  (∀ (req : Requester) (page off : Nat) (data : Word) (h : Nat) (s : State), s.writable req page = true → ackHeader ((pageType page).getD 0xFF) off = some h → exec (.resultAckWrite req page off data) s = .next (s.ack page h (bits data 15 0))) ∧
  (∀ (fn : Fn) (data : Word) (s : State), s.writable (fnReq fn) 0x004C = true → bit (s.reg (pPX fn) 0x050) 31 = false → bits data 27 16 ≠ 0 → bits data 11 0 ≠ 0 → s.reg64 (pPX fn) 0x040 0x044 % 4096 = 0 → s.reg64 (pPX fn) 0x048 0x04C % 4096 = 0 → exec (.aqEnableSet fn data) s = .next (((s.setReg (pPX fn) 0x050 (setBits (setBits (setBits 0 31 31 1) 27 16 (bits data 27 16)) 11 0 (bits data 11 0))).setNum (pPX fn) 0x054 1).setAq fn 0
      { sqBase := s.reg64 (pPX fn) 0x040 0x044, cqBase := s.reg64 (pPX fn) 0x048 0x04C, sqSize := bits data 11 0 + 1, cqSize := bits data 27 16 + 1, vector := 0 })) ∧
  (∀ (fn : Fn) (data : Word) (s : State), s.writable (fnReq fn) 0x004C = true → bit (s.reg (pPX fn) 0x050) 31 = true → exec (.aqEnableClear fn data) s = .next ({ (((s.setFld (pPX fn) 0x050 31 31 0).setNum (pPX fn) 0x054 0).delAq fn 0) with host.cmds := dropQueue fn 0 (((s.setFld (pPX fn) 0x050 31 31 0).setNum (pPX fn) 0x054 0).delAq fn 0).host.cmds })) ∧
  (∀ (fn : Fn) (data : Word) (s : State), s.writable (fnReq fn) 0x004C = true → bit (s.reg (pPX fn) 0x050) 31 = false → exec (.aqEnableClear fn data) s = .next (s.setReg (pPX fn) 0x050 (setBits (setBits 0 27 16 (bits data 27 16)) 11 0 (bits data 11 0)))) ∧
  (∀ (fn : Fn) (q : Nat) (data : Word) (a : AdminQ) (s : State), q < 32 → s.writable (fnReq fn) 0x004C = true → s.aq fn q = some a → a.halted = false → bits data 11 0 < a.sqSize → exec (.sqTailDoorbell fn q data) s = .next (s.setAq fn q { a with sqTail := bits data 11 0 })) ∧
  (∀ (fn : Fn) (q : Nat) (data : Word) (a : AdminQ) (s : State), q < 32 → s.writable (fnReq fn) 0x004C = true → s.aq fn q = some a → a.halted = false → a.sqSize ≤ bits data 11 0 → exec (.sqTailDoorbell fn q data) s = .next (s.haltAq fn q a)) ∧
  (∀ (fn : Fn) (q : Nat) (data : Word) (a : AdminQ) (s : State), q < 32 → s.writable (fnReq fn) 0x004C = true → s.aq fn q = some a → bits data 11 0 < a.cqSize → exec (.cqHeadDoorbell fn q data) s = .next (s.setAq fn q { a with cqHead := bits data 11 0 })) ∧
  (∀ (fn : Fn) (q op : Nat) (c : AdminCmd) (a : AdminQ) (s : State), s.aq fn q = some a → a.halted = false → a.sqHead ≠ a.sqTail → a.full = false → s.pairRuns = true → (s.stwState = 6 → q = 0) → c.fn = fn → c.sq = q → s.cidOutstanding fn q c.cid = false → mayStart c s.host.cmds = true → exec (.sqeFetch fn q op c) s = .next ({ ((s.setAq fn q { a with sqHead := (a.sqHead + 1) % a.sqSize }).enter op c).2 with
        host.cmds := ((s.setAq fn q { a with sqHead := (a.sqHead + 1) % a.sqSize }).enter op c).2.host.cmds ++
          [{ op, cmd := c, started := true, running := false, opId := ((s.setAq fn q { a with sqHead := (a.sqHead + 1) % a.sqSize }).enter op c).1,
             sqHead := (a.sqHead + 1) % a.sqSize, discard := false }] })) ∧
  (∀ (fn : Fn) (q : Nat) (a : AdminQ) (e : Cqe) (rest : List Cqe) (s : State), s.aq fn q = some a → a.held = e :: rest → a.full = false → bit (s.reg pSTW 0x040) 28 = false → a.coalUs = 0 → exec (.cqePost fn q) s = .next (((s.emit (.cqe fn (a.cqBase + 32 * a.cqTail) e a.phase)).setAq fn q { a with held := rest, cqTail := (a.cqTail + 1) % a.cqSize, phase := if (a.cqTail + 1) % a.cqSize = 0 then !a.phase else a.phase, unsignalled := 0 }).signal fn a.vector)) ∧
  (∀ (fn : Fn) (q : Nat) (a : AdminQ) (e : Cqe) (rest : List Cqe) (s : State), s.aq fn q = some a → a.held = e :: rest → a.full = false → bit (s.reg pSTW 0x040) 28 = true → a.coalUs = 0 → exec (.cqePost fn q) s = .next (((s.emit (.cqe fn (a.cqBase + 32 * a.cqTail) { e with result1 := withBit e.result1 31 } a.phase)).setAq fn q { a with held := rest, cqTail := (a.cqTail + 1) % a.cqSize, phase := if (a.cqTail + 1) % a.cqSize = 0 then !a.phase else a.phase, unsignalled := 0 }).signal fn a.vector)) ∧
  (∀ (fn : Fn) (q : Nat) (a : AdminQ) (s : State), s.aq fn q = some a → a.full = true → exec (.cqStall fn q) s = .next (s.fire 0x004C 0)) ∧
  (∀ (fn : Fn) (data : Word) (s : State), s.writable (fnReq fn) 0x004C = true → (s.setReg (pPX fn) 0x058 (setBits 0 31 30 (bits data 31 30))).aperture fn + 2 ^ 36 ≤ s.loftTop → exec (.apertureBaseWrite fn false data) s = .next (s.setReg (pPX fn) 0x058 (setBits 0 31 30 (bits data 31 30)))) ∧
  (∀ (fn : Fn) (data : Word) (s : State), s.writable (fnReq fn) 0x004C = true → (s.setNum (pPX fn) 0x05C (bits data 16 0)).aperture fn + 2 ^ 36 ≤ s.loftTop → exec (.apertureBaseWrite fn true data) s = .next (s.setNum (pPX fn) 0x05C (bits data 16 0))) ∧
  (∀ (fn : Fn) (addr len : Nat) (s : State), addr + len ≤ 2 ^ 36 → len ≠ 0 → exec (.bar2Read fn addr len) s = .next (s.bar2Answer fn (s.aperture fn + addr) len)) ∧
  (∀ (fn : Fn) (addr : Nat) (data : List Byte) (s : State), data ≠ [] → data.length ≤ 16384 → addr + data.length ≤ 2 ^ 36 → s.listBase ≤ s.aperture fn + addr → s.aperture fn + addr + data.length ≤ s.loftTop → s.listBound (s.aperture fn + addr) data.length = false → exec (.bar2Write fn addr data) s = .next (({ s with dur.waiting := s.dur.waiting ++ [(s.aperture fn + addr, data)] }).wakeBar2))

/-- Admin commands over queue pairs, pages, the journal and resets (R23, R38, R41, R44, R47, R50 to R52, R364, R406, R440, R490, R496): a command that begins, and whose own conditions hold, has its effect and completes; u is the state in which the effect takes place. Where the parameters lie in the entry is the model's choice (log 8), and that RUN_BIST completes as the BIST begins (log 35). -/
def Obligations.AdminPagesAndQueuesComplete : Prop :=
  (∀ (c : AdminCmd) (s : State), s.admits 0x00 c = true → exec (.nop c) s = s.success 0x00 c (s.begun 0x00 c)) ∧
  (∀ (op : Nat) (c : AdminCmd) (s u : State), s.admits op c = true → s.begun op c = u → op ∉ knownOps → exec (.invalidOpcode op c) s = s.ends op c ((u, bad stINVALID_OPCODE))) ∧
  (∀ (c : AdminCmd) (s u : State), s.admits 0x01 c = true → s.begun 0x01 c = u → 1 ≤ c.target → c.target ≤ 31 → c.p4 % 4096 ≠ 0 → 1 ≤ c.p4 / 65536 → c.p4 / 65536 ≤ 4095 → c.p4 / 4096 % 16 = 0 → (c.p0 + 2 ^ 32 * c.p1) % 4096 = 0 → (c.p2 + 2 ^ 32 * c.p3) % 4096 = 0 → c.p5.testBit 31 = true → c.p5 - 2 ^ 31 ≤ 2047 → c.p6 ≤ 65535 → u.aq c.fn c.target = none → exec (.createQp c) s = s.success 0x01 c (u.setAq c.fn c.target { sqBase := c.p0 + 2 ^ 32 * c.p1, cqBase := c.p2 + 2 ^ 32 * c.p3, sqSize := c.p4 % 4096 + 1, cqSize := c.p4 / 65536 + 1, vector := c.p5 - 2 ^ 31, coalUs := c.p6 % 256, coalN := c.p6 / 256 })) ∧
  (∀ (c : AdminCmd) (s u : State), s.admits 0x02 c = true → s.begun 0x02 c = u → 1 ≤ c.target → c.target ≤ 31 → (u.aq c.fn c.target).isSome = true → exec (.deleteQp c) s = s.success 0x02 c ({ u.delAq c.fn c.target with host.cmds := dropQueue c.fn c.target (u.delAq c.fn c.target).host.cmds })) ∧
  (∀ (c : AdminCmd) (s u : State), s.admits 0x03 c = true → s.begun 0x03 c = u → c.p1 ≤ 31 → u.host.cmds.find? (abortable c) = none → exec (.abort c) s = s.success 0x03 c u) ∧
  (∀ (c : AdminCmd) (o : Outstanding) (s u : State), s.admits 0x03 c = true → s.begun 0x03 c = u → c.p1 ≤ 31 → u.host.cmds.find? (abortable c) = some o → exec (.abort c) s = s.success 0x03 c ({ u with host.cmds := u.host.cmds.filter fun x => !abortable c x }.holdCqe o.cmd.fn o.cmd.sq { cid := o.cmd.cid, sqHead := o.sqHead, sqId := o.cmd.sq, status := stABORTED, result0 := 0, result1 := 0, opId := 0 }) 1) ∧
  (∀ (c : AdminCmd) (s u : State), s.admits 0x04 c = true → s.begun 0x04 c = u → u.drbgStopped = false → exec (.getChallenge c) s = s.success 0x04 c ({ u.fresh.2 with host.challenges := u.fresh.2.host.challenges ++ [{ value := u.fresh.1, fn := c.fn, at_ := u.fresh.2.now }] }) u.fresh.1.toNat) ∧
  (∀ (c : AdminCmd) (s u : State), s.admits 0x05 c = true → s.begun 0x05 c = u → properLen c ≠ 0 → c.dataAddr ≠ 0 → exec (.identify c) s = s.success 0x05 c (u.emit (.identity c.fn (properAddr c) (properLen c) (u.reg64 pPKG 0x044 0x048) u.bin u.loftTop u.win.cellarPages (u.num pPKG 0x004)))) ∧
  (∀ (c : AdminCmd) (s u : State), s.admits 0x06 c = true → s.begun 0x06 c = u → u.realPage c.target = true → 64 ≤ c.p0 → c.p0 ≤ 2047 → u.cmdLocked c c.target = false → c.target ≠ pFC → exec (.setVector c) s = s.success 0x06 c (match c.fn with
      | .pf0 => { u with host.vectors0 := KM.put u.host.vectors0 c.target c.p0 }
      | .pf1 => { u with host.vectors1 := KM.put u.host.vectors1 c.target c.p0 })) ∧
  (∀ (c : AdminCmd) (s u : State), s.admits 0x07 c = true → s.begun 0x07 c = u → u.realPage c.target = true → u.cmdLocked c c.target = false → u.pg c.target = .failed → u.flushing = false → exec (.runBist c) s = s.success 0x07 c ({ u with host.bistRuns := KM.put u.host.bistRuns c.target (s.opOf 0x07 c) })) ∧
  (∀ (c : AdminCmd) (s u : State), s.admits 0x08 c = true → s.begun 0x08 c = u → u.realPage c.target = true → u.cmdLocked c c.target = false → c.target ≠ pTC → exec (.clearCounts c) s = s.success 0x08 c (u.clearCounts c.target)) ∧
  (∀ (c : AdminCmd) (s u : State), s.admits 0x09 c = true → s.begun 0x09 c = u → u.realPage c.target = true → exec (.lockBreak c) s = s.success 0x09 c (u.setNum c.target 0x02C 0)) ∧
  (∀ (c : AdminCmd) (s u : State), s.admits 0x0A c = true → s.begun 0x0A c = u → u.realPage c.target = true → neverDrills c.target = false → ((bitList c.p0 32).any fun i => !(definedSources ((pageType c.target).getD 0xFF)).testBit i) = false → u.cmdLocked c c.target = false → u.pg c.target = .drill → exec (.drillAuth c) s = s.success 0x0A c ({ u with host.grants := KM.put u.host.grants c.target c.p0 })) ∧
  (∀ (c : AdminCmd) (s u : State), s.admits 0x0B c = true → s.begun 0x0B c = u → 64 ≤ properLen c → exec (.journalRead c) s = s.success 0x0B c (u.toBuffer c (((u.host.journal.take (min 256 (properLen c / 64))).reverse).flatMap fun e => journalBytes e ++ leBytes 4 (crc32c (journalBytes e)).toNat)) (min (min 256 (properLen c / 64)) u.host.journal.length)) ∧
  (∀ (c : AdminCmd) (s u : State), s.admits 0x0C c = true → s.begun 0x0C c = u → c.p0 = 0 → u.realPage c.target = true → neverReset c.target = false → u.cmdLocked c c.target = false → u.lossOrRestore = false → 2 ≤ c.target → u.resettable c.target = true → exec (.resetLevel c) s = s.ends 0x0C c ((u.requestReset c.target 2 (s.opOf 0x0C c), none))) ∧
  (∀ (c : AdminCmd) (s u : State), s.admits 0x0C c = true → s.begun 0x0C c = u → c.p0 = 1 → u.powerCmd c = none → exec (.resetPowerCycle c) s = s.ends 0x0C c (({ (u.silence (s.opOf 0x0C c)).complete (s.opOf 0x0C c) { status := stSUCCESS } with seq.nextCause := 7, seq.offMs := if c.p1 = 0 then 1000 else c.p1 }.flushDown, none))) ∧
  (∀ (c : AdminCmd) (s u : State), s.admits 0x0C c = true → s.begun 0x0C c = u → c.p0 = 2 → u.powerCmd c = none → exec (.resetPowerDown c) s = s.ends 0x0C c (({ (u.silence (s.opOf 0x0C c)).complete (s.opOf 0x0C c) { status := stSUCCESS } with seq.stayDown := true }.flushDown, none)))

/-- Tenants, objects and windows (R59 to R64, R74, R76, R78, R344): a command that begins, and whose own conditions hold, has its effect; a revocation goes on until its fence drains. -/
def Obligations.TenantsAndWindowsComplete : Prop :=
  (∀ (c : AdminCmd) (t s u : State), s.admits 0x10 c = true → s.begun 0x10 c = u → 1 ≤ c.target → c.target ≤ 4095 → KM.get u.win.tenants c.target = none → u.drbgStopped = false → u.classD = false → u.makeTenant c.target c.p0 false = some t → exec (.tenantCreate c) s = s.success 0x10 c t (t.storageSlot c.target)) ∧
  (∀ (c : AdminCmd) (x : Tenant) (s u : State), s.admits 0x11 c = true → s.begun 0x11 c = u → KM.get u.win.tenants c.target = some x → x.erasing = false → bit (u.reg pPLD 0x044) 8 = false → exec (.tenantErase c) s = s.ends 0x11 c ((let v := { u with win.tenants := KM.put u.win.tenants c.target { x with erasing := true } }
      let v := v.clearQps ((v.fab.qps.filter fun p => decide (p.2.state ≠ .free ∧ p.2.tenant = c.target)).map (·.1))
      let owned := (v.win.objects.filter fun p => p.2.valid && p.2.owner == c.target).map (·.1)
      let v := v.failStreams stKEY_LOST (v.larder.streams.filter fun x => decide (x.object ∈ owned))
      let wins := (v.win.windows.filter fun p => p.2.valid && (p.2.tenant == c.target || decide (p.2.object ∈ owned))).map (·.1)
      ({ v with win.withdraws := v.win.withdraws ++ [({ windows := wins, objects := owned, tenant := some c.target, op := (s.opOf 0x11 c) } : Withdraw)] }.goOn (s.opOf 0x11 c), none)))) ∧
  (∀ (c : AdminCmd) (k i id : Nat) (pages : List (Nat × Nat)) (s u : State), s.admits 0x12 c = true → s.begun 0x12 c = u → c.p0 ≤ 3 → u.tenantExists c.target = true → u.bindCheck c false = (0, k, pages) → u.pickWindow = some i → u.pickObject = some id → u.overQuota c.target = false → exec (.windowCreate c) s = s.ends 0x12 c ((let v := (u.makeObject id c.target (c.p2 + 2 ^ 32 * c.p3) c.p1 false false true pages).makeWindow i c.target id c.p0 0 c.p1
      let v := v.mirrorMeta (v.mapRecords (pages.map (·.2)) ++ [v.objectRecord id, v.windowRecord i])
      v.afterMirror (s.opOf 0x12 c) { status := stSUCCESS, r0 := handleOf i (v.window i).gen + 2 ^ 32 * id }))) ∧
  (∀ (c : AdminCmd) (k id : Nat) (pages : List (Nat × Nat)) (s u : State), s.admits 0x15 c = true → s.begun 0x15 c = u → c.p4 ≤ 3 → c.p4.testBit 1 = false → u.tenantExists c.target = true → u.bindCheck c false = (0, k, pages) → u.pickObject = some id → exec (.objectCreate c) s = s.ends 0x15 c ((let v := u.makeObject id c.target (c.p2 + 2 ^ 32 * c.p3) c.p1 (c.p4.testBit 0) false false pages
      (v.mirrorMeta (v.mapRecords (pages.map (·.2)) ++ [v.objectRecord id])).afterMirror (s.opOf 0x15 c) { status := stSUCCESS, r0 := id }))) ∧
  (∀ (c : AdminCmd) (i : Nat) (s u : State), s.admits 0x16 c = true → s.begun 0x16 c = u → (u.object c.target).valid = true → (u.object c.target).destroying = false → u.objectHome c.target = true → u.streaming c.target = false → c.p0 ≤ 4095 → c.p1 ≤ 3 → u.tenantExists c.p0 = true → (u.object c.target).gather = false → (u.object c.target).readOnly = false → (u.object c.target).owner = c.p0 → c.p3 ≠ 0 → c.p2 + c.p3 ≤ (u.object c.target).sizePages → u.pickWindow = some i → u.overQuota c.p0 = false → exec (.objectAlias c) s = s.ends 0x16 c ((let v := u.makeWindow i c.p0 c.target c.p1 c.p2 c.p3
      (v.mirrorMeta [v.windowRecord i, v.objectRecord c.target]).afterMirror (s.opOf 0x16 c) { status := stSUCCESS, r0 := handleOf i ((v.mirrorMeta [v.windowRecord i, v.objectRecord c.target]).window i).gen }))) ∧
  (∀ (c : AdminCmd) (s u : State), s.admits 0x13 c = true → s.begun 0x13 c = u → c.p0 = 0 → u.checkHome c.target = none → exec (.windowRevoke c) s = s.ends 0x13 c ((u.revoke (c.target / 256) (s.opOf 0x13 c), none))) ∧
  (∀ (c : AdminCmd) (s u : State), s.admits 0x13 c = true → s.begun 0x13 c = u → c.p0 = 1 → (u.object c.target).valid = true → (u.object c.target).destroying = false → u.objectHome c.target = true → u.streaming c.target = false → u.gatherBusy (u.object c.target) = false → exec (.windowRevokeObject c) s = s.ends 0x13 c (({ u with win.withdraws := u.win.withdraws ++ [({ windows := (u.aliases c.target).map (fun (p : Nat × Window) => p.1), objects := [c.target], tenant := none, op := (s.opOf 0x13 c) } : Withdraw)] }.goOn (s.opOf 0x13 c), none))) ∧
  (∀ (idx : Nat) (s : State), exec (.revokeFenceDrained idx) s = .next ((s.fencesDone (s.win.fences.filter fun f => f.idx == idx)).settleAll.wakeBar2)) ∧
  (∀ (idx : Nat) (s : State), (s.win.fences.any fun f => decide (f.idx = idx ∧ f.kind = .revoke) && !f.late) = true → exec (.revokeLate idx) s = .next (({ s with win.fences := s.win.fences.map fun (f : Fence) => if f.idx = idx then { f with late := true } else f }).fire pTC 2)) ∧
  (∀ (c : AdminCmd) (s u : State), s.admits 0x14 c = true → s.begun 0x14 c = u → u.checkHome c.target = none → c.p0 ≤ 3 → c.p1 ≠ 0 → (u.window (c.target / 256)).firstPage + c.p1 ≤ (u.object (u.window (c.target / 256)).object).sizePages → (u.object (u.window (c.target / 256)).object).readOnly = false → ((u.window (c.target / 256)).write = true → c.p0.testBit 1 = true) → ((u.window (c.target / 256)).read = true → c.p0.testBit 0 = true) → (u.window (c.target / 256)).sizePages ≤ c.p1 → exec (.windowModify c) s = s.ends 0x14 c ((let v := u.setWindow (c.target / 256) (cutPin { u.window (c.target / 256) with write := c.p0.testBit 1, read := c.p0.testBit 0, sizePages := c.p1 } c.p1)
      (v.mirrorMeta [v.windowRecord (c.target / 256)]).afterMirror (s.opOf 0x14 c) { status := stSUCCESS }))) ∧
  (∀ (c : AdminCmd) (s u : State), s.admits 0x14 c = true → s.begun 0x14 c = u → u.checkHome c.target = none → c.p0 ≤ 3 → c.p1 ≠ 0 → (u.window (c.target / 256)).firstPage + c.p1 ≤ (u.object (u.window (c.target / 256)).object).sizePages → (u.object (u.window (c.target / 256)).object).readOnly = false → c.p1 < (u.window (c.target / 256)).sizePages → exec (.windowModify c) s = s.ends 0x14 c ((let w := u.window (c.target / 256)
      let v := u.setWindow (c.target / 256) (cutPin { w with write := c.p0.testBit 1, read := c.p0.testBit 0, sizePages := c.p1 } c.p1)
      let v := (v.mirrorMeta [v.windowRecord (c.target / 256)]).freeCached (c.target / 256) 2
      ({ v with win.fences := v.win.fences ++ [({ idx := c.target / 256, kind := .modify (w.write && !c.p0.testBit 1) (w.read && !c.p0.testBit 0) c.p1, op := (s.opOf 0x14 c), since := v.now, abandoned := 0, late := false } : Fence)] }, none))))

/-- WINDOW_HINT, CACHE_INVALIDATE and cache fills (R69 to R72, R79, R263). -/
def Obligations.WindowHintsAndCachesComplete : Prop :=
  (∀ (c : AdminCmd) (s u : State), s.admits 0x17 c = true → s.begun 0x17 c = u → c.p0 = 1 → u.checkHandle c.target = none → (u.win.cache.any fun e => e.idx == c.target / 256) = false → exec (.hintPreload c) s = s.ends 0x17 c (({ u with win.fills := u.win.fills ++ [{ idx := c.target / 256, gen := c.target % 256, stale := false, tries := 0, op := (s.opOf 0x17 c) }] }, none))) ∧
  (∀ (c : AdminCmd) (e : CachedWindow) (s u : State), s.admits 0x17 c = true → s.begun 0x17 c = u → c.p0 = 2 → u.checkHandle c.target = none → (u.win.cache.find? fun e => e.idx == c.target / 256) = some e → e.locked = false → (u.win.cache.filter fun x => x.locked).length < 32 → exec (.hintLock c) s = s.success 0x17 c (u.setCache (u.win.cache.map fun x => if x.idx = c.target / 256 then { x with locked := true } else x))) ∧
  (∀ (c : AdminCmd) (s u : State), s.admits 0x17 c = true → s.begun 0x17 c = u → c.p0 = 3 → u.checkHandle c.target = none → exec (.hintUnlock c) s = s.success 0x17 c (u.setCache (u.win.cache.map fun x => if x.idx = c.target / 256 then { x with locked := false } else x))) ∧
  (∀ (c : AdminCmd) (s u : State), s.admits 0x17 c = true → s.begun 0x17 c = u → c.p0 = 4 → u.checkHome c.target = none → c.p2 ≠ 0 → c.p1 + c.p2 ≤ (u.window (c.target / 256)).sizePages → exec (.hintPinUp c) s = s.ends 0x17 c ((let v := u.setWindow (c.target / 256) { u.window (c.target / 256) with pinSet := true, pinFirst := c.p1, pinCount := c.p2 }
      (v.mirrorMeta [v.windowRecord (c.target / 256)]).afterMirror (s.opOf 0x17 c) { status := stSUCCESS }))) ∧
  (∀ (c : AdminCmd) (s u : State), s.admits 0x17 c = true → s.begun 0x17 c = u → c.p0 = 5 → u.checkHome c.target = none → exec (.hintPinClear c) s = s.ends 0x17 c ((let v := u.setWindow (c.target / 256) { u.window (c.target / 256) with pinSet := false, pinFirst := 0, pinCount := 0 }
      (v.mirrorMeta [v.windowRecord (c.target / 256)]).afterMirror (s.opOf 0x17 c) { status := stSUCCESS }))) ∧
  (∀ (c : AdminCmd) (s u : State), s.admits 0x17 c = true → s.begun 0x17 c = u → c.p0 = 6 → u.checkHandle c.target = none → c.p2 ≠ 0 → c.p2 ≤ 4096 → c.p1 + c.p2 ≤ (u.window (c.target / 256)).sizePages → exec (.hintReadahead c) s = s.ends 0x17 c ((let w := u.window (c.target / 256)
      let pages := ((List.range' (w.firstPage + c.p1) c.p2).filterMap fun i => u.objectPage (u.object w.object) i).filter isCellar
      let here := (pages.filter fun p => u.isStaged p).length
      let ask := pages.filter fun p => decide ((u.mapOf p).state = .mapped) && !u.isStaged p
      let v := ask.foldl (fun v p => v.stage p (s.opOf 0x17 c)) u
      if ask = [] then (v, good here) else ({ v with cellar.hints := v.cellar.hints ++ [{ op := (s.opOf 0x17 c), left := ask, staged := here }] }, none)))) ∧
  (∀ (c : AdminCmd) (s u : State), s.admits 0x19 c = true → s.begun 0x19 c = u → c.target = 1 → c.p0 ≤ 3 → exec (.cacheInvalidate c) s = s.success 0x19 c (u.transInvalidate fun o p => c.p0 = 0 || (c.p0 = 2 && o == c.p1) || (c.p0 = 3 && o == c.p1 && p == c.p2))) ∧
  (∀ (c : AdminCmd) (s u : State), s.admits 0x19 c = true → s.begun 0x19 c = u → c.target = 2 → c.p0 ≤ 3 → exec (.cacheInvalidate c) s = s.success 0x19 c ((u.freeCachedAll 0 ((u.win.cache.map (·.idx) ++ (u.win.fills.map (·.idx)).filter fun i => !(u.win.cache.any fun e => e.idx == i)).filter fun i => u.covered c i)).transInvalidate fun o p => c.p0 = 0 || (c.p0 = 2 && o == c.p1) || (c.p0 = 3 && o == c.p1 && p == c.p2))) ∧
  (∀ (idx : Nat) (f : WindowFill) (s : State), (s.win.fills.find? fun f => f.idx == idx) = some f → f.stale = false → (s.win.cache.any fun e => e.idx == idx) = false → exec (.windowCacheFillDone idx) s = .next (({ s with win.fills := s.win.fills.eraseP fun x => x.idx == idx }.install idx).complete f.op { status := stSUCCESS })) ∧
  (∀ (idx : Nat) (f : WindowFill) (s : State), (s.win.fills.find? fun f => f.idx == idx) = some f → f.stale = true → (s.window idx).valid = true → (s.window idx).revoking = false → (s.window idx).gen = f.gen → f.tries < 4 → exec (.windowCacheFillDone idx) s = .next (let v := { s with win.fills := s.win.fills.eraseP fun x => x.idx == idx }.bump pTC 0x058
      { v with win.fills := (s.win.fills.eraseP fun x => x.idx == idx) ++ [{ f with stale := false, tries := f.tries + 1 }] })) ∧
  (∀ (object page : Nat) (f : TransFill) (s : State), (s.win.transFills.find? fun f => f.object == object && f.page == page) = some f → exec (.translationFillDone object page) s = .next (let v := { s with win.transFills := s.win.transFills.filter fun x => !(x.object == object && x.page == page) }
      if f.stale then v.bump pTC 0x058 else v.transInstall object page))

/-- Migration and the zero-fill of released pages (R66, R77, R80, R82, R83): the effect of each command where the rules give it one. A page list entry that names a page is the one MIGRATE rewrites. -/
def Obligations.MigrationAndScrubComplete : Prop :=
  (∀ (c : AdminCmd) (s u : State), s.admits 0x18 c = true → s.begun 0x18 c = u → (u.object c.target).valid = true → (u.object c.target).destroying = false → c.p2 = 1 → c.p1 ≠ 0 → c.p1 ≤ 4096 → c.p0 + c.p1 ≤ (u.object c.target).sizePages → 8 * c.p1 ≤ (proper c).length → u.objectHome c.target = true → u.streaming c.target = false → (((List.range c.p1).map fun k => leNat (((proper c).drop (8 * k)).take 8)).any fun d => decide (d % 16384 ≠ 0)) = false → exec (.migratePromote c) s = s.ends 0x18 c ((let dests := (List.range c.p1).map fun k => leNat (((proper c).drop (8 * k)).take 8)
      let work := (List.range c.p1).map fun k => (c.p0 + k, dests.getD k 0 / 16384, false)
      ({ u with win.migrations := u.win.migrations ++ [({ op := (s.opOf 0x18 c), object := c.target, demote := false, work, phase := .claim, source := 0 } : Migration)] }.nextPage (s.opOf 0x18 c), none)))) ∧
  (∀ (c : AdminCmd) (s u : State), s.admits 0x18 c = true → s.begun 0x18 c = u → (u.object c.target).valid = true → (u.object c.target).destroying = false → c.p2 = 2 → c.p1 ≠ 0 → c.p1 ≤ 4096 → c.p0 + c.p1 ≤ (u.object c.target).sizePages → 8 * c.p1 ≤ (proper c).length → u.objectHome c.target = true → u.streaming c.target = false → (((List.range c.p1).map fun k => leNat (((proper c).drop (8 * k)).take 8)).any fun d => decide (d % 16384 ≠ 0)) = false → exec (.migrateDemote c) s = s.ends 0x18 c ((let dests := (List.range c.p1).map fun k => leNat (((proper c).drop (8 * k)).take 8)
      let work := (List.range c.p1).map fun k => (c.p0 + k, dests.getD k 0 / 16384, false)
      ({ u with win.migrations := u.win.migrations ++ [({ op := (s.opOf 0x18 c), object := c.target, demote := true, work, phase := .claim, source := 0 } : Migration)] }.nextPage (s.opOf 0x18 c), none)))) ∧
  (∀ (op : Nat) (m : Migration) (i dest : Nat) (r : Bool) (rest : List (Nat × Nat × Bool)) (d : KMap Byte) (s : State), s.migration op = some m → m.work = (i, dest, r) :: rest → m.phase = .copy → s.pageData m.source = some (d, []) → m.lines ≠ [] → exec (.migrateCopyRoundDone op) s = .next ((s.copyRanges dest d true [(0, 4096), (4096, 4096), (8192, 4096), (12288, 4096)]).setMigration
      { m with phase := .recopy 1, todo := m.lines, lines := [] })) ∧
  (∀ (op : Nat) (m : Migration) (i dest : Nat) (r : Bool) (rest : List (Nat × Nat × Bool)) (d : KMap Byte) (s : State), s.migration op = some m → m.work = (i, dest, r) :: rest → m.phase = .copy → s.pageData m.source = some (d, []) → m.lines = [] → exec (.migrateCopyRoundDone op) s = .next ((s.copyRanges dest d true [(0, 4096), (4096, 4096), (8192, 4096), (12288, 4096)]).sendSwitch m i dest)) ∧
  (∀ (op : Nat) (m : Migration) (i dest : Nat) (r : Bool) (rest : List (Nat × Nat × Bool)) (s : State), s.migration op = some m → m.work = (i, dest, r) :: rest → m.phase = .switching → s.appliedTo m.switchMseq = true → exec (.migrateSwitchConfirmed op) s = .next (let dpa := (s.object m.object).pageList + 8 * i
      let v := ((s.chargePage (pageOf dpa) 0).countStore dpa false true).loftPut dpa (leBytes 8 (entryValue dest))
      let v := (v.logPage (pageOf dpa)).transInvalidate fun o p => o == m.object && p == i
      let v := v.releasePage m.source
      let v := v.mirrorMeta (v.mapRecords [m.source]) [m.source]
      let v := v.setLocks (KM.del v.win.locks (lockKey m.object i))
      ((v.setMigration { m with work := rest, phase := .claim, switched := m.switched + 1, stalled := false }).nextPage op).wakeBar2)) ∧
  (∀ (op : Nat) (m : Migration) (i dest : Nat) (r : Bool) (rest : List (Nat × Nat × Bool)) (s : State), s.migration op = some m → m.work = (i, dest, r) :: rest → m.phase = .stalled → exec (.migrateStallLimit op) s = .next (let v := s.fire pTC 3
      if r then v.endMigration m { status := stBUSY_RETRY, r0 := 100 }
      else ((v.dropPage m).setMigration { m with work := rest ++ [(i, dest, true)], phase := .claim, stalled := false }).nextPage op)) ∧
  (∀ (page : Nat) (s : State), (s.mapOf page).state = .scrubbing → isCellar page = false → exec (.moverZeroFillDone page) s = .next (((((s.countPage page false).zeroPageBytes page).changeMap page {}).mirrorMeta [.mapState page 0] [page]).endDestroy (s.mapOf page).object))

/-- Fabric queue pairs, peers and planes (R110, R111, R113, R114, R119, R141). That QP_DESTROY passes CLOSING within its step is the model's choice (log 12). -/
def Obligations.QueuePairsAndPlanesComplete : Prop :=
  (∀ (c : AdminCmd) (e : Peer) (s u : State), s.admits 0x20 c = true → s.begun 0x20 c = u → 1 ≤ c.target → c.target ≤ 1048575 → c.p0 % 4096 ≠ 0 → u.tenantExists (c.p0 % 4096) = true → u.peer (c.p0 / 4096 % 4096) = some e → e.planeEn ≠ 0 → c.p1 / 2 ^ 20 % 256 ≠ 0 → (c.p0.testBit 24 = true → c.p6 % 8192 ≠ 0) → clearBits c.p0 0xFC000000 = true → clearBits c.p1 0xF0000000 = true → clearBits c.p5 0xC000 = true → clearBits c.p6 0xE000E000 = true → clearBits c.p7 0xE000E000 = true → c.p8 < 65536 → c.p9 = 0 → u.sealingSlot (c.p0 % 4096) (c.p6 % 8192) = true → u.sealingSlot (c.p0 % 4096) (c.p6 / 65536 % 8192) = true → u.sealingSlot (c.p0 % 4096) (c.p7 % 8192) = true → u.sealingSlot (c.p0 % 4096) (c.p7 / 65536 % 8192) = true → (u.qp c.target).state = .free → exec (.qpCreate c) s = s.success 0x20 c ((u.staleFetch c.target).setQp c.target
        { state := if c.p0.testBit 25 then .init else .ready, sealReq := c.p0.testBit 24, peer := c.p0 / 4096 % 4096, tenant := c.p0 % 4096,
          respPlanes := c.p1 / 2 ^ 20 % 256, peerQpn := c.p1 % 2 ^ 20, cumPsn := c.p2, cmsn := dec32 c.p3, respPsn := c.p4,
          ackDelay := if c.p5 / 2 ^ 24 = 0 then 8 else c.p5 / 2 ^ 24, ackEvery := if c.p5 / 65536 % 256 = 0 then 16 else c.p5 / 65536 % 256,
          entropyBase := c.p5 % 16384, rxKey0 := c.p6 % 8192, rxKey1 := c.p6 / 65536 % 8192, txKey0 := c.p7 % 8192, txKey1 := c.p7 / 65536 % 8192,
          timeout := if c.p8 = 0 then 100 else c.p8, headArrival := (u.staleFetch c.target).now })) ∧
  (∀ (c : AdminCmd) (s u : State), s.admits 0x21 c = true → s.begun 0x21 c = u → 1 ≤ c.target → c.target ≤ 1048575 → c.p0 = 1 → decide ((u.qp c.target).state = .init) = true → exec (.qpModifyReady c) s = s.success 0x21 c ((u.staleFetch c.target).setQp c.target { u.qp c.target with state := .ready })) ∧
  (∀ (c : AdminCmd) (s u : State), s.admits 0x21 c = true → s.begun 0x21 c = u → 1 ≤ c.target → c.target ≤ 1048575 → c.p0 = 2 → decide ((u.qp c.target).state = .ready) = true → exec (.qpModifyError c) s = s.success 0x21 c ((((u.staleFetch c.target).setQp c.target { u.qp c.target with state := .error, failMsn := inc32 (u.qp c.target).cmsn, failCause := 0xF2 }).fire pTC 4).publish pTC 0x0A8
        [0xF2 * 2 ^ 20 + c.target, inc32 (u.qp c.target).cmsn] 64)) ∧
  (∀ (c : AdminCmd) (s u : State), s.admits 0x21 c = true → s.begun 0x21 c = u → 1 ≤ c.target → c.target ≤ 1048575 → c.p0 = 3 → decide ((u.qp c.target).state = .error) = true → (u.qp c.target).openMsgs = 0 → exec (.qpModifyReset c) s = s.success 0x21 c (((u.staleFetch c.target).setQp c.target
        { u.qp c.target with state := .init, cumPsn := c.p1, cmsn := dec32 c.p2, respPsn := c.p3, failMsn := 0, failCause := 0, received := [], fresh := [],
                             slot := false, sinceAck := 0, delay := none, owed := [], headArrival := (u.staleFetch c.target).now }).showSlots.kick c.target)) ∧
  (∀ (c : AdminCmd) (s u : State), s.admits 0x21 c = true → s.begun 0x21 c = u → 1 ≤ c.target → c.target ≤ 1048575 → c.p0 = 4 → liveQp (u.qp c.target).state = true → c.p1 / 2 ^ 20 % 256 ≠ 0 → clearBits c.p1 0xF00FC000 = true → exec (.qpModifyPaths c) s = s.success 0x21 c ((u.staleFetch c.target).setQp c.target { u.qp c.target with respPlanes := c.p1 / 2 ^ 20 % 256, entropyBase := c.p1 % 16384 })) ∧
  (∀ (c : AdminCmd) (s u : State), s.admits 0x21 c = true → s.begun 0x21 c = u → 1 ≤ c.target → c.target ≤ 1048575 → c.p0 = 5 → liveQp (u.qp c.target).state = true → c.p1 ≤ 1 → exec (.qpModifyKeysel c) s = s.success 0x21 c ((u.staleFetch c.target).setQp c.target { u.qp c.target with txKeySel := c.p1 = 1 })) ∧
  (∀ (c : AdminCmd) (s u : State), s.admits 0x21 c = true → s.begun 0x21 c = u → 1 ≤ c.target → c.target ≤ 1048575 → c.p0 = 6 → liveQp (u.qp c.target).state = true → exec (.qpModifySync c) s = s.success 0x21 c ((u.staleFetch c.target).writeBack c.target)) ∧
  (∀ (c : AdminCmd) (s u : State), s.admits 0x21 c = true → s.begun 0x21 c = u → 1 ≤ c.target → c.target ≤ 1048575 → c.p0 = 7 → liveQp (u.qp c.target).state = true → c.p1 / 2 ^ 24 ≠ 0 → c.p1 / 65536 % 256 ≠ 0 → c.p1 % 65536 = 0 → exec (.qpModifyAcks c) s = s.success 0x21 c ((u.staleFetch c.target).setQp c.target { u.qp c.target with ackDelay := c.p1 / 2 ^ 24, ackEvery := c.p1 / 65536 % 256 })) ∧
  (∀ (c : AdminCmd) (s u : State), s.admits 0x22 c = true → s.begun 0x22 c = u → 1 ≤ c.target → c.target ≤ 1048575 → liveQp (u.qp c.target).state = true → exec (.qpDestroy c) s = s.success 0x22 c ((u.staleFetch c.target).clearQp c.target) (((u.staleFetch c.target).openOf c.target).filter fun p => !p.2.read).length) ∧
  (∀ (c : AdminCmd) (s u : State), s.admits 0x23 c = true → s.begun 0x23 c = u → c.target ≤ 4095 → 256 ≤ properLen c → 256 ≤ (proper c).length → leNat (((proper c).drop 176).take 4) ≤ 255 → leNat (((proper c).drop 180).take 4) < 2 ^ 20 → leNat (((proper c).drop 184).take 4) < 2 ^ 20 → ((((proper c).drop 188).take 68).any fun x => x ≠ 0) = false → exec (.peerSet c) s = s.success 0x23 c (let e : Peer :=
        { addr := (List.range 8).map fun p => beNat (((proper c).drop (16 * p)).take 16),
          nextHop := (List.range 8).map fun p => beNat (((proper c).drop (128 + 6 * p)).take 6),
          planeEn := leNat (((proper c).drop 176).take 4), probeLocal := leNat (((proper c).drop 180).take 4),
          probePeer := leNat (((proper c).drop 184).take 4) }
      { u with fab.peers := KM.put u.fab.peers c.target e }.freshRates c.target (bitList (leNat (((proper c).drop 176).take 4)) 8))) ∧
  (∀ (c : AdminCmd) (s u : State), s.admits 0x24 c = true → s.begun 0x24 c = u → c.p0 = 1 → c.target < u.planes → c.p1 ≤ 1000 → (u.plane c.target).out = false → (u.plane c.target).draining = none → exec (.planeControlOut c) s = s.ends 0x24 c ((let v := u.setPlane c.target { u.plane c.target with draining := some (s.opOf 0x24 c) }
      let v := { v with age.queue := v.age.queue.filter fun l => l.page ≠ pFP c.target }
      let w := v.setFld pFPC 0x188 c.target c.target 0
      (if v.inService c.target then w.fire pFPC 5 else w, none)))) ∧
  (∀ (plane op : Nat) (s : State), (s.plane plane).draining = some op → op ≠ 0 → exec (.planeDrainExpire plane) s = .next (let v := (s.setPlane plane { s.plane plane with draining := none, out := true }).discardQueue plane
      let v := { v with arch.inService := v.arch.inService.filter (· ≠ pFP plane) }.setFld (pFP plane) 0x008 0 0 0
      (((v.setPlaneBits plane false false).setPg (pFP plane) .off 2).complete op { status := stSUCCESS }).settleAll)) ∧
  (∀ (c : AdminCmd) (s u : State), s.admits 0x24 c = true → s.begun 0x24 c = u → c.p0 = 2 → c.target < u.planes → (u.plane c.target).out = true → u.planeDead c.target = false → u.pg (pFP c.target) ≠ .fenced → u.pg (pFP c.target) ≠ .failed → exec (.planeControlIn c) s = s.ends 0x24 c ((let v := (u.setPlane c.target { u.plane c.target with out := false, returning := some (s.opOf 0x24 c) }).setFld (pFP c.target) 0x008 0 0 1
      if v.pg (pFP c.target) = .service then (v.planeBack c.target, good) else (v.tryStart (pFP c.target), none))))

/-- Shares, policy, the power cap, and the operations of the pair (R153, R199, R202, R235, R239, R240). -/
def Obligations.PolicySwapAndAuditComplete : Prop :=
  (∀ (c : AdminCmd) (x : Tenant) (s u : State), s.admits 0x25 c = true → s.begun 0x25 c = u → KM.get u.win.tenants c.target = some x → c.target ≠ 0 → c.p0 ≤ 255 → c.p1 ≤ 6400 → exec (.tenantShare c) s = s.success 0x25 c ({ u with win.tenants := KM.put u.win.tenants c.target { x with weight := if c.p0 = 0 then 16 else c.p0, cap := c.p1 } })) ∧
  (∀ (c : AdminCmd) (s u : State), s.admits 0x30 c = true → s.begun 0x30 c = u → c.p0 = 1 ∨ c.p0 = 2 → 16 ≤ (if c.p1 = 0 then 32 else c.p1) → (if c.p1 = 0 then 32 else c.p1) ≤ 32 → c.p2 ≤ 1 → (c.p0 = 2 → c.p2 ≠ 0) → exec (.policySet c) s = s.success 0x30 c (((((u.setFld pLG 0x040 1 0 c.p0).setFld pLG 0x040 13 8 (if c.p1 = 0 then 32 else c.p1)).setFld pLG 0x040 30 30 c.p2).checkTc)) (b2n (bit (((((u.setFld pLG 0x040 1 0 c.p0).setFld pLG 0x040 13 8 (if c.p1 = 0 then 32 else c.p1)).setFld pLG 0x040 30 30 c.p2).checkTc).reg pLG 0x040) 31))) ∧
  (∀ (c : AdminCmd) (s u : State), s.admits 0x31 c = true → s.begun 0x31 c = u → 400 ≤ c.p0 → c.p0 ≤ 3000 → exec (.powerCapSet c) s = s.success 0x31 c (u.setNum pLG 0x08C c.p0)) ∧
  (∀ (c : AdminCmd) (s u : State), s.admits 0x31 c = true → s.begun 0x31 c = u → c.p0 = 0 → exec (.powerCapSet c) s = s.success 0x31 c (u.setNum pLG 0x08C 0)) ∧
  (∀ (c : AdminCmd) (s u : State), s.admits 0x32 c = true → s.begun 0x32 c = u → c.p0 = 1 → c.p1 ≤ c.p2 → c.p1 ≠ 0 → c.p2 ≤ 16777215 → u.pair = 1 → u.twin.swap = none → (u.win.windows.any fun p => p.2.valid && decide (c.p1 ≤ p.1 ∧ p.1 ≤ c.p2) && !u.homeHere p.1) = false → exec (.roleSwap c) s = s.ends 0x32 c (({ u with twin.swap := some { op := (s.opOf 0x32 c), first := c.p1, last := c.p2, sentAt := none } }, none))) ∧
  (∀ (w : RoleSwap) (s : State), s.twin.swap = some w → w.sentAt = none → s.writesIn w.first w.last = false → exec .roleSwapDrained s = .next (({ s with twin.swap := some { w with sentAt := some s.mseqTx } }).mirrorMeta [.role w.first w.last (1 - s.side)] [])) ∧
  (∀ (c : AdminCmd) (s u : State), s.admits 0x33 c = true → s.begun 0x33 c = u → c.p0 ≤ 1 → u.pair = 3 → u.twin.resync = none → u.twinPorts ≠ [] → u.twin.seen = true → exec (.resyncStart c) s = s.ends 0x33 c ((let v := u.clearCredits [0, 1, 2, 3]
      let v := { v with twin.resync := some { op := (s.opOf 0x33 c), sender := true, resume := false, full := c.p0 = 1, logIn := false, left := [], copied := 0 } }
      ((v.setFld pTWC 0x044 8 8 1).beginCopy, none)))) ∧
  (∀ (x : Resync) (s : State), s.twin.resync = some x → x.left = [] → s.twin.sent = [] → s.twin.reorder = [] → (x.sender = true → x.logIn = true) → exec .resyncComplete s = .next (let v := (((({ s with twin.resync := none, twin.seen := false }).setFld pTWC 0x044 8 8 0).clearLog).setFld pTWC 0x088 0 0 1).clearCredits [0, 1, 2, 3]
      (((v.setPair 1).fire pTWC 5).complete x.op { status := stSUCCESS, r0 := x.copied }).completeWaits (2 ^ 64))) ∧
  (∀ (c : AdminCmd) (s u : State), s.admits 0x34 c = true → s.begun 0x34 c = u → c.p0 + 2 ^ 32 * c.p1 < 2 ^ 35 → c.p3 ≤ 1 → c.p4 ≠ 0 → c.p4 ≤ 1024 → u.pair = 1 → u.twin.audit = none → exec (.auditStart c) s = s.ends 0x34 c ((let first := c.p0 + 2 ^ 32 * c.p1
      let pages := (u.win.map.filter fun p => decide (first ≤ p.1 ∧ p.1 < first + c.p2 ∧ p.2.state ≠ .free ∧ p.2.state ≠ .scrubbing ∧ p.2.state ≠ .retired) &&
        (u.object p.2.object).valid && u.objectHome p.2.object).map (·.1)
      (({ u with twin.audit := some { op := (s.opOf 0x34 c), left := pages, repair := c.p3 = 1, rate := c.p4 } }.sendAudits 1025).endAudit, none))))

/-- Keys and streams (R332 to R342, R352, R354). Unwrapping, the curve check, the key agreement and the GCM functions are functions of Config without a body (log 6): the statement holds whatever they answer. -/
def Obligations.KeysAndStreamsComplete : Prop :=
  (∀ (c : AdminCmd) (s u : State), s.admits 0x40 c = true → s.begun 0x40 c = u → importParam c.p0 = true → c.p1 ≤ 8191 → pairsWrapped (c.p0 % 8) c.target (c.p0 / 65536 % 4096) = true → 40 ≤ (proper c).length → u.alarmed = none → u.mayUnwrap c.p1 (c.p0 / 65536 % 4096) = true → (u.slot c.target).state = .empty → exec (.keyImportWrapped c) s = s.ends 0x40 c ((match Config.unwrap3394 (u.slot c.p1).key ((proper c).take 40) with
      | none => (u, bad stINVALID_FIELD 0 1)
      | some key => (u.loadSlot c.target (c.p0 % 8) (c.p0 / 65536 % 4096) key, good (kcvOf key))))) ∧
  (∀ (c : AdminCmd) (s u : State), s.admits 0x41 c = true → s.begun 0x41 c = u → importParam c.p0 = true → pairsEcdh (c.p0 % 8) c.target (c.p0 / 65536 % 4096) = true → 144 ≤ (proper c).length → u.alarmed = none → (u.slot c.target).state = .empty → (proper c).take 1 = [4] → exec (.keyImportEcdh c) s = s.ends 0x41 c ((if Config.onCurve ((proper c).take 97) = false then (u, bad stINVALID_FIELD 0 2)
      else
        match Config.unwrap3394 (Config.ecdhKek (u.slot 1).key ((proper c).take 97) (u.fixedInfo c.target (c.p0 / 65536 % 4096))) (((proper c).drop 104).take 40) with
        | none => (u, bad stINVALID_FIELD 0 1)
        | some key => (u.loadSlot c.target (c.p0 % 8) (c.p0 / 65536 % 4096) key, good (kcvOf key))))) ∧
  (∀ (c : AdminCmd) (s u : State), s.admits 0x42 c = true → s.begun 0x42 c = u → c.target ≤ 8191 → fixedSlot c.target = false → c.p0.testBit 31 = false → c.p1 ≤ 8191 → 40 ≤ (proper c).length → u.alarmed = none → (u.slot c.target).state = .active → (u.slot c.target).kind ≠ 1 → (u.slot c.target).kind ≠ 3 → u.mayUnwrap c.p1 (u.slot c.target).owner = true → exec (.keyRewrite c) s = s.ends 0x42 c ((match Config.unwrap3394 (u.slot c.p1).key ((proper c).take 40) with
      | none => (u, bad stINVALID_FIELD 0 1)
      | some key => (u.beginRewrite c.target key (s.opOf 0x42 c), none)))) ∧
  (∀ (c : AdminCmd) (n : Nat) (x : Tenant) (s u : State), s.admits 0x42 c = true → s.begun 0x42 c = u → c.target ≤ 8191 → fixedSlot c.target = false → c.p0.testBit 31 = true → u.alarmed = none → (u.slot c.target).state = .active → (u.slot c.target).kind = 3 → u.isCurrent c.target = true → u.freeSlot = some n → KM.get u.win.tenants (u.slot c.target).owner = some x → exec (.keyRewriteNewStorage c) s = s.success 0x42 c ((let v := u.drawKey.2.loadSlot n 3 (u.slot c.target).owner u.drawKey.1
      let v := { v with win.tenants := KM.put v.win.tenants (u.slot c.target).owner { x with slot := n } }
      v.dropRef c.target)) n) ∧
  (∀ (slot key : Nat) (s : State), (s.slot slot).shadow = some key → (s.slot slot).state = .shadowed → s.preCount slot = 0 → exec (.rewriteSwitch slot) s = .next (let k := s.slot slot
      let v := (s.drawSalt slot k.kind 3).2.setSlot slot { state := .active, kind := k.kind, owner := k.owner, key, salt := (s.drawSalt slot k.kind 3).1 }
      let v := { v with larder.tombs := insertSorted slot v.larder.tombs }
      (v.complete k.rewriteOp { status := stSUCCESS, r0 := kcvOf key }).dispatchAll)) ∧
  (∀ (c : AdminCmd) (s u : State), s.admits 0x43 c = true → s.begun 0x43 c = u → c.target ≤ 8191 → fixedSlot c.target = false → (u.slot c.target).kind ≠ 3 → c.target ≠ 3 → c.target ≠ 4 → exec (.keyZeroise c) s = s.success 0x43 c ((u.zeroise c.target).2) (u.zeroise c.target).1) ∧
  (∀ (c : AdminCmd) (aadLen ctLen segs : Nat) (s u : State), s.admits 0x44 c = true → s.begun 0x44 c = u → leNat (((proper c).drop 12).take 4) = aadLen → leNat (((proper c).drop 16).take 8) = ctLen → leNat (((proper c).drop 24).take 2) = segs → c.target ≤ 8191 → (u.object c.p0).valid = true → (u.object c.p0).destroying = false → (u.slot c.target).state ≠ .empty → (u.slot c.target).kind = 4 → (u.slot c.target).owner = (u.object c.p0).owner → aadLen ≤ 4096 → ctLen ≠ 0 → ctLen ≤ 2 ^ 34 → segs ≠ 0 → 64 + (aadLen + 15) / 16 * 16 + 16 * segs ≤ (proper c).length → ((List.range segs).map fun i => leNat (((proper c).drop (64 + (aadLen + 15) / 16 * 16 + 16 * i + 8)).take 4)).foldl (· + ·) 0 = ctLen → c.p1 + (ctLen + 16383) / 16384 ≤ (u.object c.p0).sizePages → u.pair = 1 ∨ u.pair = 3 → (u.object c.p0).aliasCount = 0 → ((List.range' c.p1 ((ctLen + 16383) / 16384)).any fun i => (match u.objectPage (u.object c.p0) i with | some p => isCellar p || u.pendingTag p | none => true) || (KM.get u.win.locks (lockKey c.p0 i)).isSome) = false → bit (u.reg pPLD 0x044) 8 = false → u.larder.streams.length < 4 → exec (.streamOpen c) s = s.ends 0x44 c (({ u with larder.streams := u.larder.streams ++
          [{ op := (s.opOf 0x44 c), slot := c.target, salt := beNat ((proper c).take 4), counter := beNat (((proper c).drop 4).take 8), aad := ((proper c).drop 64).take aadLen,
             tag := ((proper c).drop 32).take 16, object := c.p0, first := c.p1, ctLen }] }, none))) ∧
  (∀ (op : Nat) (ct : List Byte) (x : Stream) (page : Nat) (s : State), (s.larder.streams.find? fun x => x.op == op) = some x → (s.slot x.slot).state ≠ .empty → ct.length = min 16384 (x.ctLen - x.ct.length) → s.objectPage (s.object x.object) (x.first + x.ct.length / 16384) = some page → s.bar2Fits [page] ct.length = true → exec (.streamSegDone op ct true) s = .next (let v := (s.tallyAdd (s.object x.object).owner 6 ct.length).placeStream page (((Config.gcmOpen (s.slot x.slot).key (streamNonce x) (x.ct ++ ct)).drop x.ct.length).take ct.length)
      let y : Stream := { x with ct := x.ct ++ ct }
      let v := { v with larder.streams := v.larder.streams.map fun (z : Stream) => if z.op = op then y else z }
      if (x.ct ++ ct).length < x.ctLen then v
      else if Config.gcmOk (s.slot x.slot).key (streamNonce y) x.aad (x.ct ++ ct) x.tag then
        ({ v with larder.streams := v.larder.streams.filter fun z => z.op ≠ op }).complete op { status := stSUCCESS, r0 := (streamPages y).length }
      else (v.bump pLD 0x05C).failStream y stTAG_FAIL))

/-- Firmware, core swap, configuration records, Tally rings and the history (R369 to R388, R455, R463). The 4 KiB alignment of a chunk is the model's choice (log 36). -/
def Obligations.FirmwareAndRecordsComplete : Prop :=
  (∀ (c : AdminCmd) (s u : State), s.admits 0x50 c = true → s.begun 0x50 c = u → c.p1 ≤ 3 → properLen c ≠ 0 → properLen c ≤ 2 ^ 20 → c.p0 % 4096 = 0 → c.p0 + properLen c ≤ (if c.p1.testBit 1 then 0x20000 else 0x180000) → u.cmdLocked c pSTW = false → u.cmdLocked c pAC = false → u.stw.live = none → exec (.fwStage c) s = s.ends 0x50 c ((if c.p1.testBit 1 then u.stageBoot c.p0 ((proper c).take (properLen c)) (c.p1.testBit 0) else u.stageMain c.p0 ((proper c).take (properLen c)) (c.p1.testBit 0)))) ∧
  (∀ (c : AdminCmd) (s u : State), s.admits 0x51 c = true → s.begun 0x51 c = u → c.p0 = 1 → c.p1 ≤ 1 → u.cmdLocked c pSTW = false → 1 - u.bank_ ∉ u.attic.invalidBanks → exec (.fwActivateNextReset c) s = s.success 0x51 c ({ u with stw.nextBank := some (1 - u.bank_), stw.raiseFloor := decide (c.p1 = 1) })) ∧
  (∀ (c : AdminCmd) (s u : State), s.admits 0x51 c = true → s.begun 0x51 c = u → c.p0 = 0 → c.p1 ≤ 1 → u.cmdLocked c pSTW = false → u.stwState = 1 → u.spare < 3 → 1 - u.bank_ ∉ u.attic.invalidBanks → exec (.fwActivateLive c) s = s.ends 0x51 c (({ u with stw.live := some ((s.opOf 0x51 c), 1), stw.raiseFloor := decide (c.p1 = 1) }.setStw 5, none))) ∧
  (∀ (step : Nat) (ok : Bool) (data : List (Nat × Byte)) (op : Nat) (s : State), s.stw.live = some (op, step) → s.stwState = 5 → exec (.liveActivationStepDone step ok data) s = .next (if ok then s.liveStep op step data else s.failLive)) ∧
  (∀ (s : State), bit (s.reg pSTW 0x040) 27 = true → exec .probationEnd s = .next ({ s with stw.previousBank := none }.setFld pSTW 0x040 27 27 0)) ∧
  (∀ (c : AdminCmd) (s u : State), s.admits 0x52 c = true → s.begun 0x52 c = u → c.target ≤ 2 → c.p0 ≤ 1 → u.cmdLocked c pSTW = false → u.cmdLocked c (pSC c.target) = false → u.stwState = 1 → u.spare < 3 → c.target = u.lead ∨ c.target = u.shadow → exec (.coreSwap c) s = s.ends 0x52 c (({ u with stw.swap := some ((s.opOf 0x52 c), c.target, decide (c.p0 = 1)) }.setStw 5, none))) ∧
  (∀ (c : AdminCmd) (seq : Nat) (bs : List Byte) (s u : State), s.admits 0x53 c = true → s.begun 0x53 c = u → KM.get u.attic.records c.target = some (seq, bs) → exec (.configRead c) s = s.success 0x53 c (u.toBuffer c bs) seq bs.length) ∧
  (∀ (c : AdminCmd) (s u : State), s.admits 0x54 c = true → s.begun 0x54 c = u → deviceRecord c.target = false → installerRecord c.target = true → properLen c ≤ 4080 → u.cmdLocked c pSTW = false → u.cmdLocked c pAC = false → c.target ≠ 1 → exec (.configWrite c) s = s.success 0x54 c ({ u with attic.records := KM.put u.attic.records c.target ((match KM.get u.attic.records c.target with | some (q, _) => q + 1 | none => 1), (proper c).take (properLen c)) })) ∧
  (∀ (c : AdminCmd) (s u : State), s.admits 0x60 c = true → s.begun 0x60 c = u → (c.p0 + 2 ^ 32 * c.p1) % 4096 = 0 → 12 ≤ c.p2 → c.p2 ≤ 20 → exec (.tallyRingSet c) s = s.success 0x60 c (u.setRing c.fn { on := true, base := c.p0 + 2 ^ 32 * c.p1, log2 := c.p2, next := (u.ring c.fn).consumed, consumed := (u.ring c.fn).consumed })) ∧
  (∀ (c : AdminCmd) (s u : State), s.admits 0x60 c = true → s.begun 0x60 c = u → c.p2 = 0 → exec (.tallyRingSet c) s = s.success 0x60 c (u.ringOff c.fn)) ∧
  (∀ (c : AdminCmd) (part : Nat) (s u : State), s.admits 0x61 c = true → s.begun 0x61 c = u → (s.hist.reads.find? fun h => decide (h.cmd = c)) = none → c.p2 ≤ 1 → exec (.historyRead c part) s = s.ends 0x61 c ((let h : HistRead := { op := (s.opOf 0x61 c), cmd := c, next := c.p0 + 2 ^ 32 * c.p1, limit := u.nextRseq }
      ({ u with hist.reads := u.hist.reads ++ [h] }.goRead h part, none)))) ∧
  (∀ (c : AdminCmd) (part : Nat) (h : HistRead) (s : State), (s.hist.reads.find? fun h => decide (h.cmd = c)) = some h → exec (.historyRead c part) s = .next (s.goRead h part))

/-- HISTORY_CLEAR, SAMPLER_CONFIG, MARGIN_PLAN_READ, AGEING_RUN (R423, R424, R457, R472, R476). That measurements 3, 5 and 6 plan at once, and the blocks of a cleared history are erased in the same step, are the model's choices (logs 24, 37). -/
def Obligations.HistorySamplingAndAgeingCommandsComplete : Prop :=
  (∀ (c : AdminCmd) (s u : State), s.admits 0x62 c = true → s.begun 0x62 c = u → u.hist.reads = [] → u.phaseBusy = false → u.hist.scanned = true → exec (.historyClear c) s = s.success 0x62 c ((let v := u.programPage [{ ty := 5, index := 0, flags := 4 * b2n (!u.clock.valid), start := u.rtc, end_ := u.rtc, body := u.clearBody c }]
      ((v.set64 pHR 0x060 0x064 u.nextRseq).eraseCleared (List.range 96)).showRecords.fire pHR 1))) ∧
  (∀ (c : AdminCmd) (s u : State), s.admits 0x63 c = true → s.begun 0x63 c = u → c.target < 8 → exec (.samplerConfigRequest c) s = s.ends 0x63 c ((u.configSampler c c.target))) ∧
  (∀ (c : AdminCmd) (s u : State), s.admits 0x63 c = true → s.begun 0x63 c = u → c.target = 8 → exec (.samplerConfigInstruction c) s = s.ends 0x63 c ((u.configSampler c 8))) ∧
  (∀ (c : AdminCmd) (s u : State), s.admits 0x64 c = true → s.begun 0x64 c = u → c.p0 ≤ 4096 → (leBytes 4 (u.num pPKG 0x100) ++ leBytes 4 (u.num pPKG 0x108) ++ leBytes 8 (u.num pPKG 0x104) ++ u.planItems.flatMap u.itemBytes ++ (u.age.log.take c.p0).reverse.flatMap changeBytes).length ≤ properLen c → exec (.marginPlanRead c) s = s.success 0x64 c (u.toBuffer c (leBytes 4 (u.num pPKG 0x100) ++ leBytes 4 (u.num pPKG 0x108) ++ leBytes 8 (u.num pPKG 0x104) ++ u.planItems.flatMap u.itemBytes ++ (u.age.log.take c.p0).reverse.flatMap changeBytes)) (u.num pPKG 0x100) (u.age.log.take c.p0).reverse.length) ∧
  (∀ (c : AdminCmd) (s u : State), s.admits 0x65 c = true → s.begun 0x65 c = u → c.p0 = 3 ∨ c.p0 = 5 ∨ c.p0 = 6 → u.lossOrRestore = false → exec (.ageingRun c) s = s.success 0x65 c (u.plan [c.p0] false) ((u.plan [c.p0] false).num pPKG 0x100)) ∧
  (∀ (c : AdminCmd) (s u : State), s.admits 0x65 c = true → s.begun 0x65 c = u → c.p0 = 1 → u.lossOrRestore = false → ((u.runCodes 1).any fun x => decide (x ∈ u.age.running)) = false → u.bankFit = true → exec (.ageingRun c) s = s.ends 0x65 c ((u.startBank (s.opOf 0x65 c), none))) ∧
  (∀ (c : AdminCmd) (s u : State), s.admits 0x65 c = true → s.begun 0x65 c = u → c.p0 = 2 ∨ c.p0 = 4 → u.lossOrRestore = false → ((u.runCodes c.p0).any fun x => decide (x ∈ u.age.running)) = false → ((List.range u.regions).all u.probeable) = true → exec (.ageingRun c) s = s.ends 0x65 c (({ u with age.due := (u.runCodes c.p0).foldl (fun l x => insertSorted x l) u.age.due, age.runs := u.age.runs ++ [((s.opOf 0x65 c), c.p0, u.runCodes c.p0)] }.tryCodes (u.runCodes c.p0), none)))

/-- Packets that pass the receive checks (R106): a granted READ, a granted WRITE, a MARK_ECHO, a PROBE and a PROBE_REPLY (R94, R95, R99, R120, R135, R147, R167). -/
def Obligations.PacketsComplete : Prop :=
  (∀ (f : Frame) (v s : State), s.reaches f 2 = true → (s.counted f).sampleRequest f = v → firstBad (readChecks (parsePxt f.payload) f.payload) = none → v.timely (parsePxt f.payload) (parsePxt f.payload).resend = true → (v.noted (parsePxt f.payload)).grantsRead (parsePxt f.payload) f.payload = true → exec (.pxtReadRx f) s = .next (((v.noted (parsePxt f.payload)).takeRead (parsePxt f.payload).dqpn (parsePxt f.payload) f.payload ((s.counted f).triggerOf f)).settleAll)) ∧
  (∀ (f : Frame) (v w x y s : State), s.reaches f 1 = true → (s.counted f).sampleRequest f = v → firstBad (writeChecks (parsePxt f.payload) f.payload) = none → v.timely (parsePxt f.payload) false = true → v.noted (parsePxt f.payload) = w → w.grantsWrite (parsePxt f.payload) f.payload = true → (w.admitModes (parsePxt f.payload).plen (w.regionsOf (w.writePages (parsePxt f.payload) f.payload))).1 = none → (w.admitModes (parsePxt f.payload).plen (w.regionsOf (w.writePages (parsePxt f.payload) f.payload))).2 = x → ((w.tracker (parsePxt f.payload).dqpn (parsePxt f.payload).msn).isNone = true → x.noTracker (parsePxt f.payload).dqpn = false) → (x.admitRegions (w.object (w.window (be f.payload 24 4 / 256)).object).owner (w.writePages (parsePxt f.payload) f.payload) (w.regionsOf (w.writePages (parsePxt f.payload) f.payload))).1 = none → (x.admitRegions (w.object (w.window (be f.payload 24 4 / 256)).object).owner (w.writePages (parsePxt f.payload) f.payload) (w.regionsOf (w.writePages (parsePxt f.payload) f.payload))).2 = y → exec (.pxtWriteRx f) s = .next ((y.takeWrite (parsePxt f.payload).dqpn (parsePxt f.payload) f.payload ((s.counted f).triggerOf f)).settleAll)) ∧
  (∀ (f : Frame) (v s : State), s.reaches f 4 = true → s.counted f = v → firstBad (echoChecks (parsePxt f.payload) f.payload (v.planesOf (parsePxt f.payload).dqpn)) = none → exec (.markEchoRx f) s = .next ((v.addEchoes (v.qp (parsePxt f.payload).dqpn).peer (marksOf f.payload (markCount (parsePxt f.payload)) 20)).settleAll)) ∧
  (∀ (f : Frame) (delay : Nat) (v s : State), s.reaches f 8 = true → s.counted f = v → exec (.probeRx f delay) s = .next ((v.sendCtrl (v.ctrl (v.qp (parsePxt f.payload).dqpn).peer f.port f.udpSrc 0x09 0 (be f.payload 24 4 % 2 ^ 20) 0 0 0
        ((f.payload.drop 20).take 20 ++ beBytes 4 (min delay 50000)))).settleAll)) ∧
  (∀ (f : Frame) (v s : State), s.reaches f 9 = true → s.counted f = v → (v.pp (v.qp (parsePxt f.payload).dqpn).peer f.port).probeId = some (be f.payload 28 4) → exec (.probeReplyRx f) s = .next ((v.setPp (v.qp (parsePxt f.payload).dqpn).peer f.port
        { v.pp (v.qp (parsePxt f.payload).dqpn).peer f.port with probeId := none, unanswered := 0 }).settleAll))

/-- Exception frames, frames refused, the QP context cache, placement, ACK delay and message time-out (R86, R88, R105, R115 to R117, R122, R127, R128). -/
def Obligations.FabricServiceCompletes : Prop :=
  (∀ (kind : ExceptionKind) (f : Frame) (n : Nat) (s : State), f.port < s.planes → s.portRuns f.port = true → f.fcsOk = true → s.vlanOk f = true → (s.plane f.port).exceptions.length < 64 → (if (s.plane f.port).second = s.now / second then (s.plane f.port).admitted else 0) = n → n < 10000 → exec (.exceptionFrameRx kind f) s = .next (if (s.bump pFPC (portReg f.port 0x18)).pairRuns then
        ((s.bump pFPC (portReg f.port 0x18)).setPlane f.port { s.plane f.port with admitted := n + 1, second := s.now / second }).emit (.exception f.port kind)
      else (s.bump pFPC (portReg f.port 0x18)).setPlane f.port
        { s.plane f.port with admitted := n + 1, second := s.now / second, exceptions := (s.plane f.port).exceptions ++ [kind] })) ∧
  (∀ (f : Frame) (s : State), s.fabricDark = false → f.port < s.planes → s.portRuns f.port = true → f.fcsOk = true → s.frameOk f = false → exec (.nonPxtFrameRx f) s = .next (s.bump pFPC (portReg f.port 0x08))) ∧
  (∀ (qpn : Nat) (f : QpcFetch) (s : State), (s.fab.fetches.find? fun f => f.qpn == qpn && f.issued) = some f → f.stale = true → exec (.qpcFetchDone qpn) s = .next (({ s with fab.fetches := (s.fab.fetches.filter fun (x : QpcFetch) => x.qpn ≠ qpn) ++ [({ qpn, issued := true, stale := false } : QpcFetch)] }).bump pTC 0x058)) ∧
  (∀ (qpn : Nat) (f : QpcFetch) (s : State), (s.fab.fetches.find? fun f => f.qpn == qpn && f.issued) = some f → f.stale = false → exec (.qpcFetchDone qpn) s = .next (let v := { s with fab.fetches := s.fab.fetches.filter fun x => x.qpn ≠ qpn }
      let v := v.setWays qpn ({ qpn, dirty := false } :: v.ways qpn)
      let v := (v.takeWaiting qpn (List.range 8)).2.proceed (v.takeWaiting qpn (List.range 8)).1
      let v := if (v.qp qpn).state = .free then v.dropEntry qpn else v
      (v.kick qpn).settleAll)) ∧
  (∀ (plane : Nat) (w : Waiting) (s : State), ((s.missq plane).find? fun w => s.fab.fetches.any fun f => f.qpn == w.qpn && !f.issued && (s.ways w.qpn).all fun e => s.heldQp e.qpn) = some w → exec (.missqWaitExpire plane) s = .next (let v := (s.setMissq plane ((s.missq plane).erase w)).missDrop plane
      if (List.range 8).any fun p => (v.missq p).any fun x => x.qpn == w.qpn then v
      else { v with fab.fetches := v.fab.fetches.filter fun f => f.qpn ≠ w.qpn })) ∧
  (∀ (qpn : Nat) (e : QpcEntry) (s : State), s.qpcEntry qpn = some e → e.issued = true → exec (.qpcWritebackDone qpn) s = .next ({ s with fab.saved := KM.putD {} s.fab.saved qpn (s.qp qpn) }.dropEntry qpn)) ∧
  (∀ (qpn psn : Nat) (p : Placement) (data : List Byte) (v s : State), (s.fab.placements.find? fun p => p.qpn == qpn && p.trig.psn == psn) = some p → (p.pieces.any fun x => s.stalled p.object x.1) = false → s.waitsRewrite p = false → { s with fab.placements := s.fab.placements.erase p } = v → precedes psn (v.qp qpn).cumPsn = false → psn ∉ (v.qp qpn).received → v.openPacket p = some data → p.fold = foldOf p.handle p.woff → exec (.packetPlacement qpn psn) s = .next ((v.placePacket p data).settleAll)) ∧
  (∀ (qpn psn : Nat) (p : Placement) (v s : State), (s.fab.placements.find? fun p => p.qpn == qpn && p.trig.psn == psn) = some p → (p.pieces.any fun x => s.stalled p.object x.1) = false → s.waitsRewrite p = false → { s with fab.placements := s.fab.placements.erase p } = v → precedes psn (v.qp qpn).cumPsn = true ∨ psn ∈ (v.qp qpn).received → exec (.packetPlacement qpn psn) s = .next ((v.duplicate qpn p.trig).settleAll)) ∧
  (∀ (qpn : Nat) (d : Trigger × Nat) (t : Trigger) (s : State), (s.qp qpn).delay = some d → (s.qp qpn).lastRx = some t → exec (.ackDelayExpire qpn) s = .next ((s.owe qpn t none).settleAll)) ∧
  (∀ (qpn msn : Nat) (s : State), (s.tracker qpn msn).isSome = true → exec (.trackerTimeout qpn msn) s = .next ((((s.failMessage qpn msn 0xF0).bump pTC 0x098).fire pTC 5).settleAll)) ∧
  (∀ (qpn msn : Nat) (s : State), s.tracker qpn msn = none → msn = inc32 (s.qp qpn).cmsn → ¬((s.qp qpn).state = .error ∧ msn = (s.qp qpn).failMsn) → ((s.openOf qpn).any fun p => !p.2.read && decide (p.2.state = .mirrored)) = true → exec (.trackerTimeout qpn msn) s = .next ((((s.failMessage qpn msn 0xF1).bump pTC 0x098).fire pTC 5).settleAll))

/-- Read responses, PROBEs, links and rate control (R120, R135, R140, R148, R149, R151, R156, R158). -/
def Obligations.ReadsAndRatesComplete : Prop :=
  (∀ (qpn msn : Nat) (resend : Bool) (j : ReadJob) (s : State), (s.fab.reads.find? fun j => decide (j.qpn = qpn ∧ j.msn = msn ∧ j.resend = resend)) = some j → exec (.readDataReady qpn msn resend) s = .next (s.buildResponses (j.left.length + 1) j)) ∧
  (∀ (plane : Nat) (v w : State) (r : Response) (s : State), plane < 8 → s.portRuns plane = true → s.fabricDark = false → s.setPlane plane { s.plane plane with queue := (s.plane plane).queue.filter fun r => s.live r } = v → v.setPlane plane { v.plane plane with deficits := KM.keep (fun t _ => decide (t ∈ v.queuedTenants plane)) (v.plane plane).deficits } = w → ¬(w.fld pTC (0x140 + 4 * plane) 9 0 < w.lineRate plane ∧ (w.fld pTC (0x140 + 4 * plane) 9 0 = 0 ∨ w.now < (v.plane plane).ceilingAt)) → w.nextOf plane (v.plane plane).current = some r → w.respLength r plane ≤ KM.getD 0 (w.plane plane).deficits (v.plane plane).current → w.capAllows (v.plane plane).current (w.respLength r plane) = true → exec (.readRespDepart plane) s = .next ((w.setPlane plane { w.plane plane with deficits := KM.putD 0 (w.plane plane).deficits (w.plane plane).current (KM.getD 0 (w.plane plane).deficits (w.plane plane).current - w.respLength r plane) }).depart plane r)) ∧
  (∀ (peer plane : Nat) (e : Peer) (s : State), s.peer peer = some e → s.mayProbe peer plane e = true → ((s.pp peer plane).up = true → (s.pp peer plane).probeId = none) → exec (.probeIdleExpire peer plane) s = .next ({ s with fab.nextProbe := (s.fab.nextProbe + 1) % 2 ^ 32 }.sendProbe peer plane s.fab.nextProbe e)) ∧
  (∀ (peer plane : Nat) (e : Peer) (id : Nat) (v s : State), s.peer peer = some e → (s.pp peer plane).probeId = some id → (s.bump pFPC 0x194).setPp peer plane { s.pp peer plane with unanswered := (s.pp peer plane).unanswered + 1, probeId := none } = v → exec (.probeTimeoutExpire peer plane) s = .next (if (s.pp peer plane).up = false then v
      else if v.fld pFPC 0x184 19 16 ≤ (s.pp peer plane).unanswered + 1 then v.ppDown peer plane
      else if v.mayProbe peer plane e then v.sendProbe peer plane id e
      else v)) ∧
  (∀ (plane : Nat) (s : State), plane < s.planes → s.inService plane = true → exec (.fabricLinkDown plane) s = .next ((((s.setPlaneBits plane false false).discardQueue plane).settleAll).fire pFPC 5)) ∧
  (∀ (plane : Nat) (s : State), plane < s.planes → s.inService plane = false → exec (.fabricLinkDown plane) s = .next (((s.setPlaneBits plane false false).discardQueue plane).settleAll)) ∧
  (∀ (plane : Nat) (s : State), plane < s.planes → (s.plane plane).out = false → s.planeDead plane = false → s.portRuns plane = true → exec (.fabricLinkUp plane) s = .next (s.linkPlane plane)) ∧
  (∀ (done : Bool) (s : State), bit (s.reg pTC 0x100) 31 = true → exec (.rateBatch done) s = .next (if done then s.batch (s.fab.peerPlanes.map (·.1)) else (s.bump pTC 0x10C).fireLimited pTC 9)) ∧
  (∀ (req : Requester) (data : Word) (s : State), s.writable req pTC = true → s.resultValid pTC 0x124 = false → exec (.rateProbeWrite req data) s = .next (s.publish pTC 0x124 [s.rateOf (bits data 11 0) (bits data 14 12),
        (s.pp (bits data 11 0) (bits data 14 12)).alpha * 65536 + b2n (s.pp (bits data 11 0) (bits data 14 12)).up * 128 + (s.pp (bits data 11 0) (bits data 14 12)).clean] 1))

/-- Harvest plans and programs, gather fills, wear records, the Ledger period, the charger and its readings (R174, R176, R180, R188, R191, R193 to R195, R217). That the pages of a period are snapshotted at its plan is the model's choice (log 13). -/
def Obligations.HarvestAndLedgerComplete : Prop :=
  (∀ (region : Nat) (d : Dirty) (s : State), region < s.regions → s.fillBucket region (s.dirty region) = d → exec (.harvestPlan region true) s = .next (let p := pRG region
      let rate := s.planRate region d
      let limited := decide (d.credit ≤ s.wearFloor region d)
      let e : Dirty := { d with rate, newBytes := 0, holdList := if d.hold then s.buildHold region d else d.holdList }
      let v := ((s.setNum p 0x05C (rate / 1000000)).setFld p 0x054 17 16 (s.planMode region e)).setFld p 0x054 20 20 (b2n limited)
      let v := (v.setDirty region e).showWearCredit region
      let v := if limited then v.fireLimited p 2 (3600 * second) else v
      let v :=
        if v.harvestRuns region then
          let n := (e.carry + rate) / 1638400
          let left := if (v.harvestOrder region).length < n then 0 else (e.carry + rate) % 1638400
          (v.setDirty region { v.dirty region with carry := left }).startHarvests ((v.harvestOrder region).take (v.bucketPages region e n))
        else v
      v.wakeBar2)) ∧
  (∀ (region : Nat) (s : State), region < s.regions → exec (.harvestPlan region false) s = .next ((s.bump (pRG region) 0x07C).fireLimited (pRG region) 4)) ∧
  (∀ (page : Nat) (h : Harvest) (f : FlashPage) (v w x : State) (k loc : Nat) (s : State), ((s.dirty (s.regionOf page)).harvests.find? fun h => h.page == page && h.programmed.isNone) = some h → (s.sealPage (s.kindOf page) (s.storedAs page) h.data h.poison).1 = some f → (s.sealPage (s.kindOf page) (s.storedAs page) h.data h.poison).2 = v → (v.bandFor (s.regionOf page) (s.kindOf page)).1 = some k → (v.bandFor (s.regionOf page) (s.kindOf page)).2 = w → w.slotIn (s.regionOf page) k f.page = some loc → (w.takeSlot (s.regionOf page) k loc).program loc f = x → exec (.harvestProgramDone page true) s = .next (let r := s.regionOf page
      let d := x.fillBucket r (x.dirty r)
      let d : Dirty := { d with credit := d.credit - ((16384 * wearUnit : Nat) : Int), harvests := d.harvests.map fun y => if y.page = page then { y with programmed := some loc } else y }
      ((((x.setDirty r d).showWearCredit r).bump64 (pRG r) 0x06C 0x070).sealFull r k).wakeBar2)) ∧
  (∀ (page : Nat) (h : Harvest) (s : State), ((s.dirty (s.regionOf page)).harvests.find? fun h => h.page == page && h.programmed.isNone) = some h → exec (.harvestProgramDone page false) s = .next (s.dropHarvest page)) ∧
  (∀ (page : Nat) (g : GatherPage) (loc : Nat) (f : FlashPage) (s : State), KM.get (s.dirty (s.regionOf page)).gather page = some g → g.source = some loc → g.present.length ≠ 256 → KM.get s.cellar.flash loc = some f → s.opens f = true → exec (.gatherFillDone page true) s = .next (s.fillGather page (some f))) ∧
  (∀ (s : State), exec .wearBucketSave s = .next (s.saveWear (List.range s.regions))) ∧
  (∀ (req : Requester) (data : Word) (s : State), s.writable req pTC = true → s.resultValid pTC 0x194 = false → exec (.tenantDirtyProbe req data) s = .next (s.publish pTC 0x194 ((List.range 4).map (fun r => tenantPages (s.dirty r) (bits data 11 0)) ++
        [(List.range 4).foldl (fun a r => if bits data 11 0 ∈ (s.dirty r).holdList then a + 2 ^ r else a) 0]) 1)) ∧
  (∀ (mon adc vbus ibus pIn : Nat) (v w s : State), s.showBank mon adc vbus ibus = v → ({ v with power.base := min (v.bEnergy (min mon adc)) v.bTime, power.zone := v.bZone }).enterTc = w → exec (.ledgerPeriod true mon adc vbus ibus pIn) s = .next (let vb := min mon adc
      let energy := v.bEnergy vb
      let time := v.bTime
      let zone := v.bZone
      let most := if bit (w.reg pLG 0x040) 31 then w.tcBase (min energy time) else min energy time
      let shown := fun (n : Nat) => min (n / 2 ^ 20) 0xFFFFFFFF
      let x := ((w.setNum pLG 0x04C (shown energy)).setNum pLG 0x050 (shown time)).setNum pLG 0x054 (shown zone)
      let x := x.setFld pLG 0x058 1 0 (if zone < most then 2 else if time < energy then 1 else 0)
      let x := (x.setNum pLG 0x074 (x.vEffNum / x.vDen)).setNum pLG 0x078 (x.eStoreNum vb / (2000000000 * x.vDen ^ 2))
      let x := ((x.setFld pLG 0x080 2 0 0).bump pLG 0x084).setNum pLG 0x090 pIn
      let x := x.setBudget (min most zone)
      let x := if min most zone * 100 < v.budget * 95 then x.fire pLG 2 else x
      let x := x.setNum pLG 0x088 x.exposure
      (x.ledgerSamples vbus vb pIn).powerStep pIn)) ∧
  (∀ (mon adc vbus ibus pIn : Nat) (s : State), exec (.ledgerPeriod false mon adc vbus ibus pIn) s = .next s.lateLedger) ∧
  (∀ (mon adc : Nat) (s : State), 61000 < max mon adc → exec (.vbankOv mon adc) s = .next (((({ s with power.overVolt := true }).setCharging false).setNum pGRN 0x044 mon |>.setNum pGRN 0x048 adc).fire pGRN 0)) ∧
  (∀ (v s : State), s.power.overVolt = true → { s with power.overVolt := false } = v → exec .chargerRestart s = .next (v.setCharging (v.charges (v.num pGRN 0x04C)))) ∧
  (∀ (s : State), exec .senseMismatch s = .next ((s.setFld pGRN 0x05C 5 5 1).fire pGRN 3)) ∧
  (∀ (s : State), exec .couplerFault s = .next (((s.setFld pGRN 0x05C 4 4 0).fire pGRN 4).lateLedger)) ∧
  (∀ (s : State), exec .vbusOv s = .next (s.fire pGRN 1)) ∧
  (∀ (s : State), exec .chargerFault s = .next ((s.setFld pGRN 0x05C 3 3 1).fire pGRN 2))

/-- The trip of the power-loss detector, ride-through, the flush, the restore and the release of the images (R203, R204, R206, R211 to R216). -/
def Obligations.PowerLossAndRestoreComplete : Prop :=
  (∀ (t s : State), s.power.tripped = false → ((({ s with power.tripped := true, power.countAt := none }).bump pPLD 0x048).fire pPLD 0).noteTrip.endBank = t → t.seqState = 15 → t.seqDown = false → exec .powerLoss s = .next t.ride) ∧
  (∀ (t s : State), s.power.tripped = false → ((({ s with power.tripped := true, power.countAt := none }).bump pPLD 0x048).fire pPLD 0).noteTrip.endBank = t → t.seqState ≠ 0 → t.seqDown = true → exec .powerLoss s = .next t.rideDown) ∧
  (∀ (t s : State), s.power.tripped = false → ((({ s with power.tripped := true, power.countAt := none }).bump pPLD 0x048).fire pPLD 0).noteTrip.endBank = t → t.seqState = 0 → t.seq.holding = false → exec .powerLoss s = .next t.holdSync) ∧
  (∀ (t s : State), s.power.tripped = false → ((({ s with power.tripped := true, power.countAt := none }).bump pPLD 0x048).fire pPLD 0).noteTrip.endBank = t → t.seqState ≠ 0 → t.seqDown = false → t.seqState ≠ 15 → t.seqFaulted = false → exec .powerLoss s = .next (t.seqFault 3 [])) ∧
  (∀ (t s : State), s.phase = 1 → { s with power.tripped := false } = t → exec .rideRecovered s = .next (((((((t.setPhase t.restPhase).bump pPLD 0x04C).fire pPLD 1).setFld pGRN 0x05C 2 2 0).setCharging (((((t.setPhase t.restPhase).bump pPLD 0x04C).fire pPLD 1).setFld pGRN 0x05C 2 2 0).charges 42000)).notice 2).checkTc)) ∧
  (∀ (s : State), s.phase = 1 → exec .rideExpire s = .next s.startFlush) ∧
  (∀ (i : Image) (l : List Image) (v s : State), s.power.images = i :: l → s.phase = 2 → s.saveWear (List.range s.regions) = v → exec .flushDataEnd s = .next (let back := !s.power.tripped && !s.seqDown
      let cause := v.power.stops.foldl (fun a p => max a p.2) 0
      let left := (List.range 4).map fun r => KM.getD 0 v.power.planned r - (i.pages.filter fun z => z.region == r).length
      let close : FlushClose :=
        { time := v.rtc, cause := if cause ≠ 0 then cause else if back then 3 else 0,
          lastSeq := (List.range 4).map fun r => if r < v.regions then v.zoneCount i r - 1 else 0,
          unwritten := left, wear := (List.range 4).map v.wearMib }
      let j := { i with close := some close }
      let v := { v with power.images := j :: l, power.closedAt := some v.now }
      let v := v.takeZones j (List.range v.regions)
      let v := ((v.setNum pPLD 0x058 ((v.now - v.power.flushAt) / 1000000)).setNum pPLD 0x05C j.pages.length).setNum pPLD 0x060 (left.foldl (· + ·) 0)
      let v := v.setFld pPLD 0x044 9 9 (b2n (decide (cause ≠ 0)))
      let v := v.noteFlushEnergy j.pages.length
      if back then (v.setPhase 4).setFld pGRN 0x05C 2 2 0 else v.setPhase 3)) ∧
  (∀ (region pages cause : Nat) (i : Image) (l : List Image) (s : State), s.power.images = i :: l → s.phase = 2 → region < s.regions → cause = 1 ∨ cause = 2 → KM.get s.power.stops region = none → exec (.flushStop region pages cause) s = .next (({ s with power.images := { i with pages := keepPages region pages i.pages } :: l, power.stops := KM.put s.power.stops region cause }).fire pPLD 3)) ∧
  (∀ (s : State), s.phase = 3 → exec .managedPowerDown s = .next ((s.setPhase 5).powerDown)) ∧
  (∀ (s : State), s.phase = 4 → s.power.countAt.isSome = true → exec .vbusReturnCountDone s = .next (s.requestChip 6)) ∧
  (∀ (s : State), s.phase = 4 → s.arch.chipDue.isNone = true → exec .vbusReturnWaitExpire s = .next ((s.setPhase 5).powerDown)) ∧
  (∀ (n : Nat) (bad : List (Nat × Nat)) (s : State), s.phase = 6 → n ≠ 0 → n ≤ 8 → n ∉ s.power.steps → (∀ m ∈ restoreNeeds n, m ∈ s.power.steps) → n ≠ 8 ∨ s.power.leftBehind = [] → exec (.restoreStepDone n bad) s = .next (({ s with power.steps := insertSorted n s.power.steps }).restoreEffect n bad)) ∧
  (∀ (s : State), s.phase = 6 → 6 ∈ s.power.steps → s.power.leftBehind ≠ [] → exec .twinWaitExpire s = .next ((({ s with power.leftBehind := [] }).poisonBehind s.power.leftBehind).fire pPLD 6)) ∧
  (∀ (region : Nat) (s : State), region < s.regions → s.restoring region = true → s.engineFailed region = false → 6 ∈ s.power.steps → 8 ∈ s.power.steps → dirtyPages (s.dirty region) * 16384 ≤ s.budgetR → exec (.regionRestoreReady region) s = .next ((((s.drainBuffer region).setPg (pRG region) .service 5).setPageInfo (pRG region) { s.pageInfo (pRG region) with afterReset := false }).wakeBar2)) ∧
  (∀ (v s : State), s.phase = 6 → s.power.images ≠ [] → (∀ r ∈ List.range s.regions, s.pg (pRG r) = .service ∨ s.pg (pRG r) = .bypass) → { s.eraseImages s.power.images with power.images := [], power.marked := [], power.steps := [] } = v → exec .imageRelease s = .next (let w := (v.setPhase 0).setFld pPLD 0x044 8 8 0
      let w := w.setNum pPLD 0x064 ((w.now - w.power.restoreAt) / 1000000)
      (((w.zeroSlot 7).showRestoreKey false w.allChannels).notice 4).fire pPLD 4)) ∧
  (∀ (region mib n : Nat) (s : State), region < s.regions → min mib (KM.getD 0 s.power.toErase region) = n → n ≠ 0 → exec (.zoneEraseDone region mib) s = .next (({ s with power.toErase := KM.putD 0 s.power.toErase region (KM.getD 0 s.power.toErase region - n) }).setNum pLG (0x0A0 + 4 * region) (({ s with power.toErase := KM.putD 0 s.power.toErase region (KM.getD 0 s.power.toErase region - n) }).num pLG (0x0A0 + 4 * region) + n))) ∧
  (∀ (page : Nat) (f : FlashPage) (s : State), (KM.get s.loft.away page).isSome = true → KM.get s.cellar.flash (s.mapOf page).loc = some f → s.opens f = true → exec (.loftPageLoadDone page true) s = .next (({ s with loft.away := KM.del s.loft.away page }).loadPage page (some f)))

/-- Frames the twin sends: the mirror sequence, MACKs, leases, notices, reads, logs, audits and HELLOs (R222, R223, R228, R229, R234, R235, R238, R240). -/
def Obligations.TwinFramesComplete : Prop :=
  (∀ (f : TwinFrame) (segs : List Segment) (t s : State), s.portCarries f.port = true → f.side ≠ s.side → s.bump (pTP f.port) 0x048 = t → f.body = .mirrorData segs → exec (.mirrorDataRx f) s = .next (t.rxSeq f)) ∧
  (∀ (f : TwinFrame) (recs : List MetaRecord) (t s : State), s.portCarries f.port = true → f.side ≠ s.side → s.bump (pTP f.port) 0x048 = t → f.body = .mirrorMeta recs → exec (.mirrorMetaRx f) s = .next (t.rxSeq f)) ∧
  (∀ (f : TwinFrame) (applied rx map q x : Nat) (grants : List Nat) (t s : State), s.portCarries f.port = true → f.side ≠ s.side → s.bump (pTP f.port) 0x048 = t → f.body = .mack applied rx map q x grants → exec (.mackRx f) s = .next (let v := match t.twin.sent.find? fun (y : SentFrame) => decide (y.frame.mseq = q ∧ y.frame.txCount = x ∧ y.frame.port = f.port) with
        | some y => t.sampleRtt f.port (t.now - y.lastAt)
        | none => t
      let done := v.twin.sent.filter fun (y : SentFrame) => decide (y.frame.mseq < applied)
      let lost := lostBy v.twin.sent f.port applied rx map q x
      let v := { v with twin.sent := v.twin.sent.filter fun (y : SentFrame) => decide (applied ≤ y.frame.mseq) }
      let v := ((v.mirrored (done.flatMap SentFrame.bytes)).postBar2 applied).completeWaits applied
      let v := ((v.endSwap applied).loseFrames lost).takeGrants 0 grants
      ((v.sendQueued v.twin.sent).goCopy.wakeBar2).settleAll)) ∧
  (∀ (f : TwinFrame) (id w : Nat) (v t s : State), s.portCarries f.port = true → f.side ≠ s.side → s.bump (pTP f.port) 0x048 = t → f.body = .lease id w → f.epoch = t.epoch → t.takeStatus w = v → v.pair = 1 ∨ v.pair = 2 ∧ v.twin.survive = false ∧ v.twin.yielded = false → exec (.leaseRx f) s = .next (({ v with twin.grantTx := v.now }).sendFrame (v.plainFrame f.port (.leaseGrant id v.statusWord 150)))) ∧
  (∀ (f : TwinFrame) (id w term n : Nat) (t s : State), s.portCarries f.port = true → f.side ≠ s.side → s.bump (pTP f.port) 0x048 = t → f.body = .leaseGrant id w term → f.epoch = t.epoch → KM.get t.twin.leases id = some n → t.pair = 1 → exec (.leaseGrantRx f) s = .next (((({ t with twin.leaseUntil := max t.twin.leaseUntil (n + 150000000), twin.grantRx := t.now, twin.readFailed := false }).showLease).takeStatus w).wakeBar2)) ∧
  (∀ (f : TwinFrame) (id w term n : Nat) (t s : State), s.portCarries f.port = true → f.side ≠ s.side → s.bump (pTP f.port) 0x048 = t → f.body = .leaseGrant id w term → f.epoch = t.epoch → KM.get t.twin.leases id = some n → t.pair = 2 → exec (.leaseGrantRx f) s = .next ((((((({ t with twin.leaseUntil := max t.twin.leaseUntil (n + 150000000), twin.grantRx := t.now, twin.readFailed := false, twin.survive := false } : State).clearLog).clearCredits [0, 1, 2, 3]).setPair 1)).takeStatus w).wakeBar2)) ∧
  (∀ (f : TwinFrame) (code w : Nat) (v t s : State), s.portCarries f.port = true → f.side ≠ s.side → s.bump (pTP f.port) 0x048 = t → f.body = .notice code w → t.takeStatus w = v → code = 3 ∧ (v.pair = 1 ∨ v.pair = 2) ∧ v.power.tripped = false → exec (.noticeRx f) s = .next v.enterSolo) ∧
  (∀ (f : TwinFrame) (code w : Nat) (t s : State), s.portCarries f.port = true → f.side ≠ s.side → s.bump (pTP f.port) 0x048 = t → f.body = .notice code w → code ≠ 3 → exec (.noticeRx f) s = .next (t.takeStatus w)) ∧
  (∀ (f : TwinFrame) (id dpa len after purpose : Nat) (t s : State), s.portCarries f.port = true → f.side ≠ s.side → s.bump (pTP f.port) 0x048 = t → f.body = .readReq id dpa len after purpose → exec (.readReqRx f) s = .next (t.answerReads [(id, dpa, len, after)])) ∧
  (∀ (f : TwinFrame) (id dpa map n m : Nat) (bs : List Byte) (q : ReadReq) (rs : Bool) (t s : State), s.portCarries f.port = true → f.side ≠ s.side → s.bump (pTP f.port) 0x048 = t → f.body = .readData id dpa map bs → (t.twin.reqs.find? fun q => q.id == id) = some q → dpa = q.dpa → bs.length = q.len → q.waiter = .job n m rs → exec (.readDataRx f) s = .next ({ t with twin.reqs := t.twin.reqs.filter (fun x => x.id ≠ id), fab.reads := t.fab.reads.map fun (j : ReadJob) => if j.qpn = n ∧ j.msn = m ∧ j.resend = rs then ({ t with twin.reqs := t.twin.reqs.filter fun x => x.id ≠ id } : State).supplyPiece dpa bs map j else j })) ∧
  (∀ (f : TwinFrame) (id dpa map loc : Nat) (bs : List Byte) (q : ReadReq) (t s : State), s.portCarries f.port = true → f.side ≠ s.side → s.bump (pTP f.port) 0x048 = t → f.body = .readData id dpa map bs → (t.twin.reqs.find? fun q => q.id == id) = some q → dpa = q.dpa → bs.length = q.len → q.waiter = .cellar loc → exec (.readDataRx f) s = .next (({ t with twin.reqs := t.twin.reqs.filter fun x => x.id ≠ id }).cellarFromTwin loc bs map)) ∧
  (∀ (f : TwinFrame) (id dpa map d : Nat) (bs : List Byte) (q : ReadReq) (v t s : State), s.portCarries f.port = true → f.side ≠ s.side → s.bump (pTP f.port) 0x048 = t → f.body = .readData id dpa map bs → (t.twin.reqs.find? fun q => q.id == id) = some q → dpa = q.dpa → bs.length = q.len → q.waiter = .line d → ({ t with twin.reqs := t.twin.reqs.filter fun x => x.id ≠ id } : State) = v → exec (.readDataRx f) s = .next (if map = 0 then (v.lineStored d bs true 0x190).recovKick 64 (v.regionOf (pageOf d)) else v.recovFails (d / 64))) ∧
  (∀ (f : TwinFrame) (id dpa map page : Nat) (bs : List Byte) (q : ReadReq) (t s : State), s.portCarries f.port = true → f.side ≠ s.side → s.bump (pTP f.port) 0x048 = t → f.body = .readData id dpa map bs → (t.twin.reqs.find? fun q => q.id == id) = some q → dpa = q.dpa → bs.length = q.len → q.waiter = .leftBehind page → page ∈ t.power.leftBehind → exec (.readDataRx f) s = .next (({ t with twin.reqs := t.twin.reqs.filter (fun x => x.id ≠ id), power.leftBehind := t.power.leftBehind.filter (· ≠ page), loft.away := KM.del t.loft.away page } : State).loadPage page (some { kind := 1, page, slot := 0, salt := 0, ctr := 0, poison := bitList map 256, data := sparse bs }))) ∧
  (∀ (f : TwinFrame) (loft cellar : List Nat) (last : Bool) (t s : State), s.portCarries f.port = true → f.side ≠ s.side → s.bump (pTP f.port) 0x048 = t → f.body = .log loft cellar last → exec (.logRx f) s = .next ((({ t with twin.logLoft := loft.foldl (fun l n => insertSorted n l) t.twin.logLoft, twin.logCellar := cellar.foldl (fun l n => insertSorted n l) t.twin.logCellar, twin.peerLog := last || t.twin.peerLog }.setNum pTWC 0x07C
        (loft.foldl (fun l n => insertSorted n l) t.twin.logLoft).length).setNum pTWC 0x080 (cellar.foldl (fun l n => insertSorted n l) t.twin.logCellar).length).beginCopy)) ∧
  (∀ (f : TwinFrame) (page id : Nat) (t s : State), s.portCarries f.port = true → f.side ≠ s.side → s.bump (pTP f.port) 0x048 = t → f.body = .auditReq page id → exec (.auditReqRx f) s = .next (t.rxSeq f)) ∧
  (∀ (f : TwinFrame) (id map page mine : Nat) (d own : List Byte) (a : Audit) (t s : State), s.portCarries f.port = true → f.side ≠ s.side → s.bump (pTP f.port) 0x048 = t → f.body = .auditDigest id d map → t.twin.audit = some a → (a.open_.find? fun x => x.1 == id) = some (id, page, own, mine) → exec (.auditDigestRx f) s = .next (let fix := a.repair && decide (d ≠ own ∧ map = mine)
      let v := { t with twin.audit := some { a with open_ := a.open_.filter (fun x => x.1 ≠ id), compared := a.compared + 1,
                                                    mismatches := a.mismatches + b2n (decide (d ≠ own ∨ map ≠ mine)), repaired := a.repaired + b2n fix } }
      ((if map ≠ mine then v.auditRecord page 1 else if fix then (v.repairPage page).auditRecord page 2 else if decide (d ≠ own ∨ map ≠ mine) then v.auditRecord page 0 else v).sendAudits 2).endAudit)) ∧
  (∀ (f : TwinFrame) (st serial : Nat) (held valid : Bool) (v t s : State), s.portCarries f.port = true → f.side ≠ s.side → s.bump (pTP f.port) 0x048 = t → f.body = .hello st held valid serial → t.pair ≠ 1 → t.pair ≠ 5 → t.twin.resync = none → { (t.sendFrame (t.plainFrame f.port t.helloBody)).restartSequence with twin.peerLog := false, twin.peerLogValid := valid, twin.epochGap := decide (f.epoch + 1 < (t.sendFrame (t.plainFrame f.port t.helloBody)).restartSequence.epoch), twin.seen := true } = v → v.pair = 0 → f.epoch = v.epoch → exec (.helloRx f) s = .next (v.enterJoining true v.epoch f.side)) ∧
  (∀ (f : TwinFrame) (st serial : Nat) (held valid : Bool) (v t s : State), s.portCarries f.port = true → f.side ≠ s.side → s.bump (pTP f.port) 0x048 = t → f.body = .hello st held valid serial → t.pair ≠ 1 → t.pair ≠ 5 → t.twin.resync = none → { (t.sendFrame (t.plainFrame f.port t.helloBody)).restartSequence with twin.peerLog := false, twin.peerLogValid := valid, twin.epochGap := decide (f.epoch + 1 < (t.sendFrame (t.plainFrame f.port t.helloBody)).restartSequence.epoch), twin.seen := true } = v → v.pair = 0 → f.epoch < v.epoch → exec (.helloRx f) s = .next ((v.setPair 3).fire pTWC 1)) ∧
  (∀ (f : TwinFrame) (st serial : Nat) (held valid : Bool) (v t s : State), s.portCarries f.port = true → f.side ≠ s.side → s.bump (pTP f.port) 0x048 = t → f.body = .hello st held valid serial → t.pair ≠ 1 → t.pair ≠ 5 → t.twin.resync = none → { (t.sendFrame (t.plainFrame f.port t.helloBody)).restartSequence with twin.peerLog := false, twin.peerLogValid := valid, twin.epochGap := decide (f.epoch + 1 < (t.sendFrame (t.plainFrame f.port t.helloBody)).restartSequence.epoch), twin.seen := true } = v → v.pair = 3 → exec (.helloRx f) s = .next (v.fire pTWC 4)) ∧
  (∀ (f : TwinFrame) (st serial : Nat) (held valid : Bool) (v t s : State), s.portCarries f.port = true → f.side ≠ s.side → s.bump (pTP f.port) 0x048 = t → f.body = .hello st held valid serial → t.pair ≠ 1 → t.pair ≠ 5 → t.twin.resync = none → { (t.sendFrame (t.plainFrame f.port t.helloBody)).restartSequence with twin.peerLog := false, twin.peerLogValid := valid, twin.epochGap := decide (f.epoch + 1 < (t.sendFrame (t.plainFrame f.port t.helloBody)).restartSequence.epoch), twin.seen := true } = v → v.pair = 4 → st = 3 → exec (.helloRx f) s = .next (v.enterJoining false f.epoch f.side))

/-- Twin frames with a bad tag, MACK, lease and retry timers, the witness verdict, ports, READ_REQ time-outs (R220, R223 to R225, R228, R230, R234, R238). -/
def Obligations.TwinTimersComplete : Prop :=
  (∀ (port : Nat) (tagFailed : Bool) (s : State), s.portCarries port = true → exec (.twinFrameDrop port tagFailed) s = .next (if tagFailed then (s.bump (pTP port) 0x050).fireLimited pTWC 7 else s.bump (pTP port) 0x050)) ∧
  (∀ (port : Nat) (s : State), s.portCarries port = true → exec (.mackSendTimer port) s = .next (s.sendMack port)) ∧
  (∀ (mseq : Nat) (x : SentFrame) (s : State), (s.twin.sent.find? fun x => x.frame.mseq == mseq) = some x → x.queued = false → exec (.twinRtoExpire mseq) s = .next ((s.bump (pTP x.frame.port) 0x04C).resend x)) ∧
  (∀ (mseq : Nat) (s : State), (s.twin.sent.any fun x => x.frame.mseq == mseq) = true → exec (.mirrorUnappliedLimit mseq) s = .next (s.twinGone 3)) ∧
  (∀ (s : State), s.pair = 1 ∨ s.pair = 2 → exec .leaseSendTimer s = .next (({ s with twin.nextLease := (s.twin.nextLease + 1) % 2 ^ 32, twin.leases := KM.put (KM.keep (fun _ t => decide (s.now < t + 150000000)) s.twin.leases) s.twin.nextLease s.now }).sendAll
        (.lease s.twin.nextLease ({ s with twin.nextLease := (s.twin.nextLease + 1) % 2 ^ 32, twin.leases := KM.put (KM.keep (fun _ t => decide (s.now < t + 150000000)) s.twin.leases) s.twin.nextLease s.now } : State).statusWord))) ∧
  (∀ (s : State), exec .leaseExpire s = .next ((({ s with twin.leaseUntil := min s.twin.leaseUntil s.now }).showLease.checkTc).twinLost)) ∧
  (∀ (s : State), s.pair = 1 → exec .grantMissingExpire s = .next (s.enterSuspect 1)) ∧
  (∀ (s : State), s.pair = 0 → exec .helloTimeout s = .next (s.enterSuspect 4)) ∧
  (∀ (req : Requester) (data : Word) (v s : State), s.writable req pTWC = true → s.resultValid pTWC 0x054 = true → bits data 15 0 = s.fld pTWC 0x054 15 0 → s.consume pTWC 0x054 = v → v.pair = 2 → bits data 31 30 = 1 → exec (.witnessVerdictWrite req data) s = .next (({ v with twin.survive := true }).showLease)) ∧
  (∀ (req : Requester) (data : Word) (v s : State), s.writable req pTWC = true → s.resultValid pTWC 0x054 = true → bits data 15 0 = s.fld pTWC 0x054 15 0 → s.consume pTWC 0x054 = v → v.pair = 2 → bits data 31 30 = 2 → exec (.witnessVerdictWrite req data) s = .next ((({ v with twin.yielded := true, twin.survive := false }).setPair 4).fire pTWC 2)) ∧
  (∀ (s : State), s.pair = 2 → s.twin.survive = true → exec .soloEnter s = .next s.enterSolo) ∧
  (∀ (port : Nat) (s : State), port < 4 → bit (s.reg (pTP port) 0x040) 0 = true → exec (.twinPortLinkDown port) s = .next (((s.setFld (pTP port) 0x040 0 0 0).fire pTWC 8).portStops port)) ∧
  (∀ (port : Nat) (s : State), port < 4 → bit (s.reg (pTP port) 0x040) 2 = false → bit (s.reg pTWC 0x040) port = true → s.fld (pTP port) 0x110 3 0 = 0 → exec (.twinPortLinkUp port) s = .next (s.linkTwin port)) ∧
  (∀ (req : Requester) (data : Word) (s : State), s.writable req pTWC = true → exec (.portEnWrite req data) s = .next (s.writePorts (bits data 3 0) [0, 1, 2, 3])) ∧
  (∀ (id : Nat) (q : ReadReq) (s : State), (s.twin.reqs.find? fun q => q.id == id) = some q → q.resent = false → s.twinPorts ≠ [] → exec (.readReqTimeout id) s = .next (({ s with twin.reqs := s.twin.reqs.map fun (x : ReadReq) => if x.id = id then { x with resent := true } else x }).sendOne (.readReq q.id q.dpa q.len q.after q.purpose))) ∧
  (∀ (id : Nat) (q : ReadReq) (s : State), (s.twin.reqs.find? fun q => q.id == id) = some q → q.resent = true → exec (.readReqTimeout id) s = .next (s.readFails q))

/-- Flash reads and their ladder, sheaves, relocation, failed programs and erases, LUNs, staging reads (R251, R253, R256, R262, R268, R269). The order in which bands are taken is the model's choice (logs 13, 15). -/
def Obligations.FlashComplete : Prop :=
  (∀ (loc : Nat) (ok : Bool) (bits : Nat) (m : Miss) (f : FlashPage) (v s : State), (s.cellar.misses.find? fun m => m.loc == loc) = some m → m.step < 5 → s.classD = false → (let a := s.countReads m
      let b := if m.step = 1 ∧ ok = false then a.bump (locPageIndex loc) 0x05C else a
      let c := if m.step = 1 ∧ ok ∧ b.fld (locPageIndex loc) 0x048 15 8 ≤ bits then b.earlyWarn loc else b
      if m.step = 1 ∧ ok then c.codeword bits else c) = v → KM.get v.cellar.flash loc = some f → exec (.nandReadDone loc ok bits) s = .next (if ok ∧ v.opens f ∧ ¬(m.step = 4 ∧ v.unsealed loc) then v.stepOk m f else v.stepFails m)) ∧
  (∀ (region key : Nat) (b : OpenBand) (s : State), region < 4 → key < 66 → KM.get s.cellar.open_ (66 * region + key) = some b → b.used ≠ [] → exec (.sheafWaitExpire region key) s = .next ((s.sealSheaf region key).wakeBar2)) ∧
  (∀ (loc : Nat) (v w x : State) (f : FlashPage) (k n : Nat) (s : State), s.relocatable loc = true → { s with cellar.rewrites := s.cellar.rewrites.filter (· ≠ loc) } = v → KM.get s.cellar.flash loc = some f → (v.relocBand 64 (locRegion loc) 0).1 = some k → (v.relocBand 64 (locRegion loc) 0).2 = w → w.slotIn (locRegion loc) k f.page = some n → (w.takeSlot (locRegion loc) k n).program n f = x → exec (.relocationCopyDone loc) s = .next (let r := locRegion loc
      let y := (((x.movePage f.page loc n).bump (pRG r) 0x0CC).sealFull r k).eraseEmpty [locBand loc]
      ((y.pickVictim r).showBands r).showReserve r)) ∧
  (∀ (region b : Nat) (s : State), region < 4 → s.leastWorn (s.candidates region) = some b → s.peOf b * s.generalBands < s.peSum region → exec (.dailyWearRelocation region) s = .next (((s.addVictim b).eraseEmpty [b]).showBands region)) ∧
  (∀ (channel lun block : Nat) (s : State), channel < 64 → lun < 16 → block < s.lunBlocks → s.absent (pNC channel) = false → exec (.programFail channel lun block) s = .next (let r := channel / 16
      let d := s.dirty r
      let hit := fun (l : Nat) => decide (locRegion l = r ∧ locChannel l = channel % 16 ∧ locLun l = lun ∧ locBlock l = block)
      let lost := d.harvests.filterMap fun h => (match h.programmed with | some l => if hit l then some l else none | none => none)
      let keep := d.harvests.filter fun h => !(match h.programmed with | some l => hit l | none => false)
      ((lost.foldl (fun s l => s.freeFlash l) (s.setDirty r { d with harvests := keep })).fire (pNC channel) 1).retireBlock channel lun block)) ∧
  (∀ (channel lun block : Nat) (s : State), channel < 64 → lun < 16 → block < s.lunBlocks → s.absent (pNC channel) = false → exec (.eraseFail channel lun block) s = .next ((s.fire (pNC channel) 2).retireBlock channel lun block)) ∧
  (∀ (req : Requester) (channel : Nat) (data : Word) (s : State), channel < 64 → s.writable req (pNC channel) = true → exec (.lunRetireWrite req channel data) s = .next (s.retireLuns channel ((List.range 16).filter fun i => bit data i))) ∧
  (∀ (channel lun : Nat) (s : State), channel < 64 → lun < 16 → s.absent (pNC channel) = false → exec (.lunFault channel lun) s = .next ((s.fire (pNC channel) 4).retireLun channel lun)) ∧
  (∀ (channel lun : Nat) (v s : State), channel < 64 → lun < 16 → s.fld (pNC channel) 0x044 (2 * lun + 1) (2 * lun) = 1 → (s.cellar.victims.any fun b => decide (b / 16384 = channel / 16 * 16 + lun)) = false → (s.setLun channel lun 2).fire (pNC channel) 3 = v → exec (.lunRetired channel lun) s = .next (v.setNum pLG (0x0A0 + 4 * (channel / 16)) (v.num pLG (0x0A0 + 4 * (channel / 16)) - 8192))) ∧
  (∀ (page : Nat) (ok : Bool) (f : StageFill) (v s : State), s.cellar.stageFills.find? (fun f => f.page == page) = some f → ({ s with cellar.stageFills := s.cellar.stageFills.filter fun x => x.page ≠ page }) = v → f.stale = true ∨ (s.mapOf page).state ≠ .mapped → exec (.stagingReadDone page ok) s = .next (v.settleHint page false)) ∧
  (∀ (page : Nat) (f : StageFill) (v s : State), s.cellar.stageFills.find? (fun f => f.page == page) = some f → ({ s with cellar.stageFills := s.cellar.stageFills.filter fun x => x.page ≠ page }) = v → f.stale = false → (s.mapOf page).state = .mapped → exec (.stagingReadDone page true) s = .next (let r := s.regionOf page
      let loc := (s.mapOf page).loc
      let w := v.bump (locPageIndex loc) 0x04C
      let m := w.cellar.misses.find? fun m => m.loc == loc && m.step == 1
      let w := w.makeRoom r
      let hold := if (w.cellar.hints.any fun h => decide (page ∈ h.left)) then w.now + w.fld (pRA r) 0x044 15 0 * 1000000 else 0
      let room := decide ((w.staged r).length < 1048576)
      let w := if room then w.setStaged r ({ page, holdUntil := hold, used := m.isSome } :: w.staged r) else w
      let w := match m, KM.get w.cellar.flash loc with
        | some m, some x => if w.opens x then w.stepOk m x else w.stepFails m
        | _, _ => w
      w.settleHint page room)) ∧
  (∀ (page : Nat) (f : StageFill) (v s : State), s.cellar.stageFills.find? (fun f => f.page == page) = some f → ({ s with cellar.stageFills := s.cellar.stageFills.filter fun x => x.page ≠ page }) = v → f.stale = false → (s.mapOf page).state = .mapped → exec (.stagingReadDone page false) s = .next (let w := v.bump (locPageIndex (s.mapOf page).loc) 0x04C
      (match w.cellar.misses.find? (fun (m : Miss) => m.loc == (s.mapOf page).loc && m.step == 1) with | some m => w.stepFails m | none => w).settleHint page false))

/-- Refresh, row activations, DRAM timers, the DIMM sensor, training, speed changes and repairs (R277 to R279, R281, R283, R286 to R288, R290, R291, R293, R294, R311). -/
def Obligations.DramComplete : Prop :=
  (∀ (channel rank : Nat) (demand : Bool) (s : State), s.hasChannel channel = true → rank < 4 → bit (s.reg (pDC channel) 0x048) 0 = false → exec (.refreshInterval channel rank demand) s = .next (let d := (s.rank channel rank).debt + 1
      let v := s.setRank channel rank { s.rank channel rank with debt := d }
      let v := if 0 < d ∧ v.fld (pDC channel) 0x048 19 16 < d.toNat then v.setFld (pDC channel) 0x048 19 16 d.toNat else v
      if v.underRepair channel rank then v
      else if 8 ≤ d then (v.refresh channel rank (d - 4).toNat true).fireLimited (pDC channel) 4
      else if demand then v
      else v.refresh channel rank (d + 8).toNat false)) ∧
  (∀ (channel sub rank group bank row tenant : Nat) (b : Bank) (e : ActEntry) (w s : State), s.hasChannel channel = true → sub < 2 → rank < 4 → group < 8 → bank < 4 → s.bank (bankKey channel sub rank group bank) = b → (let v := (s.setBank (bankKey channel sub rank group bank) { row := some row, entries := activate row tenant b.entries }).bump (pDC channel) 0x054
    let v := v.setRank channel rank { v.rank channel rank with powerDown := false }
    if (KM.get v.dram.throttles (channel / 6 * 4096 + tenant)).isSome then v.bump (pDC channel) 0x06C else v) = w → (activate row tenant b.entries).find? (fun e => e.row == row) = some e → e.count < w.fld (pDC channel) 0x044 31 16 → exec (.rowActivation channel sub rank group bank row tenant) s = .next w) ∧
  (∀ (channel sub rank group bank row tenant : Nat) (b : Bank) (e : ActEntry) (w s : State), s.hasChannel channel = true → sub < 2 → rank < 4 → group < 8 → bank < 4 → s.bank (bankKey channel sub rank group bank) = b → (let v := (s.setBank (bankKey channel sub rank group bank) { row := some row, entries := activate row tenant b.entries }).bump (pDC channel) 0x054
    let v := v.setRank channel rank { v.rank channel rank with powerDown := false }
    if (KM.get v.dram.throttles (channel / 6 * 4096 + tenant)).isSome then v.bump (pDC channel) 0x06C else v) = w → (activate row tenant b.entries).find? (fun e => e.row == row) = some e → w.fld (pDC channel) 0x044 31 16 ≤ e.count → exec (.rowActivation channel sub rank group bank row tenant) s = .next (let v := w.setBank (bankKey channel sub rank group bank) { row := some row, entries := (activate row tenant b.entries).map fun x => if x.row = row then { x with count := 0 } else x }
      let v := (v.bump (pDC channel) 0x068).fireLimited (pDC channel) 2 (second / 100)
      let v := v.publish (pDC channel) 0x070 [row, b2n e.mixed * 2 ^ 30 + e.tenant * 2 ^ 16 + sub * 128 + rank * 32 + group * 4 + bank] 64
      if e.mixed ∨ e.tenant = 0 then v else v.throttle channel e.tenant)) ∧
  (∀ (region tenant : Nat) (s : State), exec (.throttleEnd region tenant) s = .next (({ s with dram.throttles := KM.del s.dram.throttles (region * 4096 + tenant) }).showThrottled region)) ∧
  (∀ (channel sub rank group bank : Nat) (s : State), exec (.bankIdleTimer channel sub rank group bank) s = .next (s.setBank (bankKey channel sub rank group bank) { s.bank (bankKey channel sub rank group bank) with row := none })) ∧
  (∀ (channel rank : Nat) (s : State), s.hasChannel channel = true → rank < 4 → s.fld (pDC channel) 0x040 15 8 ≠ 0 → exec (.rankPdIdle channel rank) s = .next (s.setRank channel rank { s.rank channel rank with powerDown := true })) ∧
  (∀ (channel : Nat) (ok : Bool) (temp : Int) (s : State), s.hasChannel channel = true → exec (.dimmTempPoll channel ok temp) s = .next (let p := pDC channel
      let v := (s.setChannelInfo channel { s.channelInfo channel with unreadable := !ok }).setFld p 0x048 1 1 (b2n (!ok || decide (85 < temp)))
      let v := if ok then v.setFld p 0x048 31 24 (tempByte temp) else v
      let v := if channel + 1 = 6 * v.regions then v.dimmSample else v
      if ok then
        let v := if 85 < temp then v.fire p 3 else v
        if v.fld (pRG (channel / 6)) 0x140 23 16 < (temp - (s.channelInfo channel).trainedAt).natAbs then v.makeDue channel else v
      else v)) ∧
  (∀ (channel : Nat) (s : State), s.hasChannel channel = true → (s.channelInfo channel).unreadable = true → exec (.spdFault channel) s = .next (s.fire (pDC channel) 5)) ∧
  (∀ (req : Requester) (region : Nat) (data : Word) (s : State), region < 4 → s.writable req (pRG region) = true → exec (.retrainReqWrite req region data) s = .next (if bit data 31 then (s.writeFields (pRG region) 0x140 data).setDue region 0x3F else s.writeFields (pRG region) 0x140 data)) ∧
  (∀ (region : Nat) (s : State), region < 4 → s.dueOf region ≠ 0 → s.ownSequence region = false → s.otherBusy region = false → s.lowerFirst region = false → s.dueRepair region = none → exec (.retrainBypassStart region) s = .next (s.startTrain region .retrain { kind := .retrain, phase := .quiesce, step := 0, channels := s.dueOf region, speed := s.speedOf region, stalled := false })) ∧
  (∀ (region : Nat) (x : Nat × Nat × Nat) (s : State), region < 4 → s.dueOf region ≠ 0 → s.ownSequence region = false → s.otherBusy region = false → s.lowerFirst region = false → s.dueRepair region = some x → exec (.retrainBypassStart region) s = .next (s.startTrain region .repair { kind := .repair, phase := .quiesce, step := 0, channels := withBit 0 (x.1 % 6), speed := s.speedOf region, stalled := false, repair := x })) ∧
  (∀ (region : Nat) (t : Train) (s : State), KM.get s.dram.trains region = some t → t.phase ≠ .repairStep → t.kind = .speed ∨ s.speedTarget region = s.speedOf region → t.step + 1 < phaseSteps t.phase → exec (.trainStepDone region) s = .next ({ s with dram.trains := KM.put s.dram.trains region { t with step := t.step + 1 } })) ∧
  (∀ (region : Nat) (t : Train) (v s : State), KM.get s.dram.trains region = some t → t.phase ≠ .repairStep → t.kind = .speed ∨ s.speedTarget region = s.speedOf region → phaseSteps t.phase ≤ t.step + 1 → t.phase ≠ .verify → (if nextPhase t.kind t.phase = .repairStep then (if t.phase = .quiesce then s.quiesce (regionChannels region) else s).refreshTo t.repair.1 (-8) false [0, 1, 2, 3] else (if t.phase = .quiesce then s.quiesce (regionChannels region) else s)) = v → exec (.trainStepDone region) s = .next ({ v with dram.trains := KM.put v.dram.trains region { t with phase := nextPhase t.kind t.phase, step := 0 } })) ∧
  (∀ (region working committed : Nat) (eyes : List (Nat × Nat)) (t : Train) (lost : List Nat) (s : State), KM.get s.dram.trains region = some t → t.phase = .verify → (maskChannels region t.channels).filter (fun c => !working.testBit (c % 6) && !committed.testBit (c % 6)) = lost → lost = [] → exec (.trainVerifyDone region working committed eyes) s = .next (let cs := maskChannels region t.channels
      let v := s.settleChannels true t.speed ((cs.filter fun c => working.testBit (c % 6)).map fun c => (c, eyes.getD (c % 6) (0, 0)))
      let v := v.settleChannels false t.speed ((cs.filter fun c => !working.testBit (c % 6)).map fun c => (c, (0, 0)))
      (if t.kind = .speed then (v.setFld (pRG region) 0x148 25 24 t.speed).fire (pRG region) 9 else v).endTrain region)) ∧
  (∀ (region working committed : Nat) (eyes : List (Nat × Nat)) (t : Train) (lost : List Nat) (s : State), KM.get s.dram.trains region = some t → t.phase = .verify → (maskChannels region t.channels).filter (fun c => !working.testBit (c % 6) && !committed.testBit (c % 6)) = lost → lost ≠ [] → exec (.trainVerifyDone region working committed eyes) s = .next ((s.trainFailed lost).failRegion region)) ∧
  (∀ (region : Nat) (s : State), (KM.get s.dram.deferred region).isSome = true → exec (.retrainDeferred region) s = .next (s.fire (pRG region) 8)) ∧
  (∀ (region : Nat) (s : State), region < 4 → s.speedTarget region ≠ s.speedOf region → s.ownSequence region = false → s.otherBusy region = false → exec (.speedChangeStart region) s = .next (s.startTrain region .speed { kind := .speed, phase := .quiesce, step := 0, channels := 0x3F, speed := s.speedTarget region, stalled := false })) ∧
  (∀ (region passed : Nat) (t : Train) (v s : State), KM.get s.dram.trains region = some t → t.kind = .speed → s.setSpeed t.speed (regionChannels region) = v → exec (.speedChangeDone region passed) s = .next (if passed % 64 = 0x3F then ((v.setFld (pRG region) 0x148 25 24 t.speed).fire (pRG region) 9).endTrain region
      else { v with dram.trains := KM.put v.dram.trains region { t with phase := .zq, step := 0 } })) ∧
  (∀ (region : Nat) (t : Train) (v s : State), KM.get s.dram.trains region = some t → t.phase = .repairStep → s.repairDone region t = v → exec (.hardRepairStepDone region) s = .next (match (v.region region).resetDue with
      | some (cause, ops) => (v.resetTree (pRG region) cause 0).finishResets (pRG region) ops
      | none =>
        if v.pg (pRG region) = .bypass ∧ v.twinHealthy = false then v.breakBypass region
        else if v.speedTarget region ≠ v.speedOf region ∨ (v.island (13 + region)).target.isSome then (v.bump (pRG region) 0x154).endTrain region
        else v)) ∧
  (∀ (channel sub rank group bank row : Nat) (v s : State), (s.integ.soft.any fun x => decide (x.row = { channel, sub, rank, group, bank, row, column := 0 }) && x.running) = true → { s with integ.soft := s.integ.soft.map fun (x : SoftRepair) => if x.row = { channel, sub, rank, group, bank, row, column := 0 } then { x with running := false } else x } = v → exec (.softRepairDone channel sub rank group bank row) s = .next (v.setFld (pDC channel) 0x118 15 0 (v.fld (pDC channel) 0x118 15 0 + 1)))

/-- The decode of a line, its recovery, page retirement, parity, scans, the Gleaner (R301, R307, R312, R321, R322, R324, R326, R327). -/
def Obligations.IntegrityComplete : Prop :=
  (∀ (dpa : Nat) (errors : List (Nat × Byte)) (reader : LineReader) (es fix : List (Nat × Byte)) (u v s : State), dpa < s.loftTop → s.recovering (dpa / 64) = false → errors.filter (fun e => decide (e.1 < 80)) = es → (s.rowHit dpa).bump (pDC (s.placeOf dpa).channel) 0x04C = u → decodeLine (u.erasedAt (s.placeOf dpa)) (if s.poisoned (dpa / 64) then es ++ poisonPattern else es) = .clean fix → (if reader = .demand then u.bump (pXT (s.placeOf dpa).channel) 0x048 else u) = v → exec (.loftLineDecode dpa errors reader) s = .next (if fix = [] ∧ (!s.poisoned (dpa / 64) && samePattern fix es) then v else v.corrected dpa fix (!s.poisoned (dpa / 64) && samePattern fix es) reader)) ∧
  (∀ (dpa : Nat) (errors : List (Nat × Byte)) (reader : LineReader) (es : List (Nat × Byte)) (u v w s : State), dpa < s.loftTop → s.recovering (dpa / 64) = false → errors.filter (fun e => decide (e.1 < 80)) = es → (s.rowHit dpa).bump (pDC (s.placeOf dpa).channel) 0x04C = u → decodeLine (u.erasedAt (s.placeOf dpa)) (if s.poisoned (dpa / 64) then es ++ poisonPattern else es) = .poisoned → (if reader = .demand then (u.bump (pDC (s.placeOf dpa).channel) 0x11C).bump (pXT (s.placeOf dpa).channel) 0x04C else u.bump (pDC (s.placeOf dpa).channel) 0x11C) = v → (if s.poisoned (dpa / 64) ∨ reader = .scan then v else v.poisonLine (dpa / 64)) = w → exec (.loftLineDecode dpa errors reader) s = .next (if reader = .gleaner then w.notePass ((s.placeOf dpa).channel / 6) false fun x => { x with found := x.found + 1 } else w)) ∧
  (∀ (dpa : Nat) (errors : List (Nat × Byte)) (reader : LineReader) (es : List (Nat × Byte)) (u s : State), dpa < s.loftTop → s.recovering (dpa / 64) = false → errors.filter (fun e => decide (e.1 < 80)) = es → (s.rowHit dpa).bump (pDC (s.placeOf dpa).channel) 0x04C = u → decodeLine (u.erasedAt (s.placeOf dpa)) (if s.poisoned (dpa / 64) then es ++ poisonPattern else es) = .uncorrectable → exec (.loftLineDecode dpa errors reader) s = .next (if reader = .scan then (u.bump (pDC (s.placeOf dpa).channel) 0x108).fireLimited (pDC (s.placeOf dpa).channel) 7
      else ((u.bump (pDC (s.placeOf dpa).channel) 0x108).fireLimited (pDC (s.placeOf dpa).channel) 7).recover (dpa / 64) (reader = .gleaner))) ∧
  (∀ (dpa : Nat) (g : Bool) (bs : List Byte) (s : State), KM.get s.loft.recov (dpa / 64) = some (2, g) → s.shadowLine (dpa / 64) = some bs → exec (.lineRecoveryDone dpa true) s = .next ((s.lineStored dpa bs true 0x194).recovKick 64 (s.regionOf (dpa / 64 / 256)))) ∧
  (∀ (dpa : Nat) (s : State), (KM.get s.loft.recov (dpa / 64)).isSome = true → exec (.lineRecoveryDone dpa false) s = .next (s.recovFails (dpa / 64))) ∧
  (∀ (page n : Nat) (v s : State), page ∈ s.integ.retiring → (KM.get s.win.locks (lockKey (s.mapOf page).object (s.mapOf page).index)).isSome = false → s.fld (pRG (s.regionOf page)) 0x184 8 0 = n → n ≠ 0 → { s with integ.retiring := s.integ.retiring.filter (· ≠ page), integ.remap := KM.put s.integ.remap page (256 - n) } = v → exec (.pageRetireDone page) s = .next (if n - 1 < 32 then ((v.setFld (pRG (s.regionOf page)) 0x184 8 0 (n - 1)).yieldSense (s.regionOf page)).fire (pRG (s.regionOf page)) 11
      else (v.setFld (pRG (s.regionOf page)) 0x184 8 0 (n - 1)).yieldSense (s.regionOf page))) ∧
  (∀ (page : Nat) (h : Handshake) (s : State), exec (.parityError page (.control h)) s = .next ((((s.bump pCHK 0x078).setFld pCHK 0x07C 13 0 page).fireLimited pCHK 2).emit (.handshake h true))) ∧
  (∀ (page a : Nat) (p : Placement) (v s : State), ((s.bump pCHK 0x078).setFld pCHK 0x07C 13 0 page).fireLimited pCHK 2 = v → (v.fab.placements.find? fun p => p.trig.arrival == a) = some p → exec (.parityError page (.write a)) s = .next (({ v with fab.placements := v.fab.placements.erase p }).notFresh p.qpn p.trig.psn)) ∧
  (∀ (page q m off : Nat) (rs : Bool) (v s : State), ((s.bump pCHK 0x078).setFld pCHK 0x07C 13 0 page).fireLimited pCHK 2 = v → exec (.parityError page (.read q m rs off true)) s = .next ({ v with fab.reads := v.fab.reads.map fun (j : ReadJob) =>
            if j.qpn = q ∧ j.msn = m ∧ j.resend = rs then
              { j with got := (j.left.filter fun p => p.1 == off).map (fun p => (p.1, contentRange none ((j.offset + p.1) % 16384) p.2)) ++
                                j.got.filter fun g => g.1 ≠ off }
            else j })) ∧
  (∀ (req : Requester) (data : Word) (v s : State), s.writable req pCHK = true → bit data 31 = true → s.writeFields pCHK 0x040 data = v → v.integ.scan = none → v.fld pCHK 0x040 5 4 = 0 ∨ v.polyAllowed = true → v.scanRange (v.fld pCHK 0x040 1 0) (v.reg64 pCHK 0x044 0x048) (v.num pCHK 0x04C) = true → exec (.scanStart req data) s = .next (({ v with integ.scan := some { source := v.fld pCHK 0x040 1 0, addr := v.reg64 pCHK 0x044 0x048, len := v.num pCHK 0x04C, poly := v.fld pCHK 0x040 5 4 } }).setFld pCHK 0x040 31 31 1)) ∧
  (∀ (req : Requester) (data : Word) (bytes : List Byte) (x : Scan) (v s : State), s.writable req pCHK = true → bit data 30 = true → s.writeFields pCHK 0x040 data = v → v.integ.scan = some x → exec (.scanAbort req data bytes) s = .next (v.endScan x.poly 1 ((v.scanData x bytes).take (min bytes.length ((v.scanPoison x).getD (scanBytes x)) / 64 * 64)))) ∧
  (∀ (bytes : List Byte) (ok : Bool) (x : Scan) (d : List Byte) (s : State), s.integ.scan = some x → s.scanData x bytes = d → exec (.scanDone bytes ok) s = .next (match s.scanPoison x with
      | some n => if ok ∨ n ≤ d.length then s.endScan x.poly 2 (d.take n) else s.endScan x.poly 5 d
      | none => s.endScan x.poly (if ok ∧ d.length = scanBytes x then 0 else 5) d)) ∧
  (∀ (region lines pages : Nat) (warns fails : List Nat) (cut : Bool) (s : State), region < s.regions → s.regionMode region = .normal → ¬(2 ≤ s.phase ∧ s.phase ≤ 5) → exec (.gleanSlice region lines pages warns fails cut) s = .next (let p := pGL region
      let v := if s.num p 0x050 = 0 then s.setNum p 0x050 (s.sliceLines region) else s
      let v := if cut then (v.bump p 0x054).fireLimited p 0 else v
      let t := v.rtc
      let note := fun (n : Nat) (x : GleanPass) => { x with start := if x.units = 0 then t else x.start, units := x.units + n, cut := x.cut + b2n cut }
      let v := if bit (v.reg p 0x040) 31 then
          let n := min lines (v.num p 0x050)
          let pos := v.num p 0x044 + 2 ^ 32 * v.fld p 0x048 3 0 + n
          ((v.setNum p 0x044 (pos % 2 ^ 32)).setFld p 0x048 3 0 (pos / 2 ^ 32)).notePass region false (note n)
        else v
      if bit (v.reg p 0x040) 30 then
        (((v.setNum p 0x04C (v.num p 0x04C + pages)).notePass region true (note pages)).gleanPages true warns).gleanPages false fails
      else v)) ∧
  (∀ (region : Nat) (cellar : Bool) (v s : State), region < s.regions → s.bump (pGL region) (if cellar then 0x05C else 0x058) = v → exec (.gleanPassEnd region cellar) s = .next (let p := pGL region
      let x := KM.getD {} s.integ.passes (2 * region + b2n cellar)
      let bs := v.summaryBytes region cellar x
      let bs := bs ++ leBytes 4 (crc32c bs).toNat
      let w := v.noteGlean x.start bs
      let w := if w.publishFull p 0x064 4 then w.bump p 0x060 else w.publish p 0x064 (wordsOf 16 bs) 4
      let w := { w with integ.passes := KM.put w.integ.passes (2 * region + b2n cellar) { start := w.rtc } }
      let w := if cellar then w.setNum p 0x04C 0 else ((w.setNum p 0x044 0).setFld p 0x048 3 0 0).setNum p 0x050 (w.sliceLines region)
      w.fire p 1))

/-- Requests to the Larder, its engines and marks, the DRBG, alarms, key records, the slot probe (R338, R346, R347, R349, R350, R356). -/
def Obligations.LarderComplete : Prop :=
  (∀ (op prio slot client tag aadLen len salt counter dataRef : Nat) (q : LarderReq) (s : State), ({ op := op % 16, prio := prio % 4, slot := slot % 8192, client := client % 256, tag := tag % 2 ^ 24, aadLen, len, salt := salt % 2 ^ 32, counter := counter % 2 ^ 64, dataRef := dataRef % 2 ^ 32 } : LarderReq) = q → q.prio ≤ 2 → aadLen ≤ 4096 → s.reqCheck q = none → exec (.larderRequest op prio slot client tag aadLen len salt counter dataRef) s = .next ((({ s with larder.queue := s.larder.queue ++ [q] }).noteStall q).dispatchAll)) ∧
  (∀ (op prio slot client tag aadLen len salt counter dataRef : Nat) (q : LarderReq) (st : Nat) (s : State), ({ op := op % 16, prio := prio % 4, slot := slot % 8192, client := client % 256, tag := tag % 2 ^ 24, aadLen, len, salt := salt % 2 ^ 32, counter := counter % 2 ^ 64, dataRef := dataRef % 2 ^ 32 } : LarderReq) = q → q.prio ≤ 2 → aadLen ≤ 4096 → s.reqCheck q = some st → exec (.larderRequest op prio slot client tag aadLen len salt counter dataRef) s = .next ((if st = lsNONCE_EXHAUSTED then s.fire pLD 4 else s).answer q st)) ∧
  (∀ (engine : Nat) (tagOk : Bool) (q : LarderReq) (v s : State), KM.get s.larder.engines engine = some q → { s with larder.engines := KM.del s.larder.engines engine } = v → exec (.sealUnitDone engine true tagOk) s = .next (let p := 0x0060 + engine
      let w := v.bump p 0x040
      ((w.set64 p 0x044 0x048 ((w.reg64 p 0x044 0x048 + (q.len + 15) / 16) % 2 ^ 64)).answer q (if (q.op = 2 ∨ q.op = 5) ∧ tagOk = false then lsTAG_FAIL else lsOK)).dispatchAll)) ∧
  (∀ (engine : Nat) (tagOk : Bool) (q : LarderReq) (v s : State), KM.get s.larder.engines engine = some q → { s with larder.engines := KM.del s.larder.engines engine } = v → exec (.sealUnitDone engine false tagOk) s = .next (let p := 0x0060 + engine
      let w := ((v.bump p 0x04C).fire p 0).fireLimited pLD 0
      let again := match KM.get w.larder.mismatchAt engine with | some t => decide (w.now < t + 3600 * second) | none => false
      let w := { w with larder.mismatchAt := KM.put w.larder.mismatchAt engine w.now }
      let w := if again then w.retireEngine engine else w
      match q.failedOn with
      | some _ => ((w.answer q lsENGINE_FAULT).alarmD).failStreams stKEY_LOST w.larder.streams
      | none => ({ w with larder.queue := { q with failedOn := some engine } :: w.larder.queue }).dispatchAll)) ∧
  (∀ (slot : Nat) (s : State), (s.slot slot).marking = true → exec (.hwmRecordProgrammed slot) s = .next ((s.setSlot slot { s.slot slot with marking := false, mark := nextMark (s.slot slot).counter }).dispatchAll)) ∧
  (∀ (s : State), bit (s.reg pLD 0x048) 1 = true → exec .drbgReseed s = .next (s.bump pLD 0x050)) ∧
  (∀ (v s : State), (({ s with larder.healthFails := s.now :: s.larder.healthFails.filter fun t => decide (s.now < t + second) }).bump pLD 0x04C).fireLimited pLD 0 = v → (s.now :: s.larder.healthFails.filter fun t => decide (s.now < t + second)).length < 3 ∨ v.drbgStopped = true → exec .healthTestFail s = .next v) ∧
  (∀ (v s : State), (({ s with larder.healthFails := s.now :: s.larder.healthFails.filter fun t => decide (s.now < t + second) }).bump pLD 0x04C).fireLimited pLD 0 = v → 3 ≤ (s.now :: s.larder.healthFails.filter fun t => decide (s.now < t + second)).length → v.drbgStopped = false → exec .healthTestFail s = .next (((v.setFld pLD 0x048 2 2 1).setFld pLD 0x048 1 0 0).fire pLD 2)) ∧
  (∀ (s : State), s.drbgStopped = true → exec .drbgReinstantiate s = .next (({ s with larder.healthFails := [] }).setFld pLD 0x048 2 0 3)) ∧
  (∀ (s : State), exec .classDSensor s = .next (s.alarmD.failStreams stKEY_LOST s.larder.streams)) ∧
  (∀ (s : State), exec .keyRecordBlockErase s = .next (({ s with larder.tombs := [] }).endErases (s.win.withdraws.filter fun w => w.erasing))) ∧
  (∀ (req : Requester) (data : Word) (k : Slot) (s : State), s.writable req pLD = true → s.resultValid pLD 0x06C = false → s.slot (bits data 12 0) = k → exec (.slotProbeWrite req data) s = .next (let n := bits data 12 0
      let code := match k.state with | .empty => 0 | .active => 1 | .shadowed => 2
      let inFlight := (s.fab.placements.filter fun p => (match p.sealing with | some (m, _, _, _) => m == n | none => false)).length +
        ((s.larder.queue ++ s.larder.engines.map (·.2) ++ s.larder.paused).filter fun q => decide (q.slot = n ∧ q.op ≠ 6)).length +
        (s.larder.streams.filter fun x => x.slot == n).length
      s.publish pLD 0x06C
        [code * 2 ^ 30 + k.kind * 2 ^ 27 + b2n (decide (k.state ≠ .empty) && s.isCurrent n) * 2 ^ 26 + k.owner, k.salt, k.counter % 2 ^ 32, k.counter / 2 ^ 32,
         min 65535 (s.slotRefs n) * 65536 + min 65535 inFlight, if k.state = .empty then 0 else kcvOf k.key] 1))

/-- Checkpoints, miscompares, core BIST, the spare, replay, the fence, the watchdog, boot (R358, R361, R363, R366 to R368, R371). -/
def Obligations.StewardCoresComplete : Prop :=
  (∀ (early : Bool) (s : State), s.pairRuns = true → s.stwState ≠ 6 → early = false ∨ logLimit ≤ s.stw.logBytes → exec (.checkpoint early) s = .next (if early then (s.takeCheckpoint (s.stw.ckSeq + 1)).bump pCKP 0x048 else s.takeCheckpoint (s.stw.ckSeq + 1))) ∧
  (∀ (s : State), s.stwState = 1 ∨ s.stwState = 5 → exec .miscompare s = .next (((((s.bump pSTW 0x04C).fire pSTW 0).setStw 2).rollBack.dropSwap).beginOutage)) ∧
  (∀ (v s : State), s.stwState = 2 → (s.coreBist s.lead true).coreBist s.shadow true = v → exec (.coreBistDone true true) s = .next v.noteTransient.afterTransient.restart) ∧
  (∀ (v s : State), s.stwState = 2 → (s.coreBist s.lead true).coreBist s.shadow false = v → exec (.coreBistDone true false) s = .next (v.surviveWith s.lead s.shadow)) ∧
  (∀ (v s : State), s.stwState = 2 → (s.coreBist s.lead false).coreBist s.shadow true = v → exec (.coreBistDone false true) s = .next (v.surviveWith s.shadow s.lead)) ∧
  (∀ (v s : State), s.stwState = 2 → (s.coreBist s.lead false).coreBist s.shadow false = v → 3 ≤ s.spare → exec (.coreBistDone false false) s = .next ((v.failCore s.lead).failCore s.shadow)) ∧
  (∀ (v s : State), s.stwState = 2 → (s.coreBist s.lead false).coreBist s.shadow false = v → s.spare < 3 → exec (.coreBistDone false false) s = .next (((((v.failCore s.lead).failCore s.shadow).setRoles s.spare 3 3).enterUnchecked).restart)) ∧
  (∀ (ok : Bool) (v s : State), s.spare < 3 → s.stwState = 3 → { s.coreBist s.spare ok with stw.failing := none } = v → exec (.spareLoaded ok) s = .next (if ok then (v.setRoles v.lead s.spare 3).enterChecked.restart else ((v.failCore s.spare).setRoles v.lead 3 3).enterUnchecked.restart)) ∧
  (∀ (ok : Bool) (op core : Nat) (retire : Bool) (v s : State), s.spare < 3 → s.stwState = 5 → s.coreBist s.spare ok = v → s.stw.swap = some (op, core, retire) → exec (.spareLoaded ok) s = .next (if ok then v.finishSwap op core retire else (((v.failCore s.spare).setRoles v.lead v.shadow 3).dropSwap).enterChecked)) ∧
  (∀ (n : Nat) (s : State), s.stw.replayTo = some n → n ≤ s.stw.replaySeen → exec (.replayEnd true) s = .next (({ s with stw.replayTo := none }).serveWaiting)) ∧
  (∀ (n : Nat) (s : State), s.stw.replayTo = some n → n ≤ s.stw.replaySeen → exec (.replayEnd false) s = .next (s.fire pSTW 3)) ∧
  (∀ (slot epoch : Nat) (kind : OutputKind) (addr : Nat) (data : List Byte) (inputs : Nat) (s : State), slot < 3 → epoch = s.coreEpoch slot → ¬(kind = .sramWrite ∧ (List.range data.length).any (fun i => within (addr + i) (codePart s.part)) = true) → s.stw.replayTo.isSome = false → exec (.fenceOutput slot epoch kind addr data inputs) s = .next (s.release kind addr data inputs)) ∧
  (∀ (slot epoch : Nat) (kind : OutputKind) (addr : Nat) (data : List Byte) (inputs : Nat) (s : State), slot < 3 → epoch = s.coreEpoch slot → ¬(kind = .sramWrite ∧ (List.range data.length).any (fun i => within (addr + i) (codePart s.part)) = true) → s.stw.replayTo.isSome = true → exec (.fenceOutput slot epoch kind addr data inputs) s = .next ({ s with stw.replaySeen := s.stw.replaySeen + 1 })) ∧
  (∀ (req : Requester) (s : State), s.writable req pSTW = true → exec (.wdogWrite req) s = .next ({ s with stw.wdogAt := s.now })) ∧
  (∀ (s : State), exec .stewardWatchdog s = .next (s.fire pSTW 4)) ∧
  (∀ (ok0 ok1 : Bool) (s : State), s.seqState = 15 → s.seqDown = false → s.stwState = 0 → s.bootStage = 0 → ok0 = true ∨ ok1 = true → exec (.bootRomStart ok0 ok1) s = .next (s.setBoot 1 0)) ∧
  (∀ (s : State), s.seqState = 15 → s.seqDown = false → s.stwState = 0 → s.bootStage = 0 → exec (.bootRomStart false false) s = .next ((s.setBoot 0 1).setFaultN 3 true)) ∧
  (∀ (okA okB recoveryOk : Bool) (bist version want : Nat) (s : State), s.seqState = 15 → s.seqDown = false → s.stwState = 0 → s.bootStage = 1 → s.stw.bootBack = false → s.stw.nextBank.getD s.bank_ = want → (if want = 0 then okA else okB) = true → exec (.mainImageStart okA okB recoveryOk bist version) s = .next (s.runMain want bist version 0))

/-- Writes into the Attic's window, operations, reads, fetches in place (R380, R382, R383, R386, R387). -/
def Obligations.AtticComplete : Prop :=
  (∀ (offset : Nat) (data : List Byte) (s : State), offset = cycleA → data = [0xC3] → s.attic.seq.command = none → s.attic.seq.cycles = 0 → exec (.atticCmdWrite offset data) s = .next ({ s with attic.seq := { cycles := 1, since := s.now } })) ∧
  (∀ (offset : Nat) (data : List Byte) (s : State), offset = cycleB → data = [0x3C] → s.attic.seq.command = none → s.attic.seq.cycles = 1 → s.now ≤ s.attic.seq.since + 100000 → exec (.atticCmdWrite offset data) s = .next ({ s with attic.seq := { s.attic.seq with cycles := 2 } })) ∧
  (∀ (offset : Nat) (data : List Byte) (c : Byte) (s : State), offset = cycleA → data = [c] → s.attic.seq.command = none → s.attic.seq.cycles = 2 → s.now ≤ s.attic.seq.since + 100000 → exec (.atticCmdWrite offset data) s = .next (s.atticCommand c)) ∧
  (∀ (offset : Nat) (data : List Byte) (c : Nat) (s : State), offset < 2 ^ 26 → data ≠ [] → s.attic.seq.command = some c → exec (.atticCmdWrite offset data) s = .next (s.followWrite c offset data)) ∧
  (∀ (s : State), s.attic.seq.cycles ≠ 0 → exec .atticSeqTimeout s = .next s.voidSeq) ∧
  (∀ (ok : Bool) (s : State), exec (.atticOpDone ok) s = .next (s.endAttic ok)) ∧
  (∀ (offset len corrected : Nat) (v s : State), offset < 2 ^ 26 → len ≠ 0 → (if s.attic.seq.cycles = 0 then s else s.voidSeq) = v → v.attic.statusMode = true → exec (.atticRead offset len corrected) s = .next (v.emit (.attic (List.replicate len (BitVec.ofNat 8 (v.fld pAC 0x044 7 0)))))) ∧
  (∀ (offset len corrected : Nat) (v s : State), offset < 2 ^ 26 → len ≠ 0 → (if s.attic.seq.cycles = 0 then s else s.voidSeq) = v → v.attic.statusMode = false → 8 < corrected → exec (.atticRead offset len corrected) s = .next ((({ v.openPage (offset / 4096) with attic.rdstat := 15 }).bump pAC 0x050).fire pAC 1)) ∧
  (∀ (offset len corrected : Nat) (v w s : State), offset < 2 ^ 26 → len ≠ 0 → (if s.attic.seq.cycles = 0 then s else s.voidSeq) = v → v.attic.statusMode = false → corrected ≤ 8 → v.openPage (offset / 4096) = w → exec (.atticRead offset len corrected) s = .next (let warn := decide (w.fld pAC 0x040 3 0 ≤ corrected)
      let x := { w with attic.rdstat := corrected + 16 * b2n warn }
      let x := if warn then (({ x with attic.rewrites := x.attic.rewrites ++ [(offset / 4096, x.rtc)] }).bump pAC 0x04C).fireLimited pAC 0 else x
      ({ x with free := x.free + 2 ^ 26 }).emit (.attic ((List.range len).map fun i => x.atticValue (offset + i))))) ∧
  (∀ (s : State), s.programming = false → exec .atticResetDeferEnd s = .next (({ s with attic.deferred := [] }).endDeferred s.attic.deferred)) ∧
  (∀ (offset : Nat) (taken : Bool) (s : State), offset < 2 ^ 26 → s.attic.statusMode = false → offset / 64 ∈ s.attic.buffer → exec (.xipFetch offset taken) s = .next (s.bump pAC 0x070)) ∧
  (∀ (offset : Nat) (taken : Bool) (s : State), offset < 2 ^ 26 → s.attic.statusMode = false → offset / 64 ∉ s.attic.buffer → taken = true ∧ offset / 64 ∈ s.attic.branch → exec (.xipFetch offset taken) s = .next (((({ s with attic.branch := (offset / 64) :: s.attic.branch.filter (· ≠ offset / 64) }).bump pAC 0x070).openPage (offset / 64 / 64)).refill (offset / 64))) ∧
  (∀ (offset : Nat) (taken : Bool) (v s : State), offset < 2 ^ 26 → s.attic.statusMode = false → offset / 64 ∉ s.attic.buffer → ¬(taken = true ∧ offset / 64 ∈ s.attic.branch) → ((if offset / 64 / 64 ∈ s.attic.openPages then s else s.bump pAC 0x074).openPage (offset / 64 / 64)).refill (offset / 64) = v → exec (.xipFetch offset taken) s = .next (if taken then { v with attic.branch := ((offset / 64) :: v.attic.branch.filter (· ≠ offset / 64)).take 32 } else v))

/-- Cold start, the steps of the sequencer, its inputs, the cascade, faults (R390, R393 to R400). -/
def Obligations.PowerSequenceCompletes : Prop :=
  (∀ (casc : Bool) (waiting : List Handshake) (v s : State), ((((((s.setRails false (List.range 14)).setSeqOut false).holdSync.setFaultN 3 false).setFaultN 2 false).setFaultN 1 false).abortHandshakes 17 waiting).loseVolatile.loseRegs coldMask = v → exec (.coldStart casc waiting) s = .next (let lost : Accum := { invalid := true, gap := true }
      let w := { v with seq := {}, clock := {}, hist.kept := none, hist.live := lost, hist.tail := { invalid := true, gap := true }, hist.last := 0, power.tripped := false, power.overVolt := false }
      ((w.setFld pSEQ 0x040 31 31 (b2n casc)).setFld pPLD 0x044 2 0 0).fire pRTC 1)) ∧
  (∀ (s : State), s.seqState = 0 → s.seq.holding = true → s.seqFaulted = false → s.lockout = false → s.seq.stayDown = false → s.power.tripped = false → s.seq.zeroAt + s.seq.offMs * 1000000 ≤ s.now → bit (s.reg pSEQ 0x040) 31 = false ∨ s.seqBit 23 = true → exec .startConditionsMet s = .next (({ s with seq.upAt := s.now, seq.offMs := 0 }).freeSync)) ∧
  (∀ (bifur ftm : Bool) (s : State), s.seq.holding = false → s.seqState = 0 → exec (.seqSyncRise bifur ftm) s = .next (s.enterUp 1 bifur ftm)) ∧
  (∀ (bifur ftm : Bool) (s : State), s.seq.holding = false → s.seqState ≠ 0 → s.seqDown = true → exec (.seqSyncRise bifur ftm) s = .next (s.enterDown (s.seqState - 1))) ∧
  (∀ (bifur ftm : Bool) (s : State), s.seq.holding = false → s.seqState ≠ 0 → s.seqDown = false → s.seqState < 15 → s.seqFaulted = true → exec (.seqSyncRise bifur ftm) s = .next (s.enterDown s.seqState)) ∧
  (∀ (bifur ftm : Bool) (s : State), s.seq.holding = false → s.seqState ≠ 0 → s.seqDown = false → s.seqState < 15 → s.seqFaulted = false → exec (.seqSyncRise bifur ftm) s = .next (s.enterUp (s.seqState + 1) bifur ftm)) ∧
  (∀ (s : State), s.seqState ≠ 0 → s.seqState < 15 → s.seqDown = false → s.seqFaulted = false → s.seq.holding = true → exec .seqStepTimeout s = .next (s.seqFault 1 ((s.railsOf s.seqState).filter (· ∉ s.seq.stable)))) ∧
  (∀ (s : State), s.seqState ≠ 0 → s.seqState < 15 → s.seqDown = false → s.seqFaulted = false → s.seq.holding = false → exec .seqStepTimeout s = .next (s.seqFault 2 [])) ∧
  (∀ (s : State), s.seqState = 15 → s.seqDown = false → exec .seqDownRequest s = .next s.flushDown) ∧
  (∀ (rail : Nat) (s : State), s.hasRail rail = true → exec (.pgInputLow rail) s = .next (let up := decide (1 ≤ s.seqState ∧ s.seqState < 15) && !s.seqDown && !s.seqFaulted
      let v := s.setFld pSEQ 0x04C rail rail 0
      if up ∧ rail ∈ v.railsOf v.seqState ∧ rail ∉ v.seq.stable then v.bump pSEQ 0x068 else v)) ∧
  (∀ (rail : Nat) (v w s : State), s.hasRail rail = true → bit (s.reg pSEQ 0x050) rail = true → s.setFld pSEQ 0x04C rail rail 1 = v → v.seqDown = false → v.seqFaulted = false → rail ∈ v.railsOf v.seqState → rail ∉ v.seq.stable → { v with seq.stable := insertSorted rail v.seq.stable } = w → exec (.pgStable rail) s = .next (if (v.railsOf v.seqState).all (· ∈ w.seq.stable) then w.freeSync else w)) ∧
  (∀ (s : State), bit (s.reg pSEQ 0x040) 31 = true → exec .seqInRise s = .next (if (s.setSeqBit 23 true).seqState = 0 then (s.setSeqBit 23 true).endStay else s.setSeqBit 23 true)) ∧
  (∀ (v s : State), bit (s.reg pSEQ 0x040) 31 = true → s.setSeqBit 23 false = v → exec .seqInFall s = .next (if v.seqState = 15 ∧ v.seqDown = false then v.flushDown else v)) ∧
  (∀ (rail : Nat) (v s : State), s.hasRail rail = true → s.seqState = 15 → s.seqDown = false → (s.setFld pSEQ 0x04C rail rail 0).seqFire 3 = v → rail = 0 → exec (.railLost rail) s = .next (if v.powerLoss.phase = 1 then v.powerLoss.startFlush else v.powerLoss)) ∧
  (∀ (rail : Nat) (v s : State), s.hasRail rail = true → s.seqState = 15 → s.seqDown = false → (s.setFld pSEQ 0x04C rail rail 0).seqFire 3 = v → rail = 7 ∨ rail = 8 ∨ rail = 13 → exec (.railLost rail) s = .next ((v.portsOff (List.range' 0x40 12)).settleAll)) ∧
  (∀ (rail : Nat) (v s : State), s.hasRail rail = true → s.seqState = 15 → s.seqDown = false → (s.setFld pSEQ 0x04C rail rail 0).seqFire 3 = v → rail ≠ 0 → ¬(rail = 7 ∨ rail = 8 ∨ rail = 13) → exec (.railLost rail) s = .next (((v.recordFault 4 [rail]).setPhase 5).beginDown false)) ∧
  (∀ (rail : Nat) (s : State), s.seqDown = true → rail ∈ s.railsOf s.seqState → rail ∉ s.seq.discharged → bit (s.reg pSEQ 0x050) rail = false → exec (.dischargeTimeout rail) s = .next ((((s.setFld pSEQ 0x058 rail rail 1).bump pSEQ 0x06C).seqFire 1).railDown rail)) ∧
  (∀ (s : State), s.seqDown = true → s.seq.holding = false → s.seq.localStep = false → exec .seqStall s = .next (((({ s with seq.localStep := true }).bump pSEQ 0x070).seqFire 2).enterDown (s.seqState - 1))) ∧
  (∀ (s : State), s.seqFaulted = true → s.seqDown = false → s.seqState ≠ 0 → s.seq.holding = true → exec .faultHoldExpire s = .next s.freeSync) ∧
  (∀ (v s : State), s.seqState = 0 → s.seqFaulted = true → s.setSeqBit 26 false = v → v.num pSEQ 0x078 < v.fld pSEQ 0x040 27 24 → exec .faultRetry s = .next ((({ v with seq.nextCause := 2, seq.afterFault := true }).setNum pSEQ 0x078 (v.num pSEQ 0x078 + 1)).setFaultN 2 false)) ∧
  (∀ (v s : State), s.seqState = 0 → s.seqFaulted = true → s.setSeqBit 26 false = v → v.fld pSEQ 0x040 27 24 ≤ v.num pSEQ 0x078 → exec .faultRetry s = .next ((v.setSeqBit 25 true).seqFire 4)) ∧
  (∀ (s : State), s.seqState = 15 → s.seqDown = false → exec .cascDelayExpire s = .next (s.setSeqOut true)) ∧
  (∀ (s : State), s.seqState = 14 → s.seqDown = true → exec .cascDownWaitExpire s = .next (({ s with seq.cascWait := false }).tryCage)) ∧
  (∀ (rail : Nat) (s : State), exec (.railDischarged rail) s = .next (s.railDown rail)) ∧
  (∀ (s : State), s.seqState = 13 → s.seqDown = false → s.seqFaulted = false → s.seq.holding = true → exec .islandClocksLocked s = .next s.freeSync)

/-- References, the lock of islands, the chip reset (R403, R405). -/
def Obligations.ClocksAndChipResetComplete : Prop :=
  (∀ (ref : Nat) (v s : State), ref ≤ 2 → bit (s.reg pHD 0x040) ref = true → ((s.setFld pHD 0x040 ref ref 0).bump pHD 0x044).fireLimited pHD 0 second ref = v → ref = 0 → exec (.refclkLoss ref) s = .next (v.setHoldover 1 (List.range 17))) ∧
  (∀ (ref : Nat) (v s : State), ref ≤ 2 → bit (s.reg pHD 0x040) ref = true → ((s.setFld pHD 0x040 ref ref 0).bump pHD 0x044).fireLimited pHD 0 second ref = v → ref = 1 → exec (.refclkLoss ref) s = .next (((v.planesDown (List.range v.planes)).portsDown [0, 1, 2, 3]).settleAll)) ∧
  (∀ (ref : Nat) (v s : State), ref ≤ 2 → bit (s.reg pHD 0x040) ref = true → ((s.setFld pHD 0x040 ref ref 0).bump pHD 0x044).fireLimited pHD 0 second ref = v → ref = 2 → exec (.refclkLoss ref) s = .next v) ∧
  (∀ (ref : Nat) (s : State), ref ≤ 2 → s.seqState = 15 → exec (.refclkReturn ref) s = .next (if ref = 0 then (s.setFld pHD 0x040 ref ref 1).setHoldover 0 (List.range 17) else s.setFld pHD 0x040 ref ref 1)) ∧
  (∀ (k : Nat) (v s : State), k < 17 → bit (s.reg pHD (islandReg k + 4)) 30 = false → bit (s.reg pHD (islandReg k + 4)) 31 = true → (s.setFld pHD (islandReg k + 4) 31 31 0).fire pHD 1 = v → v.lossOrRestore = false → k = 12 → exec (.islandUnlock k) s = .next (v.requestChip 4)) ∧
  (∀ (k : Nat) (v s : State), k < 17 → bit (s.reg pHD (islandReg k + 4)) 30 = false → bit (s.reg pHD (islandReg k + 4)) 31 = true → (s.setFld pHD (islandReg k + 4) 31 31 0).fire pHD 1 = v → v.lossOrRestore = false → k ≠ 12 → exec (.islandUnlock k) s = .next (v.resetList (islandPages k))) ∧
  (∀ (k : Nat) (v s : State), k < 17 → bit (s.reg pHD (islandReg k + 4)) 30 = false → bit (s.reg pHD (islandReg k + 4)) 31 = true → (s.setFld pHD (islandReg k + 4) 31 31 0).fire pHD 1 = v → v.lossOrRestore = true → exec (.islandUnlock k) s = .next v) ∧
  (∀ (d : ChipDue) (s : State), s.arch.chipDue = some d → s.programming = false → s.seqState = 15 → s.seqDown = false → exec .chipReset s = .next (s.chipReset d))

/-- The ageing window and its measurements, slack, eyes, retrains (R409, R410, R413, R414, R417, R419 to R421). What becomes of a running AGEING_RUN, and which records change, is the model's choice (log 37). -/
def Obligations.AgeingCompletes : Prop :=
  (∀ (s : State), s.age.window = false → exec .ageingWindowOpen s = .next (({ s.showDays with age.window := true, age.due := s.dayCodes }).tryCodes ({ s.showDays with age.window := true, age.due := s.dayCodes } : State).age.due)) ∧
  (∀ (s : State), exec .ageingRetryTimer s = .next (s.tryCodes s.age.due)) ∧
  (∀ (drop step charge vint energy rehearsal : Nat) (times : List Nat) (b : BankRun) (s : State), s.age.bank = some b → exec (.bankMeasDone drop step charge vint energy rehearsal times) s = .next (let v := s.judgeFigure 0 (charge / s.fld pPKG 0x10C 15 8) (s.num pGRN 0x054) true 10000 60000
      let v := v.judgeFigure 1 (drop * 1000000 / step) (v.num pGRN 0x058) false 1000 200000
      let v := v.judgeFigure 2 (vint * 1000 / energy) (v.num pLG 0x064) true 700 990
      let v := v.judgeFigure 3 (rehearsal / v.regions) (v.num pLG 0x060) false 2000 20000
      let v := (v.judgeRates 0 times).endBank.completeCode 1
      if b.op = 0 then v else (v.plan [1] false).complete b.op { status := stSUCCESS, r0 := (v.plan [1] false).num pPKG 0x100 })) ∧
  (∀ (b : BankRun) (s : State), s.age.bank = some b → exec .bankMeasAbort s = .next (if b.op = 0 then s.endBank else s.endBank.complete b.op { status := stBUSY_RETRY, r0 := 1800000000 })) ∧
  (∀ (region : Nat) (counts : List (List Nat)) (slow : Bool) (v s : State), region < 4 → (200 + region) ∈ s.age.running → s.chooseTables (16 * region) (counts.take 16) = v → exec (.retryProbeDone region counts slow) s = .next (({ v with age.slow := if slow then insertSorted region v.age.slow else v.age.slow.filter (· ≠ region) }).completeCode (200 + region))) ∧
  (∀ (channel margin : Nat) (v s : State), channel < 24 → (400 + channel) ∈ s.age.running → s.setFld (pDC channel) 0x140 4 0 (min 16 margin) = v → exec (.senseProbeDone channel margin) s = .next (({ v with age.probed := insertSorted channel v.age.probed }).completeCode (400 + channel))) ∧
  (∀ (s : State), s.age.window = true → exec .ageingWindowClose s = .next (let late := ([1, 2, 4] : List Nat).filter fun m => s.age.due.any fun c => codeMeasure c == m
      let ops := s.age.runs.map (·.1) ++ (match s.age.bank with | some b => [b.op] | none => [])
      let v := { s.endBank with age.window := false, age.due := [], age.running := [], age.runs := [] }
      let v := if late = [] then v else (v.bump pPKG 0x118 late.length).fireLimited pPKG 1 (86400 * second)
      (v.endRuns stBUSY_RETRY 1800000000 ops).plan [1, 2, 3, 4, 5, 6] true)) ∧
  (∀ (island : Nat) (slack least : Int) (s : State), island < 17 → s.lossOrRestore = false → (match KM.get s.age.slack island with | some x => min x slack | none => slack) = least → exec (.slackMonitor island slack) s = .next (let v := ({ s with age.slack := KM.put s.age.slack island least }).setDone 6 1
      if slack < (v.fld pPKG 0x110 15 0 : Nat) then (v.shortSlack island).endChanges else v)) ∧
  (∀ (page lane height width : Nat) (v s : State), s.realLane { page, lane } = true → s.lossOrRestore = false → (s.noteEye { page, lane } height width).setDone 5 1 = v → (page = 0x4C ∨ bit (v.reg page (laneBase page + 0x10)) (4 + lane) = true ∨ ({ page, lane } : Lane) ∈ v.age.retraining ∨ ({ page, lane } : Lane) ∈ v.age.queue ∨ v.eyeBelow height width 24 8 = false) → exec (.eyeMeasure page lane height width) s = .next v) ∧
  (∀ (page lane height width : Nat) (v s : State), s.realLane { page, lane } = true → s.lossOrRestore = false → (s.noteEye { page, lane } height width).setDone 5 1 = v → ¬(page = 0x4C ∨ bit (v.reg page (laneBase page + 0x10)) (4 + lane) = true ∨ ({ page, lane } : Lane) ∈ v.age.retraining ∨ ({ page, lane } : Lane) ∈ v.age.queue ∨ v.eyeBelow height width 24 8 = false) → exec (.eyeMeasure page lane height width) s = .next (match KM.get v.age.retrained (laneKey { page, lane }) with
      | some t => if v.rtcSeconds < t + 86400 then (v.retireLane { page, lane }).endChanges else (v.askRetrain { page, lane }).endChanges
      | none => (v.askRetrain { page, lane }).endChanges)) ∧
  (∀ (page lane height width : Nat) (v s : State), ({ page, lane } : Lane) ∈ s.age.retraining → ({ s with age.retraining := s.age.retraining.filter (· ≠ { page, lane }), age.retrained := KM.put s.age.retrained (laneKey { page, lane }) s.rtcSeconds } : State).noteEye { page, lane } height width = v → exec (.laneRetrainDone page lane height width) s = .next ((((if v.eyeBelow height width 16 0 then v.retireLane { page, lane } else v.setItem 14 (laneIndex { page, lane }) 0 5).returnPort page).nextRetrain { page, lane }).endChanges))

/-- Firings, grace timers, acknowledgements, the RTC, the History Recorder (R432, R433, R439, R441, R443 to R446, R449, R453, R454, R456). -/
def Obligations.FaultsAndHistoryComplete : Prop :=
  (∀ (page src sev : Nat) (l : List (Nat × Nat × Nat)) (v s : State), s.host.routed = (page, src, sev) :: l → { s with host.routed := l } = v → exec .fcFiringArrival s = .next ((if page = pSEQ then v else v.noteEvent (v.firing page src sev).ty src sev (v.firing page src sev).drill).takeFiring (v.firing page src sev))) ∧
  (∀ (ty src page sev : Nat) (s : State), (s.fcClass ty src).timer = some (page, sev) → (s.fcClass ty src).pending = true → (s.fcClass ty src).timerStepped = false → exec (.graceExpire ty src) s = .next (((s.bump pFC 0x06C).act { page, ty, src, sev, drill := false } (s.fcClass ty src).useFallback false true).2.setClass ty src
        (stepped { s.fcClass ty src with timer := none } page ((s.bump pFC 0x06C).act { page, ty, src, sev, drill := false } (s.fcClass ty src).useFallback false true).1))) ∧
  (∀ (ty src page sev : Nat) (s : State), (s.fcClass ty src).timer = some (page, sev) → (s.fcClass ty src).pending = false ∨ (s.fcClass ty src).timerStepped = true → exec (.graceExpire ty src) s = .next (s.setClass ty src { s.fcClass ty src with timer := none })) ∧
  (∀ (req : Requester) (data : Word) (s : State), s.writable req pFC = true → (s.fcClass (bits data 15 8) (bits data 4 0)).pending = true → exec (.classAckWrite req data) s = .next (s.setClass (bits data 15 8) (bits data 4 0) { s.fcClass (bits data 15 8) (bits data 4 0) with pending := false, step := 0, last := 0, useFallback := 0, useSteward := false, timer := none, timerStepped := false })) ∧
  (∀ (req : Requester) (data : Word) (s : State), s.writable req pFC = true → (s.fcClass (bits data 15 8) (bits data 4 0)).pending = false → exec (.classAckWrite req data) s = .next (s.bump pFC 0x078)) ∧
  (∀ (req : Requester) (data : Word) (ty src : Nat) (s : State), s.writable req pFC = true → s.fld pFC 0x040 15 8 = ty → s.fld pFC 0x040 4 0 = src → classDefined ty src = true → exec (.classCfgWrite req data) s = .next (let c := s.fcClass ty src
      let fb := bits data 26 24
      let sev := (classDefault ty src).sev
      let fits := if 2 ≤ sev then fallbackFits sev fb else decide (fb = 0)
      let g := bits data 13 0
      s.setClass ty src { c with steward := bit data 23, fallback := if fits then fb else c.fallback, grace := if 1 ≤ g ∧ g ≤ 10000 then g else c.grace })) ∧
  (∀ (req : Requester) (data : Word) (s : State), s.writable req pFC = true → bit data 0 = true → (s.fc.classes.any fun p => p.2.pending && decide (p.2.last = 4 ∨ p.2.last = 5)) = false → exec (.faultNClrWrite req data) s = .next (s.setFaultN 1 false)) ∧
  (∀ (req : Requester) (data : Word) (s : State), s.writable req pFC = true → s.fld pFC 0x07C 1 0 ≠ 3 → exec (.fcInjectWrite req data) s = .next (s.bump pPKG 0x050)) ∧
  (∀ (req : Requester) (data : Word) (f : Firing) (s : State), s.writable req pFC = true → s.fld pFC 0x07C 1 0 = 3 → (pageType (bits data 29 16)).isSome = true → s.absent (bits data 29 16) = false → s.firing (bits data 29 16) (bits data 4 0) (bits data 31 30) = f → exec (.fcInjectWrite req data) s = .next ((s.noteEvent f.ty f.src f.sev f.drill).takeFiring f)) ∧
  (∀ (req : Requester) (data : Word) (v : State) (n : Nat) (s : State), s.writable req pRTC = true → s.writeFields pRTC 0x04C data = v → bit data 31 = true → (v.num pRTC 0x048 + 2 ^ 32 * bits data 7 0) * 1024 + bits data 25 16 = n → v.clock.valid = true ∧ (Int.ofNat n - Int.ofNat v.rtc).natAbs ≤ 1024 → exec (.rtcSetGo req data) s = .next (v.anchorRtc v.rtc (Int.ofNat n - Int.ofNat v.rtc))) ∧
  (∀ (req : Requester) (data : Word) (v : State) (n : Nat) (s : State), s.writable req pRTC = true → s.writeFields pRTC 0x04C data = v → bit data 31 = true → (v.num pRTC 0x048 + 2 ^ 32 * bits data 7 0) * 1024 + bits data 25 16 = n → ¬(v.clock.valid = true ∧ (Int.ofNat n - Int.ofNat v.rtc).natAbs ≤ 1024) → exec (.rtcSetGo req data) s = .next (let w := ({ v with clock.valid := true }).anchorRtc n 0
      ((w.setNum pRTC 0x050 ((v.num pRTC 0x050 + 1) % 2 ^ 32)).noteStep).fire pRTC 0)) ∧
  (∀ (s : State), ¬(s.slewLeft = 0 ∧ s.clock.slew = 0) → exec .rtcSlewDone s = .next (s.anchorRtc ((s.rtc + s.slewLeft).toNat) 0)) ∧
  (∀ (s : State), s.clock.onOsc = false → exec .rtcOscFail s = .next ((({ s with clock.onOsc := true }).showRtc).seqFire 5)) ∧
  (∀ (s : State), exec .rtcNowLoRead s = .next (let v := s.setNum pRTC 0x040 s.rtcSeconds
      (((v.setFld pRTC 0x044 25 16 (v.rtc % 1024)).setFld pRTC 0x044 7 0 (s.rtcSeconds / 2 ^ 32)).showRtc).emit (.readData (s.rtcSeconds % 2 ^ 32)))) ∧
  (∀ (seconds : Nat) (v s : State), s.isBoundary seconds = true → seconds < 2 ^ 40 → (s.reachRtc seconds).hist.last < seconds → (s.reachRtc seconds).abandonGroup = v → exec (.summaryBoundary seconds) s = .next (({ v with hist.frozen := some v.hist.live, hist.last := seconds, hist.live := { start := seconds * 1024, invalid := !v.clock.valid }, hist.waiting := v.hist.waiting ++ summaryRecs v.hist.live (seconds * 1024) } : State).fillQueue.closeTail)) ∧
  (∀ (s : State), s.hist.queue ≠ [] → s.phaseBusy = false → s.hist.scanned = true → s.attic.op.isSome = false → exec .historyPageProgram s = .next (({ s with hist.queue := s.hist.queue.drop 8 }).fillQueue.programPage (s.hist.queue.take 8))) ∧
  (∀ (junction slack : Int) (s : State), exec (.historyStateCopy junction slack) s = .next (let v := s.countService [0, 1, 2]
      let srtt := (List.range 4).foldl (fun m p => max m (v.num (pTP p) 0x054)) 0
      let v := ((v.sample 1 junction).sample 11 (srtt : Nat)).sample 12 (v.hist.holds : Nat)
      let v := (v.sample 13 (v.hist.corrected : Nat)).sample 15 slack
      (({ v with hist.holds := 0, hist.corrected := 0 }).copyHist.showRtc).showDays)) ∧
  (∀ (p : Nat × Nat) (l : List (Nat × Nat)) (v s : State), s.hist.scanned = false → ({ s with hist.scanned := true }) = v → v.hist.slots.reverse = p :: l → exec .historyHeadScanDone s = .next (((v.set64 pHR 0x044 0x048 (p.1 + 1)).setNum pHR 0x04C ((p.2 / 8 + 1) % 6144)).showRecords)) ∧
  (∀ (v s : State), s.hist.scanned = false → ({ s with hist.scanned := true }) = v → v.hist.slots.reverse = [] → exec .historyHeadScanDone s = .next v) ∧
  (∀ (i : Nat) (s : State), s.hist.deferred = some i → exec .historyEraseDeferLimit s = .next (({ s with hist.deferred := none, hist.reads := s.hist.reads.map (loseBlock s.hist.slots i) }.eraseRing i).fire pHR 3))

/-- Tally's minutes, staging and rings, its probe, the performance counters, sampled records (R459, R461, R463, R464, R466, R467, R474, R475). What a counter of time shows is a free value (log 26). -/
def Obligations.TallyAndCountersComplete : Prop :=
  (∀ (seconds : Nat) (v s : State), seconds % 60 = 0 → seconds < 2 ^ 40 → s.reachRtc seconds = v → v.tally.last < seconds → exec (.minuteBoundary seconds) s = .next ({ v.abandonClose.countHeld with tally.last := seconds, tally.frozen := some (seconds, v.abandonClose.countHeld.tally.counters) })) ∧
  (∀ (sec : Nat) (cs : KMap (List Nat)) (ts : List Nat) (s : State), s.tally.frozen = some (sec, cs) → s.closeTenants cs = ts → ts.length ≤ stagingSize - s.tally.staged.length → exec .tallyCloseStart s = .next (let v := s.stageAll (ts.map fun t => s.tallyRecord t (sec / 60 - 1) false (KM.getD (List.replicate 8 0) cs t))
      let v := { v with tally.frozen := none, tally.folds := 0, tally.firsts := v.tally.firsts.filter (· ∉ ts), tally.step := false, tally.invalid := !v.clock.valid, tally.outage := false, tally.closed := closedValues cs ts v.tally.closed }
      let v := (v.bump pTLY 0x05C).setNum pTLY 0x060 (sec / 60 - 1)
      (v.showTally.checkStaging.signalRing .pf0).signalRing .pf1)) ∧
  (∀ (s : State), exec .tallyStagingCopy s = .next ((s.countPages (0 :: s.win.tenants.map (·.1))).copyTally)) ∧
  (∀ (fn : Fn) (s : State), (s.ring fn).on = true → (s.ring fn).full = false → (s.tally.staged.any fun p => decide ((s.ring fn).next ≤ p.1)) = true → exec (.tallyRingDelivery fn) s = .next (((s.deliver fn (s.ring fn) (s.tally.staged.filter fun p => decide ((s.ring fn).next ≤ p.1))).1.setRing fn
        (s.deliver fn (s.ring fn) (s.tally.staged.filter fun p => decide ((s.ring fn).next ≤ p.1))).2).signal fn 33)) ∧
  (∀ (req : Requester) (data : Word) (fn : Fn) (s : State), s.writable req pTLY = true → (if req = .pf1 then .pf1 else .pf0) = fn → (s.ring fn).on = true → bits data 19 0 < 2 ^ (s.ring fn).log2 → exec (.tallyRingHeadWrite req data) s = .next ((s.setRing fn { s.ring fn with head := bits data 19 0, consumed := max (s.ring fn).consumed ((s.ring fn).next - ((s.ring fn).tail + 2 ^ (s.ring fn).log2 - bits data 19 0) % 2 ^ (s.ring fn).log2) }).pruneStaging)) ∧
  (∀ (req : Requester) (data : Word) (s : State), s.writable req pTLY = true → s.resultValid pTLY 0x068 = false → exec (.tallyProbeWrite req data) s = .next (s.publish pTLY 0x068 (halves (KM.getD (List.replicate 8 0) s.tally.closed (bits data 11 0))) 0)) ∧
  (∀ (req : Requester) (page n : Nat) (data : Word) (s : State), n < 16 → s.writable req page = true → bits (s.counter page n).sel 30 0 = bits (selectWord data) 30 0 → exec (.counterSelectWrite req page n data) s = .next (s.setCounter page n { s.counter page n with sel := selectWord data })) ∧
  (∀ (req : Requester) (page n : Nat) (data : Word) (s : State), n < 16 → s.writable req page = true → bits (s.counter page n).sel 30 0 ≠ bits (selectWord data) 30 0 → exec (.counterSelectWrite req page n data) s = .next (s.setCounter page n { s.counter page n with sel := selectWord data, value := 0, overflow := false })) ∧
  (∀ (req : Requester) (page n : Nat) (data : Word) (s : State), n < 16 → s.writable req page = true → bit data 0 = true → exec (.counterClearWrite req page n data) s = .next (s.setCounter page n { s.counter page n with value := 0, overflow := false })) ∧
  (∀ (req : Requester) (page n : Nat) (data : Word) (s : State), n < 16 → s.writable req page = true → bit data 31 = true → exec (.counterOverflowClear req page n data) s = .next (s.setCounter page n { s.counter page n with overflow := false })) ∧
  (∀ (page n : Nat) (s : State), n < 16 → (pageType page).isSome = true → s.absent page = false → ¬(bit (s.counter page n).sel 31 = true ∧ s.counting page = true ∧ timed ((pageType page).getD 0xFF) (bits (s.counter page n).sel 7 0) = true) → exec (.counterValueLoRead page n) s = .next ((s.setCounter page n { s.counter page n with hi := (s.counter page n).value / 2 ^ 32 }).emit (.readData ((s.counter page n).value % 2 ^ 32)))) ∧
  (∀ (page n : Nat) (s : State), n < 16 → (pageType page).isSome = true → s.absent page = false → (bit (s.counter page n).sel 31 = true ∧ s.counting page = true ∧ timed ((pageType page).getD 0xFF) (bits (s.counter page n).sel 7 0) = true) → exec (.counterValueLoRead page n) s = .next ((s.fresh.2.setCounter page n { s.counter page n with value := s.fresh.1.toNat % 2 ^ 48, hi := s.fresh.1.toNat % 2 ^ 48 / 2 ^ 32 }).emit (.readData (s.fresh.1.toNat % 2 ^ 48 % 2 ^ 32)))) ∧
  (∀ (sampler arrival outcome syndrome flags dpa ingress memory mirror tail t : Nat) (o : OpenSample) (s : State), ((s.sampler sampler).open_.find? fun o => o.arrival == arrival) = some o → sampler < 8 → reached ingress + reached memory + reached mirror + reached tail = t → t < (s.sampler sampler).minLat → exec (.sampleRecordClose sampler (.request arrival outcome syndrome flags dpa ingress memory mirror tail)) s = .next (s.setSampler sampler { s.sampler sampler with open_ := (s.sampler sampler).open_.filter fun o => o.arrival ≠ arrival })) ∧
  (∀ (sampler arrival outcome syndrome flags dpa ingress memory mirror tail t : Nat) (o : OpenSample) (s : State), ((s.sampler sampler).open_.find? fun o => o.arrival == arrival) = some o → sampler < 8 → reached ingress + reached memory + reached mirror + reached tail = t → (s.sampler sampler).minLat ≤ t → exec (.sampleRecordClose sampler (.request arrival outcome syndrome flags dpa ingress memory mirror tail)) s = .next (s.closeInto sampler { s.sampler sampler with open_ := (s.sampler sampler).open_.filter fun o => o.arrival ≠ arrival }
        (leBytes 1 o.opcode ++ leBytes 1 (o.flags % 4 + flags / 4 % 64 * 4) ++ leBytes 1 outcome ++ leBytes 1 (if outcome = 2 then syndrome else 0) ++
          leBytes 4 (o.txCount % 256 * 2 ^ 24 + o.plane % 8 * 2 ^ 20 + o.qpn % 2 ^ 20) ++ leBytes 2 (o.tenant % 4096) ++ leBytes 2 o.len ++
          leBytes 4 o.handle ++ leBytes 4 o.psn ++ leBytes 4 o.msn ++ leBytes 8 (dpa % 2 ^ 49) ++ leBytes 8 o.time ++
          leBytes 4 ((s.sampler sampler).seq + 1) ++ leBytes 4 (latField ingress) ++ leBytes 4 (latField memory) ++ leBytes 4 (latField mirror) ++ leBytes 4 (latField tail) ++ leBytes 4 0))) ∧
  (∀ (sampler pc insn flags core latency : Nat) (s : State), sampler = 8 → (s.sampler 8).enable = true → s.pairRuns = true → s.stwState ≠ 6 → s.stw.replayTo.isSome = false → exec (.sampleRecordClose sampler (.instruction pc insn flags core latency)) s = .next (s.closeInto 8 (s.sampler 8)
        (leBytes 8 pc ++ leBytes 4 insn ++ leBytes 1 (flags % 64) ++ leBytes 1 core ++ leBytes 2 (min latency 0xFFFF) ++ leBytes 8 s.rtc ++ leBytes 4 ((s.sampler 8).seq + 1) ++ leBytes 4 0))) ∧
  (∀ (sampler : Nat) (s : State), sampler ≤ 8 → exec (.samplerPopRead sampler) s = .next ((s.setSampler sampler { s.sampler sampler with buffer := (s.sampler sampler).buffer.drop 1 }).emit (.readData (s.sampler sampler).buffer.length)))

/-- The detector's recovery, VBUS dips, lane faults, retraining periods, positions saved, record rewrites, erases, coalescing (R44, R140, R211, R253, R287, R326, R386). -/
def Obligations.LateRowsComplete : Prop :=
  (∀ (v s : State), s.power.tripped = true → s.phase ≠ 1 → { s with power.tripped := false } = v → exec .detectorRecovery s = .next (let w := if v.flushing then ({ v with power.countAt := some v.now }).notice 4 else v
      if w.seq.tripSeen then w.endStay else w)) ∧
  (∀ (s : State), s.power.countAt.isSome = true → exec .vbusDip s = .next ({ s with power.countAt := some s.now })) ∧
  (∀ (port : Nat) (s : State), port < 8 → port < s.planes → exec (.laneFault port) s = .next (s.setFld pFPC 0x188 (16 + port) (16 + port) 1)) ∧
  (∀ (port : Nat) (s : State), 8 ≤ port → port < 12 → exec (.laneFault port) s = .next (s.setFld (pTP (port - 8)) 0x040 1 1 1)) ∧
  (∀ (channel : Nat) (s : State), s.hasChannel channel = true → s.fld (pRG (channel / 6)) 0x140 15 0 ≠ 0 → exec (.retrainPeriodExpire channel) s = .next (s.makeDue channel)) ∧
  (∀ (region : Nat) (s : State), region < s.regions → exec (.gleanPositionSave region) s = .next ({ s with integ.positions := KM.put s.integ.positions region (s.num (pGL region) 0x044 + 2 ^ 32 * s.fld (pGL region) 0x048 3 0, s.num (pGL region) 0x04C) })) ∧
  (∀ (page : Nat) (s : State), exec (.atticRecordRewrite page) s = .next ({ s with attic.rewrites := s.attic.rewrites.filter fun x => x.1 ≠ page })) ∧
  (∀ (band : Nat) (s : State), band ∈ s.cellar.erasing → exec (.nandEraseDone band) s = .next ((({ s with cellar.erasing := s.cellar.erasing.filter (· ≠ band), cellar.pe := KM.put s.cellar.pe band (s.peOf band + 1), cellar.warns := KM.del s.cellar.warns band }.countErases (band / 262144) (List.range 16)).showWear (band / 262144) (List.range 16)).showBands (band / 262144))) ∧
  (∀ (fn : Fn) (q : Nat) (a : AdminQ) (s : State), s.aq fn q = some a → a.unsignalled ≠ 0 → exec (.cqCoalesceExpire fn q) s = .next ((s.setAq fn q { a with unsignalled := 0 }).signal fn a.vector))
end

