-- ==== Sys2Proof/Laws/Map.lean ====
section
/-!
SUPPORT. The laws of the finite map: what reads after a change give, and that every change keeps the canonical form.
-/

namespace Sys2Proof

namespace KM

variable {α : Type}

/-! ### Reading after a change -/

@[simp] theorem get_nil (k : Nat) : get ([] : KMap α) k = none := rfl

theorem get_put_self (m : KMap α) (k : Nat) (v : α) : get (put m k v) k = some v := by
  induction m with
  | nil => simp [put, get]
  | cons p m ih =>
    obtain ⟨j, w⟩ := p
    by_cases h₁ : k < j
    · simp [put, get, h₁]
    · by_cases h₂ : j = k <;> simp [put, get, h₁, h₂, ih]

theorem get_put_ne (m : KMap α) {k l : Nat} (v : α) (h : l ≠ k) : get (put m k v) l = get m l := by
  induction m with
  | nil => simp [put, get, Ne.symm h]
  | cons p m ih =>
    obtain ⟨j, w⟩ := p
    by_cases h₁ : k < j
    · simp [put, get, h₁, Ne.symm h]
    · by_cases h₂ : j = k
      · subst h₂; simp [put, get, Ne.symm h]
      · simp [put, get, h₁, h₂, ih]

theorem get_del_self (m : KMap α) (k : Nat) : get (del m k) k = none := by
  induction m with
  | nil => rfl
  | cons p m ih => obtain ⟨j, w⟩ := p; by_cases h : j = k <;> simp [del, get, h, ih]

theorem get_del_ne (m : KMap α) {k l : Nat} (h : l ≠ k) : get (del m k) l = get m l := by
  induction m with
  | nil => rfl
  | cons p m ih =>
    obtain ⟨j, w⟩ := p
    by_cases hj : j = k
    · subst hj; simp [del, get, Ne.symm h, ih]
    · simp [del, get, hj, ih]

@[simp] theorem getD_put_self (d : α) (m : KMap α) (k : Nat) (v : α) : getD d (put m k v) k = v := by
  simp [getD, get_put_self]

theorem getD_put_ne (d : α) (m : KMap α) {k l : Nat} (v : α) (h : l ≠ k) : getD d (put m k v) l = getD d m l := by
  simp [getD, get_put_ne m v h]

@[simp] theorem getD_putD_self [DecidableEq α] (d : α) (m : KMap α) (k : Nat) (v : α) : getD d (putD d m k v) k = v := by
  unfold putD getD; split
  · simp [get_del_self, *]
  · simp [get_put_self]

theorem getD_putD_ne [DecidableEq α] (d d' : α) (m : KMap α) {k l : Nat} (v : α) (h : l ≠ k) :
    getD d (putD d' m k v) l = getD d m l := by
  unfold putD getD; split
  · simp [get_del_ne m h]
  · simp [get_put_ne m v h]

/-! ### The canonical form -/

theorem above_mono {b c : Nat} {m : KMap α} (h : above b m) (hc : c ≤ b) : above c m := by
  cases m with
  | nil => rfl
  | cons p m => simp [above] at *; omega

/-- A map above a key, itself in order, with a key above the bound put in, is above the bound. -/
theorem above_put {b k : Nat} {m : KMap α} (v : α) (h : above b m) (hk : b < k) : above b (put m k v) := by
  cases m with
  | nil => simpa [put, above] using hk
  | cons p m =>
    obtain ⟨j, w⟩ := p
    simp only [put]
    split
    · simpa [above] using hk
    · split
      · simpa [above] using hk
      · simpa [above] using h

theorem wf_put (m : KMap α) (k : Nat) (v : α) (h : wf m) : wf (put m k v) := by
  induction m with
  | nil => rfl
  | cons p m ih =>
    obtain ⟨j, w⟩ := p
    simp only [wf, Bool.and_eq_true] at h
    simp only [put]
    split
    · simp_all [wf, above]
    · split
      · subst_vars; simp [wf, h]
      · simp only [wf, Bool.and_eq_true]
        exact ⟨above_put v h.1 (by omega), ih h.2⟩

/-- Removing entries of an ordered map keeps it above its bound. -/
theorem above_keep {b : Nat} {p : Nat → α → Bool} {m : KMap α} (h : wf m) (hb : above b m) : above b (keep p m) := by
  induction m generalizing b with
  | nil => rfl
  | cons q m ih =>
    obtain ⟨j, v⟩ := q
    simp only [wf, Bool.and_eq_true] at h
    simp only [keep]
    split
    · simpa [above] using hb
    · exact ih h.2 (above_mono h.1 (by simp [above] at hb; omega))

theorem wf_keep (p : Nat → α → Bool) (m : KMap α) (h : wf m) : wf (keep p m) := by
  induction m with
  | nil => rfl
  | cons q m ih =>
    obtain ⟨j, v⟩ := q
    simp only [wf, Bool.and_eq_true] at h
    simp only [keep]
    split
    · simp only [wf, Bool.and_eq_true]; exact ⟨above_keep h.2 h.1, ih h.2⟩
    · exact ih h.2

theorem del_eq_keep (m : KMap α) (k : Nat) : del m k = keep (fun j _ => decide (j ≠ k)) m := by
  induction m with
  | nil => rfl
  | cons q m ih => obtain ⟨j, v⟩ := q; by_cases h : j = k <;> simp [del, keep, h, ih]

theorem wf_del (m : KMap α) (k : Nat) (h : wf m) : wf (del m k) := by
  rw [del_eq_keep]; exact wf_keep _ m h

theorem above_mapV (f : Nat → α → α) (b : Nat) (m : KMap α) : above b (mapV f m) = above b m := by
  cases m <;> rfl

theorem wf_mapV (f : Nat → α → α) (m : KMap α) (h : wf m) : wf (mapV f m) := by
  induction m with
  | nil => rfl
  | cons q m ih =>
    obtain ⟨j, v⟩ := q
    simp only [wf, Bool.and_eq_true] at h
    simp only [mapV, wf, Bool.and_eq_true, above_mapV]
    exact ⟨h.1, ih h.2⟩

/-! ### No entry holds the default -/

section
variable [DecidableEq α] {d : Nat → α}

theorem noDefault_put (m : KMap α) (k : Nat) (v : α) (h : noDefault d m) (hv : v ≠ d k) : noDefault d (put m k v) := by
  induction m with
  | nil => simp [put, noDefault, hv]
  | cons p m ih =>
    obtain ⟨j, w⟩ := p
    simp only [noDefault, Bool.and_eq_true, decide_eq_true_eq] at h
    simp only [put]
    split
    · simp [noDefault, hv, h]
    · split
      · simp [noDefault, hv, h]
      · simp [noDefault, h, ih h.2]

theorem noDefault_keep (p : Nat → α → Bool) (m : KMap α) (h : noDefault d m) : noDefault d (keep p m) := by
  induction m with
  | nil => rfl
  | cons q m ih =>
    obtain ⟨j, v⟩ := q
    simp only [noDefault, Bool.and_eq_true, decide_eq_true_eq] at h
    simp only [keep]
    split
    · simp [noDefault, h, ih h.2]
    · exact ih h.2

/-- Dropping the entries that hold the default leaves none that does. -/
theorem noDefault_keep_ne (m : KMap α) : noDefault d (keep (fun k w => decide (w ≠ d k)) m) := by
  induction m with
  | nil => rfl
  | cons q m ih =>
    obtain ⟨j, v⟩ := q
    simp only [keep]
    split
    · simp_all [noDefault]
    · exact ih

theorem noDefault_del (m : KMap α) (k : Nat) (h : noDefault d m) : noDefault d (del m k) := by
  rw [del_eq_keep]; exact noDefault_keep _ m h

theorem wf_putD (x : α) (m : KMap α) (k : Nat) (v : α) (h : wf m) : wf (putD x m k v) := by
  unfold putD; split
  · exact wf_del m k h
  · exact wf_put m k v h

theorem noDefault_putD (m : KMap α) (k : Nat) (v : α) (h : noDefault d m) : noDefault d (putD (d k) m k v) := by
  unfold putD; split
  · exact noDefault_del m k h
  · exact noDefault_put m k v h (by assumption)

end

end KM

end Sys2Proof
end

