-- ==== Sys2Proof/Laws/KeptBase.lean ====
section
/-!
SUPPORT. What every operation of the block keeps, whatever command runs: the canonical form of the register file and of the Loft, and the queue of waiting commands. The files
Kept<Module>.lean say it once for each operation.
-/

namespace Sys2Proof.Machine

/-- The queue is q, the register file is canonical, and the Loft's bytes and poison marks have the property Q. -/
def Keeps (Q : KMap Byte → KMap Bool → Prop) (q p : List Instr) (regs : KMap Word) (bytes : KMap Byte) (poison : KMap Bool) : Prop :=
  p = q ∧ regsCanonical regs = true ∧ Q bytes poison

/-- The queue is q, the register file is canonical, and the Loft's bytes and poison marks have the property Q. An operation that keeps this for EVERY Q writes neither a byte of
the Loft nor a poison mark. -/
def Kept (Q : KMap Byte → KMap Bool → Prop) (q : List Instr) (s : State) : Prop := Keeps Q q s.pending s.regs s.loft.bytes s.loft.poison

/-- The Loft's bytes and poison marks are canonical: the property that an operation which writes them keeps. -/
def CanonLoft (bytes : KMap Byte) (poison : KMap Bool) : Prop := bytesCanonical bytes = true ∧ poisonCanonical poison = true

variable {Q : KMap Byte → KMap Bool → Prop} {q : List Instr}

theorem kept_intro {s : State} (h : Keeps Q q s.pending s.regs s.loft.bytes s.loft.poison) : Kept Q q s := h

theorem of_kept {s : State} (h : Kept Q q s) : Keeps Q q s.pending s.regs s.loft.bytes s.loft.poison := h

theorem kept_of_canon {s : State} (h : Canon s) : Kept CanonLoft s.pending s := ⟨rfl, h⟩

theorem canon_of_kept {s : State} (h : Kept CanonLoft q s) : Canon s := h.2

theorem pending_of_kept {s : State} (h : Kept Q q s) : s.pending = q := h.1

/-! A change of one part of the state other than the queue, the register file and the Loft. -/

theorem kept_with_arch {s : State} (x : ArchState) (h : Kept Q q s) : Kept Q q { s with arch := x } := h

theorem kept_with_host {s : State} (x : HostSide) (h : Kept Q q s) : Kept Q q { s with host := x } := h

theorem kept_with_stw {s : State} (x : StewardState) (h : Kept Q q s) : Kept Q q { s with stw := x } := h

theorem kept_with_attic {s : State} (x : AtticState) (h : Kept Q q s) : Kept Q q { s with attic := x } := h

theorem kept_with_seq {s : State} (x : SeqState) (h : Kept Q q s) : Kept Q q { s with seq := x } := h

theorem kept_with_fc {s : State} (x : FcState) (h : Kept Q q s) : Kept Q q { s with fc := x } := h

theorem kept_with_win {s : State} (x : WinState) (h : Kept Q q s) : Kept Q q { s with win := x } := h

theorem kept_with_fab {s : State} (x : FabricState) (h : Kept Q q s) : Kept Q q { s with fab := x } := h

theorem kept_with_dur {s : State} (x : DurableState) (h : Kept Q q s) : Kept Q q { s with dur := x } := h

theorem kept_with_twin {s : State} (x : TwinState) (h : Kept Q q s) : Kept Q q { s with twin := x } := h

theorem kept_with_larder {s : State} (x : LarderState) (h : Kept Q q s) : Kept Q q { s with larder := x } := h

theorem kept_with_cellar {s : State} (x : CellarState) (h : Kept Q q s) : Kept Q q { s with cellar := x } := h

theorem kept_with_dram {s : State} (x : DramState) (h : Kept Q q s) : Kept Q q { s with dram := x } := h

theorem kept_with_power {s : State} (x : PowerState) (h : Kept Q q s) : Kept Q q { s with power := x } := h

theorem kept_with_integ {s : State} (x : IntegState) (h : Kept Q q s) : Kept Q q { s with integ := x } := h

theorem kept_with_clock {s : State} (x : Clock) (h : Kept Q q s) : Kept Q q { s with clock := x } := h

theorem kept_with_hist {s : State} (x : HistState) (h : Kept Q q s) : Kept Q q { s with hist := x } := h

theorem kept_with_tally {s : State} (x : TallyState) (h : Kept Q q s) : Kept Q q { s with tally := x } := h

theorem kept_with_perf {s : State} (x : PerfState) (h : Kept Q q s) : Kept Q q { s with perf := x } := h

theorem kept_with_age {s : State} (x : AgeState) (h : Kept Q q s) : Kept Q q { s with age := x } := h

theorem kept_foldl {α : Type} (f : State → α → State) (hf : ∀ s a, Kept Q q s → Kept Q q (f s a)) (l : List α) {s : State} (h : Kept Q q s) :
    Kept Q q (l.foldl f s) := by
  induction l generalizing s with
  | nil => exact h
  | cons a l ih => exact ih (hf s a h)

variable {r : KMap Word} {b : KMap Byte} {p : KMap Bool}

theorem canonical_setReg (k : Nat) (w : Word) (h : regsCanonical r = true) : regsCanonical (KM.putD (resetAt k) r k w) = true := by
  unfold regsCanonical at *
  simp only [Bool.and_eq_true] at *
  exact ⟨KM.wf_putD _ _ _ _ h.1, KM.noDefault_putD _ _ _ h.2⟩

theorem canonical_mapRegs (f : Nat → Word → Word) (h : regsCanonical r = true) :
    regsCanonical (KM.keep (fun k w => decide (w ≠ resetAt k)) (KM.mapV f r)) = true := by
  unfold regsCanonical at *
  simp only [Bool.and_eq_true] at *
  exact ⟨KM.wf_keep _ _ (KM.wf_mapV _ _ h.1), KM.noDefault_keep_ne _⟩

theorem canonical_keepRegs (f : Nat → Word → Bool) (h : regsCanonical r = true) : regsCanonical (KM.keep f r) = true := by
  unfold regsCanonical at *
  simp only [Bool.and_eq_true] at *
  exact ⟨KM.wf_keep _ _ h.1, KM.noDefault_keep _ _ h.2⟩

theorem canonical_byte (k : Nat) (v : Byte) (h : CanonLoft b p) : CanonLoft (KM.putD 0 b k v) p := by
  unfold CanonLoft bytesCanonical at *
  simp only [Bool.and_eq_true] at *
  exact ⟨⟨KM.wf_putD _ _ _ _ h.1.1, KM.noDefault_putD (d := fun _ => 0) _ _ _ h.1.2⟩, h.2⟩

theorem canonical_keepBytes (f : Nat → Byte → Bool) (h : CanonLoft b p) : CanonLoft (KM.keep f b) p := by
  unfold CanonLoft bytesCanonical at *
  simp only [Bool.and_eq_true] at *
  exact ⟨⟨KM.wf_keep _ _ h.1.1, KM.noDefault_keep _ _ h.1.2⟩, h.2⟩

theorem canonical_setPoison (k : Nat) (v : Bool) (h : CanonLoft b p) : CanonLoft b (KM.putD false p k v) := by
  unfold CanonLoft poisonCanonical at *
  simp only [Bool.and_eq_true] at *
  exact ⟨h.1, KM.wf_putD _ _ _ _ h.2.1, KM.noDefault_putD (d := fun _ => false) _ _ _ h.2.2⟩

theorem canonical_poison (k : Nat) (h : CanonLoft b p) : CanonLoft b (KM.put p k true) := by
  unfold CanonLoft poisonCanonical at *
  simp only [Bool.and_eq_true] at *
  exact ⟨h.1, KM.wf_put _ _ _ h.2.1, KM.noDefault_put _ _ _ h.2.2 (by decide)⟩

theorem canonical_keepPoison (f : Nat → Bool → Bool) (h : CanonLoft b p) : CanonLoft b (KM.keep f p) := by
  unfold CanonLoft poisonCanonical at *
  simp only [Bool.and_eq_true] at *
  exact ⟨h.1, KM.wf_keep _ _ h.2.1, KM.noDefault_keep _ _ h.2.2⟩

theorem canonical_loadBytes (base : Nat) (l : List (Nat × Byte)) (h : CanonLoft b p) :
    CanonLoft (l.foldl (fun m (q : Nat × Byte) => KM.putD 0 m (base + q.1) q.2) b) p := by
  induction l generalizing b with
  | nil => exact h
  | cons q l ih => exact ih (canonical_byte _ _ h)

theorem canonical_poisonLines (base : Nat) (l : List Nat) (h : CanonLoft b p) :
    CanonLoft b (l.foldl (fun m i => KM.put m (base + i) true) p) := by
  induction l generalizing p with
  | nil => exact h
  | cons q l ih => exact ih (canonical_poison _ h)

theorem canonLoft_empty : CanonLoft [] [] := ⟨rfl, rfl⟩

end Sys2Proof.Machine
end

