-- ==== Sys2Proof/Laws/KeptOps.lean ====
section
/-!
SUPPORT. What the operations of Ops keep (KeptBase.lean): the queue, a canonical register file, and a canonical Loft; a lemma that holds for every Q says the operation writes nothing in the Loft.
-/

set_option linter.unusedTactic false
set_option linter.unreachableTactic false
set_option linter.unusedVariables false

namespace Sys2Proof.Machine

variable {Q : KMap Byte → KMap Bool → Prop} {ql : List Instr}

theorem kept_State_setReg (s : State) (page : Nat) (off : Nat) (w : Word) (hs : Kept Q ql s) : Kept Q ql (State.setReg s page off w) := by
  exact kept_intro ⟨hs.1, canonical_setReg _ _ hs.2.1, hs.2.2⟩

theorem kept_State_setNum (s : State) (page : Nat) (off : Nat) (v : Nat) (hs : Kept Q ql s) : Kept Q ql (State.setNum s page off v) := by
  unfold State.setNum
  grind -ring -linarith [kept_State_setReg, kept_intro, of_kept]

theorem kept_State_setMax (s : State) (page : Nat) (off : Nat) (v : Nat) (hs : Kept Q ql s) : Kept Q ql (State.setMax s page off v) := by
  unfold State.setMax
  grind -ring -linarith [kept_State_setNum, kept_intro, of_kept]

theorem kept_State_perfCount (s : State) (page : Nat) (code : Nat) (n : Nat) (hs : Kept Q ql s) : Kept Q ql (State.perfCount s page code n) := by
  unfold State.perfCount
  grind -ring -linarith [kept_intro, of_kept]

theorem kept_State_countSources (s : State) (page : Nat) (x2 : List Nat) (hs : Kept Q ql s) : Kept Q ql (State.countSources s page x2) := by
  induction x2 generalizing s page with
  | nil => grind -ring -linarith [State.countSources, kept_State_perfCount, kept_intro, of_kept]
  | cons x l ih => grind -ring -linarith [State.countSources, kept_State_perfCount, kept_intro, of_kept]

theorem kept_State_emit (s : State) (o : Output) (hs : Kept Q ql s) : Kept Q ql (State.emit s o) := by
  unfold State.emit
  grind -ring -linarith [kept_intro, of_kept]

theorem kept_State_setMsixPend (s : State) (fn : Fn) (l : List Nat) (hs : Kept Q ql s) : Kept Q ql (State.setMsixPend s fn l) := by
  unfold State.setMsixPend
  grind -ring -linarith [kept_intro, of_kept]

theorem kept_State_signal (s : State) (fn : Fn) (vec : Nat) (hs : Kept Q ql s) : Kept Q ql (State.signal s fn vec) := by
  unfold State.signal
  grind -ring -linarith [kept_State_emit, kept_State_setMsixPend, kept_intro, of_kept]

theorem kept_State_signalBoth (s : State) (vec : Nat) (hs : Kept Q ql s) : Kept Q ql (State.signalBoth s vec) := by
  unfold State.signalBoth
  grind -ring -linarith [kept_State_signal, kept_intro, of_kept]

theorem kept_State_route (s : State) (page : Nat) (src : Nat) (hs : Kept Q ql s) : Kept Q ql (State.route s page src) := by
  unfold State.route
  grind -ring -linarith [kept_State_signal, kept_State_signalBoth, kept_intro, of_kept]

theorem kept_State_routeAll (s : State) (page : Nat) (x2 : List Nat) (hs : Kept Q ql s) : Kept Q ql (State.routeAll s page x2) := by
  induction x2 generalizing s page with
  | nil => grind -ring -linarith [State.routeAll, kept_State_route, kept_intro, of_kept]
  | cons x l ih => grind -ring -linarith [State.routeAll, kept_State_route, kept_intro, of_kept]

theorem kept_State_fireMask (s : State) (page : Nat) (m : Word) (hs : Kept Q ql s) : Kept Q ql (State.fireMask s page m) := by
  unfold State.fireMask
  grind -ring -linarith [kept_State_setReg, kept_State_setNum, kept_State_perfCount, kept_State_countSources, kept_State_routeAll, kept_intro, of_kept]

theorem kept_State_fire (s : State) (page : Nat) (src : Nat) (hs : Kept Q ql s) : Kept Q ql (State.fire s page src) := by
  unfold State.fire
  grind -ring -linarith [kept_State_fireMask, kept_intro, of_kept]

theorem kept_State_putWords (s : State) (page : Nat) (off : Nat) (x3 : List Nat) (hs : Kept Q ql s) : Kept Q ql (State.putWords s page off x3) := by
  induction x3 generalizing s page off with
  | nil => grind -ring -linarith [State.putWords, kept_State_setNum, kept_intro, of_kept]
  | cons x l ih => grind -ring -linarith [State.putWords, kept_State_setNum, kept_intro, of_kept]

theorem kept_State_present (s : State) (page : Nat) (off : Nat) (ws : List Nat) (hs : Kept Q ql s) : Kept Q ql (State.present s page off ws) := by
  unfold State.present
  grind -ring -linarith [kept_State_setNum, kept_State_putWords, kept_intro, of_kept]

theorem kept_State_publish (s : State) (page : Nat) (off : Nat) (ws : List Nat) (cap : Nat) (hs : Kept Q ql s) : Kept Q ql (State.publish s page off ws cap) := by
  unfold State.publish
  grind -ring -linarith [kept_State_present, kept_intro, of_kept]

theorem kept_State_setFld (s : State) (page : Nat) (off : Nat) (hi : Nat) (lo : Nat) (v : Nat) (hs : Kept Q ql s) : Kept Q ql (State.setFld s page off hi lo v) := by
  unfold State.setFld
  grind -ring -linarith [kept_State_setReg, kept_intro, of_kept]

theorem kept_State_bump (s : State) (page : Nat) (off : Nat) (n : optParam Nat 1) (hs : Kept Q ql s) : Kept Q ql (State.bump s page off n) := by
  unfold State.bump
  grind -ring -linarith [kept_State_setReg, kept_State_perfCount, kept_intro, of_kept]

theorem kept_State_consume (s : State) (page : Nat) (off : Nat) (hs : Kept Q ql s) : Kept Q ql (State.consume s page off) := by
  unfold State.consume
  grind -ring -linarith [kept_State_setReg, kept_State_present, kept_intro, of_kept]

theorem kept_State_ack (s : State) (page : Nat) (off : Nat) (seq : Nat) (hs : Kept Q ql s) : Kept Q ql (State.ack s page off seq) := by
  unfold State.ack
  grind -ring -linarith [kept_State_bump, kept_State_consume, kept_intro, of_kept]

theorem kept_State_fireLimited (s : State) (page : Nat) (src : Nat) (period : optParam Nat second) (sub : optParam Nat 0) (hs : Kept Q ql s) : Kept Q ql (State.fireLimited s page src period sub) := by
  unfold State.fireLimited
  grind -ring -linarith [kept_State_fire, kept_intro, of_kept]

theorem kept_State_fresh (s : State) (hs : Kept Q ql s) : Kept Q ql (State.fresh s).2 := by
  unfold State.fresh
  grind -ring -linarith [kept_intro, of_kept]

theorem kept_State_setRegion (s : State) (r : Nat) (v : RegionState) (hs : Kept Q ql s) : Kept Q ql (State.setRegion s r v) := by
  unfold State.setRegion
  grind -ring -linarith [kept_intro, of_kept]

theorem kept_State_set64 (s : State) (page : Nat) (lo : Nat) (hi : Nat) (v : Nat) (hs : Kept Q ql s) : Kept Q ql (State.set64 s page lo hi v) := by
  unfold State.set64
  grind -ring -linarith [kept_State_setNum, kept_intro, of_kept]

theorem kept_State_clearCounters (s : State) (page : Nat) (hs : Kept Q ql s) : Kept Q ql (State.clearCounters s page) := by
  unfold State.clearCounters
  grind -ring -linarith [kept_intro, of_kept]

theorem kept_State_resetRegs (s : State) (page : Nat) (hs : Kept Q ql s) : Kept Q ql (State.resetRegs s page) := by
  unfold State.resetRegs
  dsimp only
  have h : Kept Q ql { s with regs := KM.keep (fun k w => decide (w ≠ resetAt k)) (KM.mapV (resetEntry page) s.regs) } :=
    kept_intro ⟨hs.1, canonical_mapRegs _ hs.2.1, hs.2.2⟩
  exact kept_State_clearCounters _ _ (kept_with_host _ h)

theorem kept_State_setPageInfo (s : State) (page : Nat) (v : PageInfo) (hs : Kept Q ql s) : Kept Q ql (State.setPageInfo s page v) := by
  unfold State.setPageInfo
  grind -ring -linarith [kept_intro, of_kept]

theorem kept_State_dropProbes (s : State) (r : Nat) (hs : Kept Q ql s) : Kept Q ql (State.dropProbes s r) := by
  unfold State.dropProbes
  grind -ring -linarith [kept_intro, of_kept]

theorem kept_State_showEngine (s : State) (page : Nat) (v : Service) (hs : Kept Q ql s) : Kept Q ql (State.showEngine s page v) := by
  unfold State.showEngine
  grind -ring -linarith [kept_State_setFld, kept_intro, of_kept]

theorem kept_State_setPg (s : State) (page : Nat) (v : Service) (cause : Nat) (hs : Kept Q ql s) : Kept Q ql (State.setPg s page v cause) := by
  unfold State.setPg
  grind -ring -linarith [kept_State_setNum, kept_State_setPageInfo, kept_State_dropProbes, kept_State_showEngine, kept_intro, of_kept]

theorem kept_State_restartPage (s : State) (page : Nat) (cause : Nat) (outage : Nat) (hold : Nat) (hs : Kept Q ql s) : Kept Q ql (State.restartPage s page cause outage hold) := by
  unfold State.restartPage
  grind -ring -linarith [kept_State_setPageInfo, kept_State_setPg, kept_intro, of_kept]

theorem kept_State_setIsland (s : State) (k : Nat) (v : Island) (hs : Kept Q ql s) : Kept Q ql (State.setIsland s k v) := by
  unfold State.setIsland
  grind -ring -linarith [kept_intro, of_kept]

theorem kept_State_retirePage (s : State) (page : Nat) (cause : Nat) (hs : Kept Q ql s) : Kept Q ql (State.retirePage s page cause) := by
  unfold State.retirePage
  grind -ring -linarith [kept_State_setPg, kept_intro, of_kept]

theorem kept_State_lockDrop (s : State) (hs : Kept Q ql s) : Kept Q ql (State.lockDrop s) := by
  unfold State.lockDrop
  grind -ring -linarith [kept_State_bump, kept_intro, of_kept]

theorem kept_State_guarded (s : State) (req : Requester) (page : Nat) (f : State → State) (hs : Kept Q ql s) (hf : ∀ s, Kept Q ql s → Kept Q ql (f s)) : Kept Q ql (State.guarded s req page f) := by
  unfold State.guarded
  grind -ring -linarith [kept_State_lockDrop, kept_intro, of_kept]

theorem kept_State_setMsixWord (s : State) (fn : Fn) (i : Nat) (w : Word) (hs : Kept Q ql s) : Kept Q ql (State.setMsixWord s fn i w) := by
  unfold State.setMsixWord
  grind -ring -linarith [kept_intro, of_kept]

end Sys2Proof.Machine
end

