-- ==== Sys2Proof/Laws/KeptAdmin.lean ====
section
/-!
SUPPORT. What the operations of Admin keep (KeptBase.lean): the queue, a canonical register file, and a canonical Loft; a lemma that holds for every Q says the operation writes nothing in the Loft.
-/

set_option linter.unusedTactic false
set_option linter.unreachableTactic false
set_option linter.unusedVariables false

namespace Sys2Proof.Machine

variable {Q : KMap Byte → KMap Bool → Prop} {ql : List Instr}

theorem kept_State_setAq (s : State) (fn : Fn) (q : Nat) (v : AdminQ) (hs : Kept Q ql s) : Kept Q ql (State.setAq s fn q v) := by
  unfold State.setAq
  grind -ring -linarith [kept_intro, of_kept]

theorem kept_State_holdCqe (s : State) (fn : Fn) (q : Nat) (e : Cqe) (hs : Kept Q ql s) : Kept Q ql (State.holdCqe s fn q e) := by
  unfold State.holdCqe
  grind -ring -linarith [kept_State_setAq, kept_intro, of_kept]

theorem kept_State_complete (s : State) (opId : Nat) (a : Answer) (hs : Kept Q ql s) : Kept Q ql (State.complete s opId a) := by
  unfold State.complete
  grind -ring -linarith [kept_State_holdCqe, kept_intro, of_kept]

theorem kept_State_zeroRegs (s : State) (page : Nat) (x2 : List Nat) (hs : Kept Q ql s) : Kept Q ql (State.zeroRegs s page x2) := by
  induction x2 generalizing s page with
  | nil => grind -ring -linarith [State.zeroRegs, kept_State_setNum, kept_intro, of_kept]
  | cons x l ih => grind -ring -linarith [State.zeroRegs, kept_State_setNum, kept_intro, of_kept]

theorem kept_State_useChallenge (s : State) (c : AdminCmd) (hs : Kept Q ql s) : Kept Q ql (State.useChallenge s c) := by
  unfold State.useChallenge
  grind -ring -linarith [kept_intro, of_kept]

theorem kept_State_checks (s : State) (op : Nat) (c : AdminCmd) (hs : Kept Q ql s) : Kept Q ql (State.checks s op c).2 := by
  unfold State.checks
  grind -ring -linarith [kept_State_useChallenge, kept_intro, of_kept]

theorem kept_State_enter (s : State) (op : Nat) (c : AdminCmd) (hs : Kept Q ql s) : Kept Q ql (State.enter s op c).2 := by
  unfold State.enter
  grind -ring -linarith [kept_State_set64, kept_intro, of_kept]

theorem kept_State_adminRun (s : State) (op : Nat) (c : AdminCmd) (body : Nat → State → State × Option Answer) (hs : Kept Q ql s) (hbody : ∀ op s, Kept Q ql s → Kept Q ql (body op s).1) : Kept Q ql (State.adminRun s op c body) := by
  unfold State.adminRun
  grind -ring -linarith (splits := 20) (gen := 16) (ematch := 12) [kept_State_complete, kept_State_checks, kept_State_enter, kept_intro, of_kept]

theorem kept_State_clearCounts (s : State) (page : Nat) (hs : Kept Q ql s) : Kept Q ql (State.clearCounts s page) := by
  unfold State.clearCounts
  grind -ring -linarith [kept_State_zeroRegs, kept_intro, of_kept]

theorem kept_State_delAq (s : State) (fn : Fn) (q : Nat) (hs : Kept Q ql s) : Kept Q ql (State.delAq s fn q) := by
  unfold State.delAq
  grind -ring -linarith [kept_intro, of_kept]

theorem kept_State_haltAq (s : State) (fn : Fn) (q : Nat) (a : AdminQ) (hs : Kept Q ql s) : Kept Q ql (State.haltAq s fn q a) := by
  unfold State.haltAq
  grind -ring -linarith [kept_State_fire, kept_State_setFld, kept_State_setAq, kept_intro, of_kept]

theorem kept_State_journalStep (s : State) (opId : Nat) (step : Nat) (hs : Kept Q ql s) : Kept Q ql (State.journalStep s opId step) := by
  unfold State.journalStep
  grind -ring -linarith [kept_intro, of_kept]

theorem kept_State_stray (s : State) (fn : Fn) (hs : Kept Q ql s) : Kept Q ql (State.stray s fn) := by
  unfold State.stray
  grind -ring -linarith [kept_State_bump, kept_intro, of_kept]

theorem kept_State_toBuffer (s : State) (c : AdminCmd) (bs : List Byte) (hs : Kept Q ql s) : Kept Q ql (State.toBuffer s c bs) := by
  unfold State.toBuffer
  grind -ring -linarith [kept_State_emit, kept_intro, of_kept]

theorem kept_execAqEnableClear (fn : Fn) (data : Word) (s : State) (hs : Kept Q ql s) : ∀ out, execAqEnableClear fn data s = .next out → Kept Q ql out := by
  intro out e
  unfold execAqEnableClear at e
  grind -ring -linarith [kept_State_setReg, kept_State_setNum, kept_State_setFld, kept_State_delAq, kept_State_guarded, kept_intro, of_kept]

theorem kept_execAqEnableSet (fn : Fn) (data : Word) (s : State) (hs : Kept Q ql s) : ∀ out, execAqEnableSet fn data s = .next out → Kept Q ql out := by
  intro out e
  unfold execAqEnableSet at e
  grind -ring -linarith [kept_State_setReg, kept_State_setNum, kept_State_fire, kept_State_setAq, kept_State_guarded, kept_intro, of_kept]

theorem kept_execCqHeadDoorbell (fn : Fn) (q : Nat) (data : Word) (s : State) (hs : Kept Q ql s) : ∀ out, execCqHeadDoorbell fn q data s = .next out → Kept Q ql out := by
  intro out e
  unfold execCqHeadDoorbell at e
  grind -ring -linarith [kept_State_setAq, kept_State_guarded, kept_State_haltAq, kept_State_stray, kept_intro, of_kept]

theorem kept_execSqTailDoorbell (fn : Fn) (q : Nat) (data : Word) (s : State) (hs : Kept Q ql s) : ∀ out, execSqTailDoorbell fn q data s = .next out → Kept Q ql out := by
  intro out e
  unfold execSqTailDoorbell at e
  grind -ring -linarith [kept_State_setAq, kept_State_guarded, kept_State_haltAq, kept_State_stray, kept_intro, of_kept]

theorem kept_execAbort (c : AdminCmd) (s : State) (hs : Kept Q ql s) : ∀ out, execAbort c s = .next out → Kept Q ql out := by
  intro out e
  unfold execAbort at e
  grind -ring -linarith [kept_State_holdCqe, kept_State_adminRun, kept_intro, of_kept]

theorem kept_execClearCounts (c : AdminCmd) (s : State) (hs : Kept Q ql s) : ∀ out, execClearCounts c s = .next out → Kept Q ql out := by
  intro out e
  unfold execClearCounts at e
  grind -ring -linarith [kept_State_setNum, kept_State_adminRun, kept_State_clearCounts, kept_intro, of_kept]

theorem kept_execCqCoalesceExpire (fn : Fn) (q : Nat) (s : State) (hs : Kept Q ql s) : ∀ out, execCqCoalesceExpire fn q s = .next out → Kept Q ql out := by
  intro out e
  unfold execCqCoalesceExpire at e
  grind -ring -linarith [kept_State_signal, kept_State_setAq, kept_intro, of_kept]

theorem kept_execCqStall (fn : Fn) (q : Nat) (s : State) (hs : Kept Q ql s) : ∀ out, execCqStall fn q s = .next out → Kept Q ql out := by
  intro out e
  unfold execCqStall at e
  grind -ring -linarith [kept_State_fire, kept_intro, of_kept]

theorem kept_execCqePost (fn : Fn) (q : Nat) (s : State) (hs : Kept Q ql s) : ∀ out, execCqePost fn q s = .next out → Kept Q ql out := by
  intro out e
  unfold execCqePost at e
  grind -ring -linarith [kept_State_emit, kept_State_signal, kept_State_setAq, kept_intro, of_kept]

theorem kept_execCreateQp (c : AdminCmd) (s : State) (hs : Kept Q ql s) : ∀ out, execCreateQp c s = .next out → Kept Q ql out := by
  intro out e
  unfold execCreateQp at e
  grind -ring -linarith [kept_State_setAq, kept_State_adminRun, kept_intro, of_kept]

theorem kept_execDeleteQp (c : AdminCmd) (s : State) (hs : Kept Q ql s) : ∀ out, execDeleteQp c s = .next out → Kept Q ql out := by
  intro out e
  unfold execDeleteQp at e
  grind -ring -linarith [kept_State_adminRun, kept_State_delAq, kept_intro, of_kept]

theorem kept_execDrillAuth (c : AdminCmd) (s : State) (hs : Kept Q ql s) : ∀ out, execDrillAuth c s = .next out → Kept Q ql out := by
  intro out e
  unfold execDrillAuth at e
  grind -ring -linarith [kept_State_adminRun, kept_intro, of_kept]

theorem kept_execGetChallenge (c : AdminCmd) (s : State) (hs : Kept Q ql s) : ∀ out, execGetChallenge c s = .next out → Kept Q ql out := by
  intro out e
  unfold execGetChallenge at e
  grind -ring -linarith [kept_State_fresh, kept_State_adminRun, kept_intro, of_kept]

theorem kept_execIdentify (c : AdminCmd) (s : State) (hs : Kept Q ql s) : ∀ out, execIdentify c s = .next out → Kept Q ql out := by
  intro out e
  unfold execIdentify at e
  grind -ring -linarith [kept_State_emit, kept_State_adminRun, kept_intro, of_kept]

theorem kept_execInvalidOpcode (op : Nat) (c : AdminCmd) (s : State) (hs : Kept Q ql s) : ∀ out, execInvalidOpcode op c s = .next out → Kept Q ql out := by
  intro out e
  unfold execInvalidOpcode at e
  grind -ring -linarith [kept_State_adminRun, kept_intro, of_kept]

theorem kept_execJournalRead (c : AdminCmd) (s : State) (hs : Kept Q ql s) : ∀ out, execJournalRead c s = .next out → Kept Q ql out := by
  intro out e
  unfold execJournalRead at e
  grind -ring -linarith [kept_State_adminRun, kept_State_toBuffer, kept_intro, of_kept]

theorem kept_execLockBreak (c : AdminCmd) (s : State) (hs : Kept Q ql s) : ∀ out, execLockBreak c s = .next out → Kept Q ql out := by
  intro out e
  unfold execLockBreak at e
  grind -ring -linarith [kept_State_setNum, kept_State_adminRun, kept_intro, of_kept]

theorem kept_execNop (c : AdminCmd) (s : State) (hs : Kept Q ql s) : ∀ out, execNop c s = .next out → Kept Q ql out := by
  intro out e
  unfold execNop at e
  grind -ring -linarith [kept_State_adminRun, kept_intro, of_kept]

theorem kept_execSetVector (c : AdminCmd) (s : State) (hs : Kept Q ql s) : ∀ out, execSetVector c s = .next out → Kept Q ql out := by
  intro out e
  unfold execSetVector at e
  grind -ring -linarith [kept_State_adminRun, kept_intro, of_kept]

theorem kept_execSqeFetch (fn : Fn) (q : Nat) (op : Nat) (c : AdminCmd) (s : State) (hs : Kept Q ql s) : ∀ out, execSqeFetch fn q op c s = .next out → Kept Q ql out := by
  intro out e
  unfold execSqeFetch at e
  grind -ring -linarith [kept_State_setAq, kept_State_enter, kept_State_haltAq, kept_intro, of_kept]

end Sys2Proof.Machine
end

