-- ==== Sys2Proof/Laws/KeptMem.lean ====
section
/-!
SUPPORT. What the operations of Mem keep (KeptBase.lean): the queue, a canonical register file, and a canonical Loft; a lemma that holds for every Q says the operation writes nothing in the Loft.
-/

set_option linter.unusedTactic false
set_option linter.unreachableTactic false
set_option linter.unusedVariables false

namespace Sys2Proof.Machine

variable {Q : KMap Byte → KMap Bool → Prop} {ql : List Instr}

theorem kept_State_setMap (s : State) (page : Nat) (e : MapEntry) (hs : Kept Q ql s) : Kept Q ql (State.setMap s page e) := by
  unfold State.setMap
  grind -ring -linarith [kept_intro, of_kept]

theorem kept_State_countShares (s : State) (page : Nat) (poison : Bool) (x3 : List Nat) (hs : Kept Q ql s) : Kept Q ql (State.countShares s page poison x3) := by
  induction x3 generalizing s page poison with
  | nil => grind -ring -linarith [State.countShares, kept_State_bump, kept_intro, of_kept]
  | cons x l ih => grind -ring -linarith [State.countShares, kept_State_bump, kept_intro, of_kept]

theorem kept_State_countPage (s : State) (page : Nat) (poison : Bool) (hs : Kept Q ql s) : Kept Q ql (State.countPage s page poison) := by
  unfold State.countPage
  grind -ring -linarith [kept_State_countShares, kept_intro, of_kept]

theorem kept_State_poisonLines (s : State) (page : Nat) (lines : List Nat) (hs : Kept CanonLoft ql s) : Kept CanonLoft ql (State.poisonLines s page lines) := by
  exact kept_intro ⟨hs.1, hs.2.1, canonical_poisonLines _ _ hs.2.2⟩

theorem kept_State_zeroPageBytes (s : State) (page : Nat) (hs : Kept CanonLoft ql s) : Kept CanonLoft ql (State.zeroPageBytes s page) := by
  exact kept_intro ⟨hs.1, hs.2.1, canonical_keepPoison _ (canonical_keepBytes _ hs.2.2)⟩

theorem kept_State_rowHit (s : State) (dpa : Nat) (hs : Kept Q ql s) : Kept Q ql (State.rowHit s dpa) := by
  unfold State.rowHit
  grind -ring -linarith [kept_State_bump, kept_intro, of_kept]

theorem kept_State_countStore (s : State) (dpa : Nat) (poison : Bool) (part : Bool) (hs : Kept Q ql s) : Kept Q ql (State.countStore s dpa poison part) := by
  unfold State.countStore
  grind -ring -linarith [kept_State_bump, kept_State_rowHit, kept_intro, of_kept]

theorem kept_State_loftPutByte (s : State) (dpa : Nat) (b : Byte) (hs : Kept CanonLoft ql s) : Kept CanonLoft ql (State.loftPutByte s dpa b) := by
  exact kept_intro ⟨hs.1, hs.2.1, canonical_byte _ _ hs.2.2⟩

theorem kept_State_loftPut (s : State) (dpa : Nat) (x2 : List Byte) (hs : Kept CanonLoft ql s) : Kept CanonLoft ql (State.loftPut s dpa x2) := by
  induction x2 generalizing s dpa with
  | nil => grind -ring -linarith [State.loftPut, kept_State_loftPutByte, kept_intro, of_kept]
  | cons x l ih => grind -ring -linarith [State.loftPut, kept_State_loftPutByte, kept_intro, of_kept]

theorem kept_State_setPoison (s : State) (line : Nat) (p : Bool) (hs : Kept CanonLoft ql s) : Kept CanonLoft ql (State.setPoison s line p) := by
  exact kept_intro ⟨hs.1, hs.2.1, canonical_setPoison _ _ hs.2.2⟩

theorem kept_State_poisonLine (s : State) (line : Nat) (hs : Kept CanonLoft ql s) : Kept CanonLoft ql (State.poisonLine s line) := by
  unfold State.poisonLine
  grind -ring -linarith [kept_State_loftPut, kept_State_setPoison, kept_intro, of_kept]

theorem kept_State_loadBytes (s : State) (page : Nat) (data : KMap Byte) (hs : Kept CanonLoft ql s) : Kept CanonLoft ql (State.loadBytes s page data) := by
  exact kept_intro ⟨hs.1, hs.2.1, canonical_loadBytes _ _ hs.2.2⟩

theorem kept_State_endRecovery (s : State) (line : Nat) (hs : Kept Q ql s) : Kept Q ql (State.endRecovery s line) := by
  unfold State.endRecovery
  grind -ring -linarith [kept_intro, of_kept]

theorem kept_State_placeLine (s : State) (dpa : Nat) (bs : List Byte) (poison : Bool) (hs : Kept CanonLoft ql s) : Kept CanonLoft ql (State.placeLine s dpa bs poison) := by
  unfold State.placeLine
  grind -ring -linarith [kept_State_countStore, kept_State_loftPut, kept_State_setPoison, kept_State_poisonLine, kept_State_endRecovery, kept_intro, of_kept]

theorem kept_State_placeShares (s : State) (map : Nat) (x2 : List (Nat × List Byte)) (hs : Kept CanonLoft ql s) : Kept CanonLoft ql (State.placeShares s map x2) := by
  induction x2 generalizing s map with
  | nil => grind -ring -linarith [State.placeShares, kept_State_placeLine, kept_intro, of_kept]
  | cons x l ih => grind -ring -linarith [State.placeShares, kept_State_placeLine, kept_intro, of_kept]

theorem kept_State_place (s : State) (dpa : Nat) (bs : List Byte) (map : Nat) (hs : Kept CanonLoft ql s) : Kept CanonLoft ql (State.place s dpa bs map) := by
  unfold State.place
  grind -ring -linarith [kept_State_setRegion, kept_State_placeShares, kept_intro, of_kept]

theorem kept_State_drainBuffer (s : State) (r : Nat) (hs : Kept Q ql s) : Kept Q ql (State.drainBuffer s r) := by
  unfold State.drainBuffer
  grind -ring -linarith [kept_State_setRegion, kept_intro, of_kept]

theorem kept_State_showKeys (s : State) (x1 : List Nat) (hs : Kept Q ql s) : Kept Q ql (State.showKeys s x1) := by
  induction x1 generalizing s with
  | nil => grind -ring -linarith [State.showKeys, kept_State_setFld, kept_intro, of_kept]
  | cons x l ih => grind -ring -linarith [State.showKeys, kept_State_setFld, kept_intro, of_kept]

theorem kept_State_setObject (s : State) (id : Nat) (o : Object) (hs : Kept Q ql s) : Kept Q ql (State.setObject s id o) := by
  unfold State.setObject
  grind -ring -linarith [kept_intro, of_kept]

theorem kept_State_setWindow (s : State) (idx : Nat) (w : Window) (hs : Kept Q ql s) : Kept Q ql (State.setWindow s idx w) := by
  unfold State.setWindow
  grind -ring -linarith [kept_intro, of_kept]

theorem kept_State_countLines (s : State) (buffer : KMap Byte) (x2 : List Nat) (hs : Kept Q ql s) : Kept Q ql (State.countLines s buffer x2) := by
  induction x2 generalizing s buffer with
  | nil => grind -ring -linarith [State.countLines, kept_State_countStore, kept_intro, of_kept]
  | cons x l ih => grind -ring -linarith [State.countLines, kept_State_countStore, kept_intro, of_kept]

theorem kept_State_showRestoreKey (s : State) (on : Bool) (x2 : List Nat) (hs : Kept Q ql s) : Kept Q ql (State.showRestoreKey s on x2) := by
  induction x2 generalizing s on with
  | nil => grind -ring -linarith [State.showRestoreKey, kept_State_setFld, kept_intro, of_kept]
  | cons x l ih => grind -ring -linarith [State.showRestoreKey, kept_State_setFld, kept_intro, of_kept]

end Sys2Proof.Machine
end

