-- ==== Sys2Proof/Laws/KeptLink.lean ====
section
/-!
SUPPORT. What the operations of Link keep (KeptBase.lean): the queue, a canonical register file, and a canonical Loft; a lemma that holds for every Q says the operation writes nothing in the Loft.
-/

set_option linter.unusedTactic false
set_option linter.unreachableTactic false
set_option linter.unusedVariables false

namespace Sys2Proof.Machine

variable {Q : KMap Byte → KMap Bool → Prop} {ql : List Instr}

theorem kept_State_countHeld (s : State) (hs : Kept Q ql s) : Kept Q ql (State.countHeld s) := by
  unfold State.countHeld
  grind -ring -linarith [kept_foldl, kept_intro, of_kept]

theorem kept_State_setDirty (s : State) (r : Nat) (d : Dirty) (hs : Kept Q ql s) : Kept Q ql (State.setDirty s r d) := by
  unfold State.setDirty
  grind -ring -linarith [kept_State_setReg, kept_State_setNum, kept_State_countHeld, kept_intro, of_kept]

theorem kept_State_chargePage (s : State) (page : Nat) (owner : Nat) (hs : Kept Q ql s) : Kept Q ql (State.chargePage s page owner) := by
  unfold State.chargePage
  grind -ring -linarith [kept_State_setDirty, kept_intro, of_kept]

theorem kept_State_setStaged (s : State) (r : Nat) (l : List Staged) (hs : Kept Q ql s) : Kept Q ql (State.setStaged s r l) := by
  unfold State.setStaged
  grind -ring -linarith [kept_State_setNum, kept_intro, of_kept]

theorem kept_State_dropStaged (s : State) (page : Nat) (hs : Kept Q ql s) : Kept Q ql (State.dropStaged s page) := by
  unfold State.dropStaged
  grind -ring -linarith [kept_State_setStaged, kept_intro, of_kept]

theorem kept_State_logPage (s : State) (page : Nat) (hs : Kept Q ql s) : Kept Q ql (State.logPage s page) := by
  unfold State.logPage
  grind -ring -linarith [kept_State_setNum, kept_intro, of_kept]

theorem kept_State_changeMap (s : State) (page : Nat) (e : MapEntry) (hs : Kept Q ql s) : Kept Q ql (State.changeMap s page e) := by
  unfold State.changeMap
  grind -ring -linarith [kept_State_dropStaged, kept_State_logPage, kept_State_setMap, kept_intro, of_kept]

theorem kept_State_noteExhausted (s : State) (n : Nat) (hs : Kept Q ql s) : Kept Q ql (State.noteExhausted s n) := by
  unfold State.noteExhausted
  grind -ring -linarith [kept_State_fire, kept_intro, of_kept]

theorem kept_State_setSlot (s : State) (n : Nat) (v : Slot) (hs : Kept Q ql s) : Kept Q ql (State.setSlot s n v) := by
  unfold State.setSlot
  grind -ring -linarith [kept_State_setFld, kept_intro, of_kept]

theorem kept_State_sealCount (s : State) (n : Nat) (hs : Kept Q ql s) : Kept Q ql (State.sealCount s n).2.2 := by
  unfold State.sealCount
  dsimp only
  split
  · exact hs
  · apply kept_State_setSlot
    split
    · exact kept_State_fireLimited _ _ _ _ _ (kept_State_bump _ _ _ _ hs)
    · exact hs

theorem kept_State_sendFrame (s : State) (f : TwinFrame) (hs : Kept Q ql s) : Kept Q ql (State.sendFrame s f) := by
  unfold State.sendFrame
  grind -ring -linarith [kept_State_emit, kept_State_bump, kept_State_noteExhausted, kept_State_sealCount, kept_intro, of_kept]

theorem kept_State_sendSeq (s : State) (b : TwinBody) (bytes : List (Nat × Nat × Nat)) (pages : List Nat) (hs : Kept Q ql s) : Kept Q ql (State.sendSeq s b bytes pages) := by
  unfold State.sendSeq
  grind -ring -linarith [kept_State_set64, kept_State_sendFrame, kept_intro, of_kept]

theorem kept_State_sendMeta (fuel : Nat) (s : State) (recs : List MetaRecord) (pages : List Nat) (hs : Kept Q ql s) : Kept Q ql (State.sendMeta fuel s recs pages) := by
  induction fuel generalizing s recs pages with
  | zero => grind -ring -linarith [State.sendMeta, kept_State_sendSeq, kept_intro, of_kept]
  | succ n ih => grind -ring -linarith [State.sendMeta, kept_State_sendSeq, kept_intro, of_kept]

theorem kept_State_mirrorMeta (s : State) (recs : List MetaRecord) (pages : optParam (List Nat) []) (hs : Kept Q ql s) : Kept Q ql (State.mirrorMeta s recs pages) := by
  unfold State.mirrorMeta
  grind -ring -linarith [kept_State_sendMeta, kept_intro, of_kept]

theorem kept_State_freeFlash (s : State) (loc : Nat) (hs : Kept Q ql s) : Kept Q ql (State.freeFlash s loc) := by
  unfold State.freeFlash
  grind -ring -linarith [kept_intro, of_kept]

theorem kept_State_freeGather (s : State) (g : Nat) (hs : Kept Q ql s) : Kept Q ql (State.freeGather s g) := by
  unfold State.freeGather
  grind -ring -linarith [kept_State_setDirty, kept_intro, of_kept]

theorem kept_State_uncharge (s : State) (page : Nat) (hs : Kept Q ql s) : Kept Q ql (State.uncharge s page) := by
  unfold State.uncharge
  grind -ring -linarith [kept_State_setDirty, kept_intro, of_kept]

theorem kept_State_releasePage (s : State) (page : Nat) (hs : Kept Q ql s) : Kept Q ql (State.releasePage s page) := by
  unfold State.releasePage
  grind -ring -linarith [kept_State_changeMap, kept_State_freeFlash, kept_State_freeGather, kept_State_uncharge, kept_intro, of_kept]

theorem kept_State_sendEach (s : State) (b : TwinBody) (x2 : List Nat) (hs : Kept Q ql s) : Kept Q ql (State.sendEach s b x2) := by
  induction x2 generalizing s b with
  | nil => grind -ring -linarith [State.sendEach, kept_State_sendFrame, kept_intro, of_kept]
  | cons x l ih => grind -ring -linarith [State.sendEach, kept_State_sendFrame, kept_intro, of_kept]

theorem kept_State_sendAll (s : State) (b : TwinBody) (hs : Kept Q ql s) : Kept Q ql (State.sendAll s b) := by
  unfold State.sendAll
  grind -ring -linarith [kept_State_sendEach, kept_intro, of_kept]

theorem kept_State_logPages (s : State) (x1 : List Nat) (hs : Kept Q ql s) : Kept Q ql (State.logPages s x1) := by
  induction x1 generalizing s with
  | nil => grind -ring -linarith [State.logPages, kept_State_logPage, kept_intro, of_kept]
  | cons x l ih => grind -ring -linarith [State.logPages, kept_State_logPage, kept_intro, of_kept]

theorem kept_State_drawKey (s : State) (hs : Kept Q ql s) : Kept Q ql (State.drawKey s).2 := by
  unfold State.drawKey
  grind -ring -linarith [kept_State_fresh, kept_intro, of_kept]

theorem kept_State_drawSalt (s : State) (n : Nat) (kind : Nat) (x3 : Nat) (hs : Kept Q ql s) : Kept Q ql (State.drawSalt s n kind x3).2 := by
  induction x3 generalizing s n kind with
  | zero => grind -ring -linarith [State.drawSalt, kept_State_fresh, kept_intro, of_kept]
  | succ n ih => grind -ring -linarith [State.drawSalt, kept_State_fresh, kept_intro, of_kept]

theorem kept_State_loadSlot (s : State) (n : Nat) (kind : Nat) (owner : Nat) (key : Nat) (hs : Kept Q ql s) : Kept Q ql (State.loadSlot s n kind owner key) := by
  unfold State.loadSlot
  grind -ring -linarith [kept_State_setSlot, kept_State_drawSalt, kept_intro, of_kept]

theorem kept_State_afterMirror (s : State) (op : Nat) (a : Answer) (hs : Kept Q ql s) : Kept Q ql (State.afterMirror s op a).1 := by
  unfold State.afterMirror
  grind -ring -linarith [kept_intro, of_kept]

theorem kept_State_sendOne (s : State) (b : TwinBody) (hs : Kept Q ql s) : Kept Q ql (State.sendOne s b) := by
  unfold State.sendOne
  grind -ring -linarith [kept_State_sendFrame, kept_intro, of_kept]

theorem kept_State_zeroSlot (s : State) (n : Nat) (hs : Kept Q ql s) : Kept Q ql (State.zeroSlot s n) := by
  unfold State.zeroSlot
  grind -ring -linarith [kept_State_setSlot, kept_intro, of_kept]

theorem kept_State_dropRef (s : State) (n : Nat) (hs : Kept Q ql s) : Kept Q ql (State.dropRef s n) := by
  unfold State.dropRef
  grind -ring -linarith [kept_State_zeroSlot, kept_intro, of_kept]

theorem kept_State_releasePages (s : State) (x1 : List Nat) (hs : Kept Q ql s) : Kept Q ql (State.releasePages s x1) := by
  induction x1 generalizing s with
  | nil => grind -ring -linarith [State.releasePages, kept_State_releasePage, kept_intro, of_kept]
  | cons x l ih => grind -ring -linarith [State.releasePages, kept_State_releasePage, kept_intro, of_kept]

end Sys2Proof.Machine
end

