-- ==== Sys2Proof/Laws/KeptMiss.lean ====
section
/-!
SUPPORT. What the operations of Miss keep (KeptBase.lean): the queue, a canonical register file, and a canonical Loft; a lemma that holds for every Q says the operation writes nothing in the Loft.
-/

set_option linter.unusedTactic false
set_option linter.unreachableTactic false
set_option linter.unusedVariables false

namespace Sys2Proof.Machine

variable {Q : KMap Byte → KMap Bool → Prop} {ql : List Instr}

theorem kept_State_showMisses (s : State) (r : Nat) (hs : Kept Q ql s) : Kept Q ql (State.showMisses s r) := by
  unfold State.showMisses
  grind -ring -linarith [kept_State_setFld, kept_intro, of_kept]

theorem kept_State_park (s : State) (loc : Nat) (page : Nat) (tenant : Nat) (who : Parked) (hs : Kept Q ql s) : Kept Q ql (State.park s loc page tenant who) := by
  unfold State.park
  grind -ring -linarith [kept_State_bump, kept_State_showMisses, kept_intro, of_kept]

theorem kept_State_unpark (fuel : Nat) (s : State) (r : Nat) (hs : Kept Q ql s) : Kept Q ql (State.unpark fuel s r) := by
  induction fuel generalizing s r with
  | zero => grind -ring -linarith [State.unpark, kept_State_park, kept_intro, of_kept]
  | succ n ih => grind -ring -linarith [State.unpark, kept_State_park, kept_intro, of_kept]

theorem kept_State_dropMiss (s : State) (loc : Nat) (hs : Kept Q ql s) : Kept Q ql (State.dropMiss s loc) := by
  unfold State.dropMiss
  grind -ring -linarith [kept_State_showMisses, kept_State_unpark, kept_intro, of_kept]

end Sys2Proof.Machine
end

