-- ==== Sys2Proof/Laws/KeptDurable.lean ====
section
/-!
SUPPORT. What the operations of Durable keep (KeptBase.lean): the queue, a canonical register file, and a canonical Loft; a lemma that holds for every Q says the operation writes nothing in the Loft.
-/

set_option linter.unusedTactic false
set_option linter.unreachableTactic false
set_option linter.unusedVariables false

namespace Sys2Proof.Machine

variable {Q : KMap Byte → KMap Bool → Prop} {ql : List Instr}

theorem kept_State_dropTrain (s : State) (r : Nat) (hs : Kept Q ql s) : Kept Q ql (State.dropTrain s r) := by
  unfold State.dropTrain
  grind -ring -linarith [kept_State_setReg, kept_intro, of_kept]

theorem kept_State_showTrain (s : State) (r : Nat) (x2 : List Nat) (hs : Kept Q ql s) : Kept Q ql (State.showTrain s r x2) := by
  induction x2 generalizing s r with
  | nil => grind -ring -linarith [State.showTrain, kept_State_setFld, kept_intro, of_kept]
  | cons x l ih => grind -ring -linarith [State.showTrain, kept_State_setFld, kept_intro, of_kept]

theorem kept_State_abandonTrain (s : State) (r : Nat) (hs : Kept Q ql s) : Kept Q ql (State.abandonTrain s r) := by
  unfold State.abandonTrain
  grind -ring -linarith [kept_State_bump, kept_State_dropTrain, kept_State_showTrain, kept_intro, of_kept]

theorem kept_State_enterHold (s : State) (r : Nat) (hs : Kept Q ql s) : Kept Q ql (State.enterHold s r) := by
  unfold State.enterHold
  grind -ring -linarith [kept_State_fire, kept_State_bump, kept_State_setDirty, kept_intro, of_kept]

theorem kept_State_markWritten (s : State) (page : Nat) (hs : Kept Q ql s) : Kept Q ql (State.markWritten s page) := by
  unfold State.markWritten
  grind -ring -linarith [kept_intro, of_kept]

theorem kept_State_setCredit (s : State) (r : Nat) (v : Nat) (hs : Kept Q ql s) : Kept Q ql (State.setCredit s r v) := by
  unfold State.setCredit
  grind -ring -linarith [kept_State_setNum, kept_intro, of_kept]

theorem kept_State_spend (s : State) (r : Nat) (hs : Kept Q ql s) : Kept Q ql (State.spend s r) := by
  unfold State.spend
  grind -ring -linarith [kept_State_setCredit, kept_intro, of_kept]

theorem kept_State_takeGather (s : State) (page : Nat) (tenant : Nat) (hs : Kept CanonLoft ql s) : Kept CanonLoft ql (State.takeGather s page tenant) := by
  unfold State.takeGather
  grind -ring -linarith [kept_State_setDirty, kept_State_changeMap, kept_State_countPage, kept_State_park, kept_State_poisonLines, kept_State_zeroPageBytes, kept_intro, of_kept]

theorem kept_State_touchGather (s : State) (g : Nat) (hs : Kept Q ql s) : Kept Q ql (State.touchGather s g) := by
  unfold State.touchGather
  grind -ring -linarith [kept_State_setDirty, kept_intro, of_kept]

theorem kept_State_chargeWrite (s : State) (owner : Nat) (page : Nat) (hs : Kept CanonLoft ql s) : Kept CanonLoft ql (State.chargeWrite s owner page) := by
  unfold State.chargeWrite
  grind -ring -linarith [kept_State_chargePage, kept_State_markWritten, kept_State_spend, kept_State_takeGather, kept_State_touchGather, kept_intro, of_kept]

theorem kept_State_chargeWrites (s : State) (owner : Nat) (x2 : List Nat) (hs : Kept CanonLoft ql s) : Kept CanonLoft ql (State.chargeWrites s owner x2) := by
  induction x2 generalizing s owner with
  | nil => grind -ring -linarith [State.chargeWrites, kept_State_chargeWrite, kept_intro, of_kept]
  | cons x l ih => grind -ring -linarith [State.chargeWrites, kept_State_chargeWrite, kept_intro, of_kept]

theorem kept_State_fillLine (s : State) (g : Nat) (i : Nat) (hs : Kept CanonLoft ql s) : Kept CanonLoft ql (State.fillLine s g i) := by
  unfold State.fillLine
  grind -ring -linarith [kept_State_setDirty, kept_State_countStore, kept_State_loftPut, kept_State_setPoison, kept_State_poisonLine, kept_intro, of_kept]

theorem kept_State_fillLines (s : State) (g : Nat) (x2 : List Nat) (hs : Kept CanonLoft ql s) : Kept CanonLoft ql (State.fillLines s g x2) := by
  induction x2 generalizing s g with
  | nil => grind -ring -linarith [State.fillLines, kept_State_fillLine, kept_intro, of_kept]
  | cons x l ih => grind -ring -linarith [State.fillLines, kept_State_fillLine, kept_intro, of_kept]

theorem kept_State_loadAway (s : State) (page : Nat) (hs : Kept CanonLoft ql s) : Kept CanonLoft ql (State.loadAway s page) := by
  unfold State.loadAway
  grind -ring -linarith [kept_State_countPage, kept_State_poisonLines, kept_State_zeroPageBytes, kept_State_loadBytes, kept_intro, of_kept]

theorem kept_State_placeIn (s : State) (page : Nat) (off : Nat) (bs : List Byte) (map : Nat) (hs : Kept CanonLoft ql s) : Kept CanonLoft ql (State.placeIn s page off bs map) := by
  unfold State.placeIn
  grind -ring -linarith [kept_State_logPage, kept_State_fillLines, kept_State_loadAway, kept_State_place, kept_intro, of_kept]

theorem kept_State_resetChannel (s : State) (c : Nat) (hs : Kept Q ql s) : Kept Q ql (State.resetChannel s c) := by
  unfold State.resetChannel
  grind -ring -linarith [kept_intro, of_kept]

theorem kept_State_endDrills (s : State) (x1 : List Nat) (hs : Kept Q ql s) : Kept Q ql (State.endDrills s x1) := by
  induction x1 generalizing s with
  | nil => grind -ring -linarith [State.endDrills, kept_State_resetChannel, kept_State_resetRegs, kept_State_restartPage, kept_intro, of_kept]
  | cons x l ih => grind -ring -linarith [State.endDrills, kept_State_resetChannel, kept_State_resetRegs, kept_State_restartPage, kept_intro, of_kept]

theorem kept_State_noteBypass (s : State) (r : Nat) (hs : Kept Q ql s) : Kept Q ql (State.noteBypass s r) := by
  unfold State.noteBypass
  grind -ring -linarith [kept_State_setMax, kept_intro, of_kept]

theorem kept_State_leaveBypass (s : State) (r : Nat) (flush : optParam Bool false) (hs : Kept Q ql s) : Kept Q ql (State.leaveBypass s r flush) := by
  unfold State.leaveBypass
  grind -ring -linarith [kept_State_setFld, kept_State_setRegion, kept_State_drainBuffer, kept_State_setPg, kept_State_endDrills, kept_State_noteBypass, kept_intro, of_kept]

theorem kept_State_breakBypass (s : State) (r : Nat) (flush : optParam Bool false) (hs : Kept Q ql s) : Kept Q ql (State.breakBypass s r flush) := by
  unfold State.breakBypass
  grind -ring -linarith [kept_State_abandonTrain, kept_State_leaveBypass, kept_intro, of_kept]

theorem kept_State_breakBypasses (s : State) (flush : Bool) (x2 : List Nat) (hs : Kept Q ql s) : Kept Q ql (State.breakBypasses s flush x2) := by
  induction x2 generalizing s flush with
  | nil => grind -ring -linarith [State.breakBypasses, kept_State_breakBypass, kept_intro, of_kept]
  | cons x l ih => grind -ring -linarith [State.breakBypasses, kept_State_breakBypass, kept_intro, of_kept]

theorem kept_State_twinLost (s : State) (hs : Kept Q ql s) : Kept Q ql (State.twinLost s) := by
  unfold State.twinLost
  grind -ring -linarith [kept_State_breakBypasses, kept_intro, of_kept]

theorem kept_State_ra (s : State) (num : Nat) (den : Nat) (hs : Kept Q ql s) : Kept Q ql (State.ra s num den).2 := by
  unfold State.ra
  grind -ring -linarith [kept_State_fresh, kept_intro, of_kept]

theorem kept_State_admitDirty (s : State) (r : Nat) (owner : Nat) (pages : List Nat) (hs : Kept Q ql s) : Kept Q ql (State.admitDirty s r owner pages).2 := by
  unfold State.admitDirty
  grind -ring -linarith [kept_State_fireLimited, kept_State_enterHold, kept_State_ra, kept_intro, of_kept]

theorem kept_State_outageRetry (s : State) (r : Nat) (hs : Kept Q ql s) : Kept Q ql (State.outageRetry s r).2 := by
  unfold State.outageRetry
  grind -ring -linarith [kept_State_fresh, kept_State_ra, kept_intro, of_kept]

theorem kept_State_admitRegion (s : State) (r : Nat) (len : Nat) (hs : Kept Q ql s) : Kept Q ql (State.admitRegion s r len).2 := by
  unfold State.admitRegion
  grind -ring -linarith [kept_State_outageRetry, kept_intro, of_kept]

theorem kept_State_admitModes (s : State) (len : Nat) (x2 : List Nat) (hs : Kept Q ql s) : Kept Q ql (State.admitModes s len x2).2 := by
  induction x2 generalizing s len with
  | nil => grind -ring -linarith [State.admitModes, kept_State_admitRegion, kept_intro, of_kept]
  | cons x l ih => grind -ring -linarith [State.admitModes, kept_State_admitRegion, kept_intro, of_kept]

theorem kept_State_admitRegions (s : State) (owner : Nat) (pages : List Nat) (x3 : List Nat) (hs : Kept Q ql s) : Kept Q ql (State.admitRegions s owner pages x3).2 := by
  induction x3 generalizing s owner pages with
  | nil => grind -ring -linarith [State.admitRegions, kept_State_admitDirty, kept_intro, of_kept]
  | cons x l ih => grind -ring -linarith [State.admitRegions, kept_State_admitDirty, kept_intro, of_kept]

end Sys2Proof.Machine
end

