-- ==== Sys2Proof/Laws/KeptBar2.lean ====
section
/-!
SUPPORT. What the operations of Bar2 keep (KeptBase.lean): the queue, a canonical register file, and a canonical Loft; a lemma that holds for every Q says the operation writes nothing in the Loft.
-/

set_option linter.unusedTactic false
set_option linter.unreachableTactic false
set_option linter.unusedVariables false

namespace Sys2Proof.Machine

variable {Q : KMap Byte → KMap Bool → Prop} {ql : List Instr}

theorem kept_State_placeParts (s : State) (x1 : List (Nat × List Byte)) (hs : Kept CanonLoft ql s) : Kept CanonLoft ql (State.placeParts s x1) := by
  induction x1 generalizing s with
  | nil => grind -ring -linarith [State.placeParts, kept_State_placeIn, kept_intro, of_kept]
  | cons x l ih => grind -ring -linarith [State.placeParts, kept_State_placeIn, kept_intro, of_kept]

theorem kept_State_bar2Admit (s : State) (dpa : Nat) (bs : List Byte) (hs : Kept CanonLoft ql s) : Kept CanonLoft ql (State.bar2Admit s dpa bs) := by
  unfold State.bar2Admit
  grind -ring -linarith [kept_State_chargeWrites, kept_State_placeParts, kept_State_sendSeq, kept_intro, of_kept]

theorem kept_State_retryBar2 (fuel : Nat) (s : State) (hs : Kept CanonLoft ql s) : Kept CanonLoft ql (State.retryBar2 fuel s) := by
  induction fuel generalizing s with
  | zero => grind -ring -linarith [State.retryBar2, kept_State_bar2Admit, kept_intro, of_kept]
  | succ n ih => grind -ring -linarith [State.retryBar2, kept_State_bar2Admit, kept_intro, of_kept]

theorem kept_State_wakeBar2 (s : State) (hs : Kept CanonLoft ql s) : Kept CanonLoft ql (State.wakeBar2 s) := by
  unfold State.wakeBar2
  grind -ring -linarith [kept_State_retryBar2, kept_intro, of_kept]

theorem kept_State_postBar2 (s : State) (applied : Nat) (hs : Kept CanonLoft ql s) : Kept CanonLoft ql (State.postBar2 s applied) := by
  unfold State.postBar2
  grind -ring -linarith [kept_State_placeParts, kept_foldl, kept_intro, of_kept]

theorem kept_State_bar2Answer (s : State) (fn : Fn) (dpa : Nat) (len : Nat) (hs : Kept Q ql s) : Kept Q ql (State.bar2Answer s fn dpa len) := by
  unfold State.bar2Answer
  grind -ring -linarith [kept_State_emit, kept_State_fire, kept_intro, of_kept]

theorem kept_execApertureBaseWrite (fn : Fn) (high : Bool) (data : Word) (s : State) (hs : Kept Q ql s) : ∀ out, execApertureBaseWrite fn high data s = .next out → Kept Q ql out := by
  intro out e
  unfold execApertureBaseWrite at e
  cases e
  dsimp only
  repeat' (first | with_reducible assumption | with_reducible apply kept_State_setReg | with_reducible apply kept_State_setNum | with_reducible apply kept_State_fire | with_reducible apply kept_State_guarded | split | intro _ | (apply kept_intro; dsimp only; apply of_kept))

theorem kept_execBar2Read (fn : Fn) (addr : Nat) (len : Nat) (s : State) (hs : Kept Q ql s) : ∀ out, execBar2Read fn addr len s = .next out → Kept Q ql out := by
  intro out e
  unfold execBar2Read at e
  grind -ring -linarith [kept_State_bar2Answer, kept_intro, of_kept]

theorem kept_execBar2Write (fn : Fn) (addr : Nat) (data : List Byte) (s : State) (hs : Kept CanonLoft ql s) : ∀ out, execBar2Write fn addr data s = .next out → Kept CanonLoft ql out := by
  intro out e
  unfold execBar2Write at e
  cases e
  dsimp only
  repeat' (first | with_reducible assumption | with_reducible apply kept_State_bump | with_reducible apply kept_State_wakeBar2 | split | intro _ | (apply kept_intro; dsimp only; apply of_kept))

end Sys2Proof.Machine
end

