-- ==== Sys2Proof/Laws/KeptRecords.lean ====
section
/-!
SUPPORT. What the operations of Records keep (KeptBase.lean): the queue, a canonical register file, and a canonical Loft; a lemma that holds for every Q says the operation writes nothing in the Loft.
-/

set_option linter.unusedTactic false
set_option linter.unreachableTactic false
set_option linter.unusedVariables false

namespace Sys2Proof.Machine

variable {Q : KMap Byte → KMap Bool → Prop} {ql : List Instr}

theorem kept_State_showHist (s : State) (hs : Kept Q ql s) : Kept Q ql (State.showHist s) := by
  unfold State.showHist
  grind -ring -linarith [kept_State_setNum, kept_intro, of_kept]

theorem kept_State_fillQueue (s : State) (hs : Kept Q ql s) : Kept Q ql (State.fillQueue s) := by
  unfold State.fillQueue
  grind -ring -linarith [kept_State_showHist, kept_intro, of_kept]

theorem kept_State_showTally (s : State) (hs : Kept Q ql s) : Kept Q ql (State.showTally s) := by
  unfold State.showTally
  grind -ring -linarith [kept_State_setNum, kept_intro, of_kept]

theorem kept_State_dropTally (s : State) (t : Nat) (hs : Kept Q ql s) : Kept Q ql (State.dropTally s t) := by
  unfold State.dropTally
  grind -ring -linarith [kept_intro, of_kept]

theorem kept_State_stageAll (s : State) (x1 : List TallyRec) (hs : Kept Q ql s) : Kept Q ql (State.stageAll s x1) := by
  induction x1 generalizing s with
  | nil => grind -ring -linarith [State.stageAll, kept_State_fire, kept_intro, of_kept]
  | cons x l ih => grind -ring -linarith [State.stageAll, kept_State_fire, kept_intro, of_kept]

theorem kept_State_stageLasts (s : State) (x1 : List TallyRec) (hs : Kept Q ql s) : Kept Q ql (State.stageLasts s x1) := by
  induction x1 generalizing s with
  | nil => grind -ring -linarith [State.stageLasts, kept_State_dropTally, kept_State_stageAll, kept_intro, of_kept]
  | cons x l ih => grind -ring -linarith [State.stageLasts, kept_State_dropTally, kept_State_stageAll, kept_intro, of_kept]

theorem kept_State_sample (s : State) (id : Nat) (v : Int) (hs : Kept Q ql s) : Kept Q ql (State.sample s id v) := by
  unfold State.sample
  grind -ring -linarith [kept_intro, of_kept]

theorem kept_State_tallyAdd (s : State) (t : Nat) (k : Nat) (n : Nat) (hs : Kept Q ql s) : Kept Q ql (State.tallyAdd s t k n) := by
  unfold State.tallyAdd
  grind -ring -linarith [kept_intro, of_kept]

theorem kept_State_tallyStart (s : State) (t : Nat) (hs : Kept Q ql s) : Kept Q ql (State.tallyStart s t) := by
  unfold State.tallyStart
  grind -ring -linarith [kept_intro, of_kept]

theorem kept_State_setAtticBlock (s : State) (b : Nat) (v : AtticBlock) (hs : Kept Q ql s) : Kept Q ql (State.setAtticBlock s b v) := by
  unfold State.setAtticBlock
  grind -ring -linarith [kept_intro, of_kept]

theorem kept_State_queueRec (s : State) (r : HistRec) (hs : Kept Q ql s) : Kept Q ql (State.queueRec s r) := by
  unfold State.queueRec
  grind -ring -linarith [kept_State_fillQueue, kept_intro, of_kept]

theorem kept_State_closeTail (s : State) (hs : Kept Q ql s) : Kept Q ql (State.closeTail s) := by
  unfold State.closeTail
  grind -ring -linarith [kept_State_queueRec, kept_intro, of_kept]

theorem kept_State_showDays (s : State) (hs : Kept Q ql s) : Kept Q ql (State.showDays s) := by
  unfold State.showDays
  grind -ring -linarith [kept_State_setNum, kept_intro, of_kept]

theorem kept_State_tallyEnd (s : State) (t : Nat) (hs : Kept Q ql s) : Kept Q ql (State.tallyEnd s t) := by
  unfold State.tallyEnd
  grind -ring -linarith [kept_State_showTally, kept_State_stageLasts, kept_intro, of_kept]

theorem kept_State_noteEvent (s : State) (ty : Nat) (src : Nat) (sev : Nat) (drill : Bool) (hs : Kept Q ql s) : Kept Q ql (State.noteEvent s ty src sev drill) := by
  unfold State.noteEvent
  grind -ring -linarith [kept_State_showHist, kept_State_closeTail, kept_intro, of_kept]

theorem kept_State_noteGlean (s : State) (start : Nat) (sum : List Byte) (hs : Kept Q ql s) : Kept Q ql (State.noteGlean s start sum) := by
  unfold State.noteGlean
  grind -ring -linarith [kept_State_queueRec, kept_intro, of_kept]

theorem kept_State_seqFire (s : State) (src : Nat) (hs : Kept Q ql s) : Kept Q ql (State.seqFire s src) := by
  unfold State.seqFire
  grind -ring -linarith [kept_State_fire, kept_State_noteEvent, kept_intro, of_kept]

end Sys2Proof.Machine
end

