-- ==== Sys2Proof/Laws/KeptCellar.lean ====
section
/-!
SUPPORT. What the operations of Cellar keep (KeptBase.lean): the queue, a canonical register file, and a canonical Loft; a lemma that holds for every Q says the operation writes nothing in the Loft.
-/

set_option linter.unusedTactic false
set_option linter.unreachableTactic false
set_option linter.unusedVariables false

namespace Sys2Proof.Machine

variable {Q : KMap Byte → KMap Bool → Prop} {ql : List Instr}

theorem kept_State_addVictim (s : State) (b : Nat) (hs : Kept Q ql s) : Kept Q ql (State.addVictim s b) := by
  unfold State.addVictim
  grind -ring -linarith [kept_intro, of_kept]

theorem kept_State_addVictims (s : State) (x1 : List Nat) (hs : Kept Q ql s) : Kept Q ql (State.addVictims s x1) := by
  induction x1 generalizing s with
  | nil => grind -ring -linarith [State.addVictims, kept_State_addVictim, kept_intro, of_kept]
  | cons x l ih => grind -ring -linarith [State.addVictims, kept_State_addVictim, kept_intro, of_kept]

theorem kept_State_askTwin (s : State) (dpa : Nat) (len : Nat) (purpose : Nat) (w : ReadWaiter) (hs : Kept Q ql s) : Kept Q ql (State.askTwin s dpa len purpose w).2 := by
  unfold State.askTwin
  grind -ring -linarith [kept_State_sendOne, kept_intro, of_kept]

theorem kept_State_program (s : State) (loc : Nat) (f : FlashPage) (hs : Kept Q ql s) : Kept Q ql (State.program s loc f) := by
  unfold State.program
  grind -ring -linarith [kept_State_bump, kept_intro, of_kept]

theorem kept_State_takeSlot (s : State) (r : Nat) (key : Nat) (loc : Nat) (hs : Kept Q ql s) : Kept Q ql (State.takeSlot s r key loc) := by
  unfold State.takeSlot
  grind -ring -linarith [kept_intro, of_kept]

theorem kept_State_programIn (s : State) (r : Nat) (key : Nat) (page : Nat) (f : FlashPage) (hs : Kept Q ql s) : ∀ k out, State.programIn s r key page f = some (k, out) → Kept Q ql out := by
  intro k out e
  unfold State.programIn at e
  grind -ring -linarith [kept_State_program, kept_State_takeSlot, kept_intro, of_kept]

theorem kept_State_countPrograms (s : State) (r : Nat) (x2 : List Nat) (hs : Kept Q ql s) : Kept Q ql (State.countPrograms s r x2) := by
  induction x2 generalizing s r with
  | nil => grind -ring -linarith [State.countPrograms, kept_State_bump, kept_intro, of_kept]
  | cons x l ih => grind -ring -linarith [State.countPrograms, kept_State_bump, kept_intro, of_kept]

theorem kept_State_harvestedRecord (s : State) (page : Nat) (mseq : Nat) (hs : Kept Q ql s) : Kept Q ql (State.harvestedRecord s page mseq) := by
  unfold State.harvestedRecord
  grind -ring -linarith [kept_State_mirrorMeta, kept_intro, of_kept]

theorem kept_State_showReserve (s : State) (r : Nat) (hs : Kept Q ql s) : Kept Q ql (State.showReserve s r) := by
  unfold State.showReserve
  grind -ring -linarith [kept_State_setNum, kept_State_fire, kept_intro, of_kept]

theorem kept_State_useMark (s : State) (page : Nat) (hs : Kept Q ql s) : Kept Q ql (State.useMark s page) := by
  unfold State.useMark
  grind -ring -linarith [kept_intro, of_kept]

theorem kept_State_harvestDone (s : State) (h : Harvest) (loc : Nat) (hs : Kept Q ql s) : Kept Q ql (State.harvestDone s h loc) := by
  unfold State.harvestDone
  grind -ring -linarith (splits := 20) (gen := 16) (ematch := 12) [kept_State_bump, kept_State_setDirty, kept_State_changeMap, kept_State_freeFlash, kept_State_freeGather, kept_State_uncharge, kept_State_harvestedRecord, kept_State_showReserve, kept_State_useMark, kept_intro, of_kept]

theorem kept_State_harvestsDone (s : State) (x1 : List (Harvest × Nat)) (hs : Kept Q ql s) : Kept Q ql (State.harvestsDone s x1) := by
  induction x1 generalizing s with
  | nil => grind -ring -linarith [State.harvestsDone, kept_State_harvestDone, kept_intro, of_kept]
  | cons x l ih => grind -ring -linarith [State.harvestsDone, kept_State_harvestDone, kept_intro, of_kept]

theorem kept_State_sealSheaf (s : State) (r : Nat) (key : Nat) (hs : Kept Q ql s) : Kept Q ql (State.sealSheaf s r key) := by
  unfold State.sealSheaf
  grind -ring -linarith [kept_State_countPrograms, kept_State_harvestsDone, kept_intro, of_kept]

theorem kept_State_sealFull (s : State) (r : Nat) (key : Nat) (hs : Kept Q ql s) : Kept Q ql (State.sealFull s r key) := by
  unfold State.sealFull
  grind -ring -linarith [kept_State_sealSheaf, kept_intro, of_kept]

theorem kept_State_copyShadows (s : State) (r : Nat) (x2 : List (Nat × FlashPage)) (hs : Kept Q ql s) : Kept Q ql (State.copyShadows s r x2) := by
  induction x2 generalizing s r with
  | nil =>
    unfold State.copyShadows
    try dsimp only
    repeat' (first | with_reducible assumption | with_reducible apply ih | with_reducible apply kept_State_setMap | with_reducible apply kept_State_sealFull | split | intro _ | (apply kept_intro; dsimp only; apply of_kept))
    all_goals grind -ring -linarith [kept_State_setMap, kept_State_programIn, kept_State_sealFull, kept_intro, of_kept]
  | cons x l ih =>
    unfold State.copyShadows
    try dsimp only
    repeat' (first | with_reducible assumption | with_reducible apply ih | with_reducible apply kept_State_setMap | with_reducible apply kept_State_sealFull | split | intro _ | (apply kept_intro; dsimp only; apply of_kept))
    all_goals grind -ring -linarith [kept_State_setMap, kept_State_programIn, kept_State_sealFull, kept_intro, of_kept]

theorem kept_State_eraseBand (s : State) (band : Nat) (hs : Kept Q ql s) : Kept Q ql (State.eraseBand s band) := by
  unfold State.eraseBand
  grind -ring -linarith [kept_intro, of_kept]

theorem kept_State_reserveHead (s : State) (r : Nat) (hs : Kept Q ql s) : Kept Q ql (State.reserveHead s r) := by
  unfold State.reserveHead
  grind -ring -linarith [kept_State_copyShadows, kept_State_eraseBand, kept_intro, of_kept]

theorem kept_State_eraseEmpty (s : State) (x1 : List Nat) (hs : Kept Q ql s) : Kept Q ql (State.eraseEmpty s x1) := by
  induction x1 generalizing s with
  | nil => grind -ring -linarith [State.eraseEmpty, kept_intro, of_kept]
  | cons x l ih => grind -ring -linarith [State.eraseEmpty, kept_intro, of_kept]

theorem kept_State_pickVictim (s : State) (r : Nat) (hs : Kept Q ql s) : Kept Q ql (State.pickVictim s r) := by
  unfold State.pickVictim
  grind -ring -linarith [kept_State_addVictim, kept_State_eraseEmpty, kept_intro, of_kept]

theorem kept_State_showBands (s : State) (r : Nat) (hs : Kept Q ql s) : Kept Q ql (State.showBands s r) := by
  unfold State.showBands
  grind -ring -linarith [kept_State_setNum, kept_State_pickVictim, kept_intro, of_kept]

theorem kept_State_openBand (s : State) (r : Nat) (key : Nat) (lun : Nat) (block : Nat) (hs : Kept Q ql s) : Kept Q ql (State.openBand s r key lun block) := by
  unfold State.openBand
  grind -ring -linarith [kept_State_showBands, kept_intro, of_kept]

theorem kept_State_takeBand (fuel : Nat) (s : State) (r : Nat) (hs : Kept Q ql s) : Kept Q ql (State.takeBand fuel s r).2 := by
  induction fuel generalizing s r with
  | zero =>
    unfold State.takeBand
    try dsimp only
    repeat' (first | with_reducible assumption | with_reducible apply ih | with_reducible apply kept_State_openBand | split | intro _ | (apply kept_intro; dsimp only; apply of_kept))
    all_goals grind -ring -linarith [kept_State_openBand, kept_intro, of_kept]
  | succ n ih =>
    unfold State.takeBand
    try dsimp only
    repeat' (first | with_reducible assumption | with_reducible apply ih | with_reducible apply kept_State_openBand | split | intro _ | (apply kept_intro; dsimp only; apply of_kept))
    all_goals grind -ring -linarith [kept_State_openBand, kept_intro, of_kept]

theorem kept_State_poisonRecords (s : State) (page : Nat) (object : Nat) (x3 : List Nat) (hs : Kept Q ql s) : Kept Q ql (State.poisonRecords s page object x3) := by
  induction x3 generalizing s page object with
  | nil => grind -ring -linarith [State.poisonRecords, kept_State_fire, kept_State_publish, kept_intro, of_kept]
  | cons x l ih => grind -ring -linarith [State.poisonRecords, kept_State_fire, kept_State_publish, kept_intro, of_kept]

theorem kept_State_coldSample (s : State) (q : Nat) (m : Nat) (hs : Kept Q ql s) : Kept Q ql (State.coldSample s q m) := by
  unfold State.coldSample
  grind -ring -linarith [kept_State_sample, kept_intro, of_kept]

theorem kept_State_fillGather (s : State) (g : Nat) (c : Content) (hs : Kept CanonLoft ql s) : Kept CanonLoft ql (State.fillGather s g c) := by
  unfold State.fillGather
  grind -ring -linarith [kept_State_setDirty, kept_State_poisonLines, kept_State_fillLines, kept_State_freeFlash, kept_intro, of_kept]

theorem kept_State_notePass (s : State) (r : Nat) (cellar : Bool) (f : GleanPass → GleanPass) (hs : Kept Q ql s) : Kept Q ql (State.notePass s r cellar f) := by
  unfold State.notePass
  grind -ring -linarith [kept_intro, of_kept]

theorem kept_State_recovered (s : State) (line : Nat) (hs : Kept CanonLoft ql s) : Kept CanonLoft ql (State.recovered s line) := by
  unfold State.recovered
  grind -ring -linarith [kept_State_endRecovery, kept_State_placeLine, kept_State_bar2Answer, kept_foldl, kept_intro, of_kept]

theorem kept_State_lineStored (s : State) (dpa : Nat) (bs : List Byte) (clean : Bool) (counter : Nat) (hs : Kept CanonLoft ql s) : Kept CanonLoft ql (State.lineStored s dpa bs clean counter) := by
  unfold State.lineStored
  grind -ring -linarith [kept_State_bump, kept_State_logPage, kept_State_countStore, kept_State_loftPut, kept_State_setPoison, kept_State_notePass, kept_State_recovered, kept_intro, of_kept]

theorem kept_State_loadPage (s : State) (page : Nat) (c : Content) (hs : Kept CanonLoft ql s) : Kept CanonLoft ql (State.loadPage s page c) := by
  unfold State.loadPage
  grind -ring -linarith [kept_State_countPage, kept_State_poisonLines, kept_State_zeroPageBytes, kept_State_loadBytes, kept_intro, of_kept]

theorem kept_State_serveOne (s : State) (page : Nat) (c : Content) (current : Bool) (x4 : Parked) (hs : Kept CanonLoft ql s) : Kept CanonLoft ql (State.serveOne s page c current x4) := by
  unfold State.serveOne
  grind -ring -linarith [kept_State_sendOne, kept_State_coldSample, kept_State_fillGather, kept_State_lineStored, kept_State_loadPage, kept_intro, of_kept]

theorem kept_State_serve (s : State) (page : Nat) (c : Content) (current : Bool) (x4 : List Parked) (hs : Kept CanonLoft ql s) : Kept CanonLoft ql (State.serve s page c current x4) := by
  induction x4 generalizing s page c current with
  | nil => grind -ring -linarith [State.serve, kept_State_serveOne, kept_intro, of_kept]
  | cons x l ih => grind -ring -linarith [State.serve, kept_State_serveOne, kept_intro, of_kept]

theorem kept_State_poisonPage (s : State) (m : Miss) (hs : Kept CanonLoft ql s) : Kept CanonLoft ql (State.poisonPage s m) := by
  unfold State.poisonPage
  grind -ring -linarith [kept_State_bump, kept_State_changeMap, kept_State_freeFlash, kept_State_dropMiss, kept_State_poisonRecords, kept_State_serve, kept_intro, of_kept]

theorem kept_State_sealPage (s : State) (kind : Nat) (page : Nat) (data : KMap Byte) (poison : List Nat) (hs : Kept Q ql s) : Kept Q ql (State.sealPage s kind page data poison).2 := by
  unfold State.sealPage
  grind -ring -linarith [kept_State_fire, kept_State_sealCount, kept_intro, of_kept]

theorem kept_State_movePage (s : State) (page : Nat) (old : Nat) (new : Nat) (hs : Kept Q ql s) : Kept Q ql (State.movePage s page old new) := by
  unfold State.movePage
  grind -ring -linarith [kept_State_setDirty, kept_State_changeMap, kept_State_freeFlash, kept_intro, of_kept]

theorem kept_State_rewrite (s : State) (m : Miss) (f : FlashPage) (hs : Kept Q ql s) : Kept Q ql (State.rewrite s m f) := by
  unfold State.rewrite
  dsimp only
  have h := kept_State_takeBand 64 s (locRegion m.loc) hs
  split
  · rename_i t he
    rw [he] at h
    exact h
  · rename_i k t he
    rw [he] at h
    split
    · exact h
    · rename_i he'
      have h' := kept_State_programIn _ _ _ _ _ h _ _ he'
      exact kept_State_sealFull _ _ _ (kept_State_fireLimited _ _ _ _ _ (kept_State_bump _ _ _ _ (kept_State_movePage _ _ _ _ h')))

theorem kept_State_stepOk (s : State) (m : Miss) (f : FlashPage) (hs : Kept CanonLoft ql s) : Kept CanonLoft ql (State.stepOk s m f) := by
  unfold State.stepOk
  grind -ring -linarith [kept_State_bump, kept_State_dropStaged, kept_State_setMap, kept_State_dropMiss, kept_State_serve, kept_State_rewrite, kept_intro, of_kept]

theorem kept_State_codeword (s : State) (bits : Nat) (hs : Kept Q ql s) : Kept Q ql (State.codeword s bits) := by
  unfold State.codeword
  grind -ring -linarith [kept_State_sample, kept_intro, of_kept]

theorem kept_State_countErases (s : State) (r : Nat) (x2 : List Nat) (hs : Kept Q ql s) : Kept Q ql (State.countErases s r x2) := by
  induction x2 generalizing s r with
  | nil => grind -ring -linarith [State.countErases, kept_State_bump, kept_intro, of_kept]
  | cons x l ih => grind -ring -linarith [State.countErases, kept_State_bump, kept_intro, of_kept]

theorem kept_State_countReads (s : State) (m : Miss) (hs : Kept Q ql s) : Kept Q ql (State.countReads s m) := by
  unfold State.countReads
  grind -ring -linarith [kept_State_bump, kept_foldl, kept_intro, of_kept]

theorem kept_State_earlyWarn (s : State) (loc : Nat) (hs : Kept Q ql s) : Kept Q ql (State.earlyWarn s loc) := by
  unfold State.earlyWarn
  grind -ring -linarith [kept_State_bump, kept_State_fireLimited, kept_State_addVictim, kept_intro, of_kept]

theorem kept_State_setMiss (s : State) (m : Miss) (hs : Kept Q ql s) : Kept Q ql (State.setMiss s m) := by
  unfold State.setMiss
  grind -ring -linarith [kept_intro, of_kept]

theorem kept_State_stepFive (s : State) (m : Miss) (hs : Kept CanonLoft ql s) : Kept CanonLoft ql (State.stepFive s m) := by
  unfold State.stepFive
  grind -ring -linarith [kept_State_askTwin, kept_State_dropMiss, kept_State_serve, kept_State_poisonPage, kept_State_setMiss, kept_intro, of_kept]

theorem kept_State_stepFails (s : State) (m : Miss) (hs : Kept CanonLoft ql s) : Kept CanonLoft ql (State.stepFails s m) := by
  unfold State.stepFails
  grind -ring -linarith [kept_State_poisonPage, kept_State_setMiss, kept_State_stepFive, kept_intro, of_kept]

theorem kept_State_relocBand (fuel : Nat) (s : State) (r : Nat) (k : Nat) (hs : Kept Q ql s) : Kept Q ql (State.relocBand fuel s r k).2 := by
  induction fuel generalizing s r k with
  | zero =>
    unfold State.relocBand
    try dsimp only
    repeat' (first | with_reducible assumption | with_reducible apply ih | with_reducible apply kept_State_openBand | split | intro _ | (apply kept_intro; dsimp only; apply of_kept))
    all_goals grind -ring -linarith [kept_State_openBand, kept_intro, of_kept]
  | succ n ih =>
    unfold State.relocBand
    try dsimp only
    repeat' (first | with_reducible assumption | with_reducible apply ih | with_reducible apply kept_State_openBand | split | intro _ | (apply kept_intro; dsimp only; apply of_kept))
    all_goals grind -ring -linarith [kept_State_openBand, kept_intro, of_kept]

theorem kept_State_setLun (s : State) (channel : Nat) (lun : Nat) (v : Nat) (hs : Kept Q ql s) : Kept Q ql (State.setLun s channel lun v) := by
  unfold State.setLun
  grind -ring -linarith [kept_State_setFld, kept_intro, of_kept]

theorem kept_State_retireLun (s : State) (channel : Nat) (lun : Nat) (hs : Kept Q ql s) : Kept Q ql (State.retireLun s channel lun) := by
  unfold State.retireLun
  grind -ring -linarith [kept_State_setFld, kept_State_addVictims, kept_State_eraseEmpty, kept_State_setLun, kept_intro, of_kept]

theorem kept_State_retireBlock (s : State) (channel : Nat) (lun : Nat) (block : Nat) (hs : Kept Q ql s) : Kept Q ql (State.retireBlock s channel lun block) := by
  unfold State.retireBlock
  grind -ring -linarith [kept_State_setFld, kept_State_showReserve, kept_State_retireLun, kept_foldl, kept_intro, of_kept]

theorem kept_State_retireLuns (s : State) (channel : Nat) (x2 : List Nat) (hs : Kept Q ql s) : Kept Q ql (State.retireLuns s channel x2) := by
  induction x2 generalizing s channel with
  | nil => grind -ring -linarith [State.retireLuns, kept_State_retireLun, kept_intro, of_kept]
  | cons x l ih => grind -ring -linarith [State.retireLuns, kept_State_retireLun, kept_intro, of_kept]

theorem kept_State_showWear (s : State) (r : Nat) (x2 : List Nat) (hs : Kept Q ql s) : Kept Q ql (State.showWear s r x2) := by
  induction x2 generalizing s r with
  | nil => grind -ring -linarith [State.showWear, kept_State_setNum, kept_foldl, kept_intro, of_kept]
  | cons x l ih => grind -ring -linarith [State.showWear, kept_State_setNum, kept_foldl, kept_intro, of_kept]

theorem kept_execLunRetireWrite (req : Requester) (channel : Nat) (data : Word) (s : State) (hs : Kept Q ql s) : ∀ out, execLunRetireWrite req channel data s = .next out → Kept Q ql out := by
  intro out e
  unfold execLunRetireWrite at e
  grind -ring -linarith [kept_State_guarded, kept_State_retireLuns, kept_intro, of_kept]

theorem kept_execDailyWearRelocation (region : Nat) (s : State) (hs : Kept Q ql s) : ∀ out, execDailyWearRelocation region s = .next out → Kept Q ql out := by
  intro out e
  unfold execDailyWearRelocation at e
  grind -ring -linarith [kept_State_addVictim, kept_State_eraseEmpty, kept_State_showBands, kept_intro, of_kept]

theorem kept_execEraseFail (channel : Nat) (lun : Nat) (block : Nat) (s : State) (hs : Kept Q ql s) : ∀ out, execEraseFail channel lun block s = .next out → Kept Q ql out := by
  intro out e
  unfold execEraseFail at e
  grind -ring -linarith [kept_State_fire, kept_State_retireBlock, kept_intro, of_kept]

theorem kept_execLunFault (channel : Nat) (lun : Nat) (s : State) (hs : Kept Q ql s) : ∀ out, execLunFault channel lun s = .next out → Kept Q ql out := by
  intro out e
  unfold execLunFault at e
  grind -ring -linarith [kept_State_fire, kept_State_retireLun, kept_intro, of_kept]

theorem kept_execLunRetired (channel : Nat) (lun : Nat) (s : State) (hs : Kept Q ql s) : ∀ out, execLunRetired channel lun s = .next out → Kept Q ql out := by
  intro out e
  unfold execLunRetired at e
  grind -ring -linarith [kept_State_setNum, kept_State_fire, kept_State_setLun, kept_intro, of_kept]

theorem kept_execNandEraseDone (band : Nat) (s : State) (hs : Kept Q ql s) : ∀ out, execNandEraseDone band s = .next out → Kept Q ql out := by
  intro out e
  unfold execNandEraseDone at e
  grind -ring -linarith [kept_State_showBands, kept_State_countErases, kept_State_showWear, kept_intro, of_kept]

theorem kept_execNandReadDone (loc : Nat) (ok : Bool) (bits : Nat) (s : State) (hs : Kept CanonLoft ql s) : ∀ out, execNandReadDone loc ok bits s = .next out → Kept CanonLoft ql out := by
  intro out e
  unfold execNandReadDone at e
  grind -ring -linarith (splits := 20) (gen := 16) (ematch := 12) [kept_State_bump, kept_State_dropMiss, kept_State_serve, kept_State_stepOk, kept_State_codeword, kept_State_countReads, kept_State_earlyWarn, kept_State_stepFails, kept_intro, of_kept]

theorem kept_execProgramFail (channel : Nat) (lun : Nat) (block : Nat) (s : State) (hs : Kept Q ql s) : ∀ out, execProgramFail channel lun block s = .next out → Kept Q ql out := by
  intro out e
  unfold execProgramFail at e
  grind -ring -linarith [kept_State_fire, kept_State_setDirty, kept_State_freeFlash, kept_State_retireBlock, kept_foldl, kept_intro, of_kept]

theorem kept_execRelocationCopyDone (loc : Nat) (s : State) (hs : Kept Q ql s) : ∀ out, execRelocationCopyDone loc s = .next out → Kept Q ql out := by
  intro out e
  unfold execRelocationCopyDone at e
  cases e
  split
  · exact hs
  dsimp only
  have hs := kept_with_cellar { s.cellar with rewrites := s.cellar.rewrites.filter (· ≠ loc) } hs
  split
  · exact kept_State_eraseEmpty _ _ hs
  have h := kept_State_relocBand 64 _ (locRegion loc) 0 hs
  split
  · rename_i t he
    rw [he] at h
    exact h
  · rename_i k t he
    rw [he] at h
    split
    · exact h
    · rename_i he'
      have h' := kept_State_programIn _ _ _ _ _ h _ _ he'
      apply kept_State_showReserve
      apply kept_State_showBands
      apply kept_State_pickVictim
      apply kept_State_eraseEmpty
      apply kept_State_sealFull
      apply kept_State_bump
      exact kept_State_movePage _ _ _ _ h'

end Sys2Proof.Machine
end

