-- ==== Sys2Proof/Laws/KeptRegs.lean ====
section
/-!
SUPPORT. What the operations of Regs keep (KeptBase.lean): the queue, a canonical register file, and a canonical Loft; a lemma that holds for every Q says the operation writes nothing in the Loft.
-/

set_option linter.unusedTactic false
set_option linter.unreachableTactic false
set_option linter.unusedVariables false

namespace Sys2Proof.Machine

variable {Q : KMap Byte → KMap Bool → Prop} {ql : List Instr}

theorem kept_State_writeFields (s : State) (page : Nat) (off : Nat) (data : Word) (hs : Kept Q ql s) : Kept Q ql (State.writeFields s page off data) := by
  unfold State.writeFields
  grind -ring -linarith [kept_State_setReg, kept_foldl, kept_intro, of_kept]

end Sys2Proof.Machine
end

