-- ==== Sys2Proof/Laws/KeptDram.lean ====
section
/-!
SUPPORT. What the operations of Dram keep (KeptBase.lean): the queue, a canonical register file, and a canonical Loft; a lemma that holds for every Q says the operation writes nothing in the Loft.
-/

set_option linter.unusedTactic false
set_option linter.unreachableTactic false
set_option linter.unusedVariables false

namespace Sys2Proof.Machine

variable {Q : KMap Byte → KMap Bool → Prop} {ql : List Instr}

theorem kept_State_setDue (s : State) (r : Nat) (v : Nat) (hs : Kept Q ql s) : Kept Q ql (State.setDue s r v) := by
  unfold State.setDue
  grind -ring -linarith [kept_State_setFld, kept_State_showTrain, kept_intro, of_kept]

theorem kept_State_enterBypass (s : State) (r : Nat) (k : BypassKind) (hs : Kept Q ql s) : Kept Q ql (State.enterBypass s r k) := by
  unfold State.enterBypass
  grind -ring -linarith [kept_State_setRegion, kept_State_setPg, kept_intro, of_kept]

theorem kept_State_takeRequest (s : State) (r : Nat) (hs : Kept Q ql s) : Kept Q ql (State.takeRequest s r) := by
  unfold State.takeRequest
  grind -ring -linarith [kept_State_setFld, kept_State_setRegion, kept_State_enterBypass, kept_intro, of_kept]

theorem kept_State_endTrain (s : State) (r : Nat) (hs : Kept Q ql s) : Kept Q ql (State.endTrain s r) := by
  unfold State.endTrain
  grind -ring -linarith [kept_State_setFld, kept_State_dropTrain, kept_State_showTrain, kept_State_setRegion, kept_State_leaveBypass, kept_State_takeRequest, kept_intro, of_kept]

theorem kept_State_clearRank (s : State) (c : Nat) (k : Nat) (hs : Kept Q ql s) : Kept Q ql (State.clearRank s c k) := by
  unfold State.clearRank
  grind -ring -linarith [kept_intro, of_kept]

theorem kept_State_setRank (s : State) (c : Nat) (k : Nat) (v : Rank) (hs : Kept Q ql s) : Kept Q ql (State.setRank s c k v) := by
  unfold State.setRank
  grind -ring -linarith [kept_intro, of_kept]

theorem kept_State_refresh (s : State) (c : Nat) (k : Nat) (n : Nat) (forced : Bool) (hs : Kept Q ql s) : Kept Q ql (State.refresh s c k n forced) := by
  unfold State.refresh
  grind -ring -linarith [kept_State_bump, kept_State_clearRank, kept_State_setRank, kept_intro, of_kept]

theorem kept_State_refreshTo (s : State) (c : Nat) (d : Int) (forced : Bool) (x4 : List Nat) (hs : Kept Q ql s) : Kept Q ql (State.refreshTo s c d forced x4) := by
  induction x4 generalizing s c d forced with
  | nil => grind -ring -linarith [State.refreshTo, kept_State_refresh, kept_intro, of_kept]
  | cons x l ih => grind -ring -linarith [State.refreshTo, kept_State_refresh, kept_intro, of_kept]

theorem kept_State_quiesce (s : State) (x1 : List Nat) (hs : Kept Q ql s) : Kept Q ql (State.quiesce s x1) := by
  induction x1 generalizing s with
  | nil => grind -ring -linarith [State.quiesce, kept_State_refreshTo, kept_intro, of_kept]
  | cons x l ih => grind -ring -linarith [State.quiesce, kept_State_refreshTo, kept_intro, of_kept]

theorem kept_State_openWorking (s : State) (n : Nat) (x2 : List Nat) (hs : Kept Q ql s) : Kept Q ql (State.openWorking s n x2) := by
  induction x2 generalizing s n with
  | nil => grind -ring -linarith [State.openWorking, kept_intro, of_kept]
  | cons x l ih => grind -ring -linarith [State.openWorking, kept_intro, of_kept]

theorem kept_State_showTraining (s : State) (x1 : List Nat) (hs : Kept Q ql s) : Kept Q ql (State.showTraining s x1) := by
  induction x1 generalizing s with
  | nil => grind -ring -linarith [State.showTraining, kept_State_setFld, kept_intro, of_kept]
  | cons x l ih => grind -ring -linarith [State.showTraining, kept_State_setFld, kept_intro, of_kept]

theorem kept_State_beginTrain (s : State) (r : Nat) (t : Train) (hs : Kept Q ql s) : Kept Q ql (State.beginTrain s r t) := by
  unfold State.beginTrain
  grind -ring -linarith [kept_State_setFld, kept_State_openWorking, kept_State_showTraining, kept_intro, of_kept]

theorem kept_State_setChannelInfo (s : State) (c : Nat) (v : ChannelInfo) (hs : Kept Q ql s) : Kept Q ql (State.setChannelInfo s c v) := by
  unfold State.setChannelInfo
  grind -ring -linarith [kept_intro, of_kept]

theorem kept_State_commitChannel (s : State) (c : Nat) (speed : Nat) (eye : Nat × Nat) (hs : Kept Q ql s) : Kept Q ql (State.commitChannel s c speed eye) := by
  unfold State.commitChannel
  grind -ring -linarith [kept_State_setNum, kept_State_setFld, kept_State_bump, kept_State_setDue, kept_State_setChannelInfo, kept_intro, of_kept]

theorem kept_State_makeDue (s : State) (c : Nat) (hs : Kept Q ql s) : Kept Q ql (State.makeDue s c) := by
  unfold State.makeDue
  grind -ring -linarith [kept_State_setDue, kept_intro, of_kept]

theorem kept_State_failRegion (s : State) (r : Nat) (hs : Kept Q ql s) : Kept Q ql (State.failRegion s r) := by
  unfold State.failRegion
  grind -ring -linarith [kept_State_setFld, kept_State_dropTrain, kept_State_setRegion, kept_State_noteBypass, kept_State_retirePage, kept_intro, of_kept]

theorem kept_State_dimmSample (s : State) (hs : Kept Q ql s) : Kept Q ql (State.dimmSample s) := by
  unfold State.dimmSample
  grind -ring -linarith [kept_State_sample, kept_foldl, kept_intro, of_kept]

theorem kept_State_keepChannel (s : State) (c : Nat) (hs : Kept Q ql s) : Kept Q ql (State.keepChannel s c) := by
  unfold State.keepChannel
  grind -ring -linarith [kept_State_fire, kept_State_bump, kept_State_setDue, kept_intro, of_kept]

theorem kept_State_repairDone (s : State) (region : Nat) (t : Train) (hs : Kept Q ql s) : Kept Q ql (State.repairDone s region t) := by
  unfold State.repairDone
  grind -ring -linarith (splits := 20) (gen := 16) (ematch := 12) [kept_State_setFld, kept_State_refreshTo, kept_State_setChannelInfo, kept_intro, of_kept]

theorem kept_State_setBank (s : State) (k : Nat) (v : Bank) (hs : Kept Q ql s) : Kept Q ql (State.setBank s k v) := by
  unfold State.setBank
  grind -ring -linarith [kept_intro, of_kept]

theorem kept_State_setSpeed (s : State) (speed : Nat) (x2 : List Nat) (hs : Kept Q ql s) : Kept Q ql (State.setSpeed s speed x2) := by
  induction x2 generalizing s speed with
  | nil =>
    unfold State.setSpeed
    try dsimp only
    repeat' (first | with_reducible assumption | with_reducible apply ih | with_reducible apply kept_State_setFld | with_reducible apply kept_State_setRank | split | intro _ | (apply kept_intro; dsimp only; apply of_kept))
  | cons x l ih =>
    unfold State.setSpeed
    try dsimp only
    repeat' (first | with_reducible assumption | with_reducible apply ih | with_reducible apply kept_State_setFld | with_reducible apply kept_State_setRank | split | intro _ | (apply kept_intro; dsimp only; apply of_kept))

theorem kept_State_settleChannels (s : State) (commit : Bool) (speed : Nat) (x3 : List (Nat × Nat × Nat)) (hs : Kept Q ql s) : Kept Q ql (State.settleChannels s commit speed x3) := by
  induction x3 generalizing s commit speed with
  | nil => grind -ring -linarith [State.settleChannels, kept_State_commitChannel, kept_State_keepChannel, kept_intro, of_kept]
  | cons x l ih => grind -ring -linarith [State.settleChannels, kept_State_commitChannel, kept_State_keepChannel, kept_intro, of_kept]

theorem kept_State_showThrottled (s : State) (r : Nat) (hs : Kept Q ql s) : Kept Q ql (State.showThrottled s r) := by
  unfold State.showThrottled
  grind -ring -linarith [kept_State_setFld, kept_intro, of_kept]

theorem kept_State_startTrain (s : State) (r : Nat) (k : BypassKind) (t : Train) (hs : Kept Q ql s) : Kept Q ql (State.startTrain s r k t) := by
  unfold State.startTrain
  grind -ring -linarith [kept_State_setFld, kept_State_bump, kept_State_setRegion, kept_State_enterBypass, kept_State_beginTrain, kept_intro, of_kept]

theorem kept_State_throttle (s : State) (c : Nat) (tenant : Nat) (hs : Kept Q ql s) : Kept Q ql (State.throttle s c tenant) := by
  unfold State.throttle
  grind -ring -linarith [kept_State_showThrottled, kept_intro, of_kept]

theorem kept_State_trainFailed (s : State) (x1 : List Nat) (hs : Kept Q ql s) : Kept Q ql (State.trainFailed s x1) := by
  induction x1 generalizing s with
  | nil => grind -ring -linarith [State.trainFailed, kept_State_fire, kept_intro, of_kept]
  | cons x l ih => grind -ring -linarith [State.trainFailed, kept_State_fire, kept_intro, of_kept]

theorem kept_execRetrainReqWrite (req : Requester) (region : Nat) (data : Word) (s : State) (hs : Kept Q ql s) : ∀ out, execRetrainReqWrite req region data s = .next out → Kept Q ql out := by
  intro out e
  unfold execRetrainReqWrite at e
  grind -ring -linarith [kept_State_setDue, kept_State_guarded, kept_State_writeFields, kept_intro, of_kept]

theorem kept_execBankIdleTimer (channel : Nat) (sub : Nat) (rank : Nat) (group : Nat) (bank : Nat) (s : State) (hs : Kept Q ql s) : ∀ out, execBankIdleTimer channel sub rank group bank s = .next out → Kept Q ql out := by
  intro out e
  unfold execBankIdleTimer at e
  grind -ring -linarith [kept_State_setBank, kept_intro, of_kept]

theorem kept_execDimmTempPoll (channel : Nat) (ok : Bool) (temp : Int) (s : State) (hs : Kept Q ql s) : ∀ out, execDimmTempPoll channel ok temp s = .next out → Kept Q ql out := by
  intro out e
  unfold execDimmTempPoll at e
  grind -ring -linarith (splits := 20) (gen := 16) (ematch := 12) [kept_State_fire, kept_State_setFld, kept_State_setChannelInfo, kept_State_makeDue, kept_State_dimmSample, kept_intro, of_kept]

theorem kept_execRankPdIdle (channel : Nat) (rank : Nat) (s : State) (hs : Kept Q ql s) : ∀ out, execRankPdIdle channel rank s = .next out → Kept Q ql out := by
  intro out e
  unfold execRankPdIdle at e
  grind -ring -linarith [kept_State_setRank, kept_intro, of_kept]

theorem kept_execRefreshInterval (channel : Nat) (rank : Nat) (demand : Bool) (s : State) (hs : Kept Q ql s) : ∀ out, execRefreshInterval channel rank demand s = .next out → Kept Q ql out := by
  intro out e
  unfold execRefreshInterval at e
  grind -ring -linarith [kept_State_setFld, kept_State_fireLimited, kept_State_setRank, kept_State_refresh, kept_intro, of_kept]

theorem kept_execRetrainBypassStart (region : Nat) (s : State) (hs : Kept Q ql s) : ∀ out, execRetrainBypassStart region s = .next out → Kept Q ql out := by
  intro out e
  unfold execRetrainBypassStart at e
  grind -ring -linarith [kept_State_startTrain, kept_intro, of_kept]

theorem kept_execRetrainDeferred (region : Nat) (s : State) (hs : Kept Q ql s) : ∀ out, execRetrainDeferred region s = .next out → Kept Q ql out := by
  intro out e
  unfold execRetrainDeferred at e
  grind -ring -linarith [kept_State_fire, kept_intro, of_kept]

theorem kept_execRetrainPeriodExpire (channel : Nat) (s : State) (hs : Kept Q ql s) : ∀ out, execRetrainPeriodExpire channel s = .next out → Kept Q ql out := by
  intro out e
  unfold execRetrainPeriodExpire at e
  grind -ring -linarith [kept_State_makeDue, kept_intro, of_kept]

theorem kept_execRowActivation (channel : Nat) (sub : Nat) (rank : Nat) (group : Nat) (bank : Nat) (row : Nat) (tenant : Nat) (s : State) (hs : Kept Q ql s) : ∀ out, execRowActivation channel sub rank group bank row tenant s = .next out → Kept Q ql out := by
  intro out e
  unfold execRowActivation at e
  grind -ring -linarith (splits := 20) (gen := 16) (ematch := 12) [kept_State_publish, kept_State_bump, kept_State_fireLimited, kept_State_setRank, kept_State_setBank, kept_State_throttle, kept_intro, of_kept]

theorem kept_execSpdFault (channel : Nat) (s : State) (hs : Kept Q ql s) : ∀ out, execSpdFault channel s = .next out → Kept Q ql out := by
  intro out e
  unfold execSpdFault at e
  grind -ring -linarith [kept_State_fire, kept_intro, of_kept]

theorem kept_execSpeedChangeDone (region : Nat) (passed : Nat) (s : State) (hs : Kept Q ql s) : ∀ out, execSpeedChangeDone region passed s = .next out → Kept Q ql out := by
  intro out e
  unfold execSpeedChangeDone at e
  grind -ring -linarith [kept_State_fire, kept_State_setFld, kept_State_endTrain, kept_State_setSpeed, kept_intro, of_kept]

theorem kept_execSpeedChangeStart (region : Nat) (s : State) (hs : Kept Q ql s) : ∀ out, execSpeedChangeStart region s = .next out → Kept Q ql out := by
  intro out e
  unfold execSpeedChangeStart at e
  grind -ring -linarith [kept_State_startTrain, kept_intro, of_kept]

theorem kept_execThrottleEnd (region : Nat) (tenant : Nat) (s : State) (hs : Kept Q ql s) : ∀ out, execThrottleEnd region tenant s = .next out → Kept Q ql out := by
  intro out e
  unfold execThrottleEnd at e
  grind -ring -linarith [kept_State_showThrottled, kept_intro, of_kept]

theorem kept_execTrainStepDone (region : Nat) (s : State) (hs : Kept Q ql s) : ∀ out, execTrainStepDone region s = .next out → Kept Q ql out := by
  intro out e
  unfold execTrainStepDone at e
  grind -ring -linarith [kept_State_bump, kept_State_endTrain, kept_State_refreshTo, kept_State_quiesce, kept_intro, of_kept]

theorem kept_execTrainVerifyDone (region : Nat) (working : Nat) (committed : Nat) (eyes : List (Nat × Nat)) (s : State) (hs : Kept Q ql s) : ∀ out, execTrainVerifyDone region working committed eyes s = .next out → Kept Q ql out := by
  intro out e
  unfold execTrainVerifyDone at e
  grind -ring -linarith [kept_State_fire, kept_State_setFld, kept_State_endTrain, kept_State_failRegion, kept_State_settleChannels, kept_State_trainFailed, kept_intro, of_kept]

end Sys2Proof.Machine
end

