-- ==== Sys2Proof/Laws/KeptHistory.lean ====
section
/-!
SUPPORT. What the operations of History keep (KeptBase.lean): the queue, a canonical register file, and a canonical Loft; a lemma that holds for every Q says the operation writes nothing in the Loft.
-/

set_option linter.unusedTactic false
set_option linter.unreachableTactic false
set_option linter.unusedVariables false

namespace Sys2Proof.Machine

variable {Q : KMap Byte → KMap Bool → Prop} {ql : List Instr}

theorem kept_State_abandonGroup (s : State) (hs : Kept Q ql s) : Kept Q ql (State.abandonGroup s) := by
  unfold State.abandonGroup
  grind -ring -linarith [kept_State_fire, kept_State_bump, kept_State_fillQueue, kept_intro, of_kept]

theorem kept_State_resumeHist (s : State) (lost : Bool) (hs : Kept Q ql s) : Kept Q ql (State.resumeHist s lost) := by
  unfold State.resumeHist
  grind -ring -linarith [kept_State_showHist, kept_intro, of_kept]

theorem kept_State_showRtc (s : State) (hs : Kept Q ql s) : Kept Q ql (State.showRtc s) := by
  unfold State.showRtc
  grind -ring -linarith [kept_State_setReg, kept_State_setFld, kept_intro, of_kept]

theorem kept_State_anchorRtc (s : State) (v : Nat) (slew : Int) (hs : Kept Q ql s) : Kept Q ql (State.anchorRtc s v slew) := by
  unfold State.anchorRtc
  grind -ring -linarith [kept_State_showRtc, kept_intro, of_kept]

theorem kept_State_eraseAttic (s : State) (b : Nat) (hs : Kept Q ql s) : Kept Q ql (State.eraseAttic s b) := by
  unfold State.eraseAttic
  grind -ring -linarith [kept_intro, of_kept]

theorem kept_State_copyHist (s : State) (hs : Kept Q ql s) : Kept Q ql (State.copyHist s) := by
  unfold State.copyHist
  grind -ring -linarith [kept_intro, of_kept]

theorem kept_State_copyRecs (s : State) (h : HistRead) (x2 : List (Nat × Nat)) (hs : Kept Q ql s) : Kept Q ql (State.copyRecs s h x2).1 := by
  induction x2 generalizing s h with
  | nil => grind -ring -linarith [State.copyRecs, kept_State_emit, kept_State_bump, kept_State_fireLimited, kept_intro, of_kept]
  | cons x l ih => grind -ring -linarith [State.copyRecs, kept_State_emit, kept_State_bump, kept_State_fireLimited, kept_intro, of_kept]

theorem kept_State_countService (s : State) (x1 : List Nat) (hs : Kept Q ql s) : Kept Q ql (State.countService s x1) := by
  induction x1 generalizing s with
  | nil => grind -ring -linarith [State.countService, kept_State_setReg, kept_intro, of_kept]
  | cons x l ih => grind -ring -linarith [State.countService, kept_State_setReg, kept_intro, of_kept]

theorem kept_State_showRecords (s : State) (hs : Kept Q ql s) : Kept Q ql (State.showRecords s) := by
  unfold State.showRecords
  grind -ring -linarith [kept_State_setNum, kept_intro, of_kept]

theorem kept_State_eraseRing (s : State) (i : Nat) (hs : Kept Q ql s) : Kept Q ql (State.eraseRing s i) := by
  unfold State.eraseRing
  grind -ring -linarith [kept_State_eraseAttic, kept_State_showRecords, kept_intro, of_kept]

theorem kept_State_eraseAhead (s : State) (i : Nat) (hs : Kept Q ql s) : Kept Q ql (State.eraseAhead s i) := by
  unfold State.eraseAhead
  grind -ring -linarith [kept_State_bump, kept_State_eraseRing, kept_intro, of_kept]

theorem kept_State_eraseCleared (s : State) (x1 : List Nat) (hs : Kept Q ql s) : Kept Q ql (State.eraseCleared s x1) := by
  induction x1 generalizing s with
  | nil => grind -ring -linarith [State.eraseCleared, kept_State_eraseRing, kept_intro, of_kept]
  | cons x l ih => grind -ring -linarith [State.eraseCleared, kept_State_eraseRing, kept_intro, of_kept]

theorem kept_State_setRead (s : State) (h : HistRead) (hs : Kept Q ql s) : Kept Q ql (State.setRead s h) := by
  unfold State.setRead
  grind -ring -linarith [kept_intro, of_kept]

theorem kept_State_undefer (s : State) (hs : Kept Q ql s) : Kept Q ql (State.undefer s) := by
  unfold State.undefer
  grind -ring -linarith [kept_State_eraseRing, kept_intro, of_kept]

theorem kept_State_goRead (s : State) (h : HistRead) (part : Nat) (hs : Kept Q ql s) : Kept Q ql (State.goRead s h part) := by
  unfold State.goRead
  grind -ring -linarith [kept_State_emit, kept_State_complete, kept_State_copyRecs, kept_State_setRead, kept_State_undefer, kept_intro, of_kept]

theorem kept_State_noteStep (s : State) (hs : Kept Q ql s) : Kept Q ql (State.noteStep s) := by
  unfold State.noteStep
  grind -ring -linarith [kept_intro, of_kept]

theorem kept_State_programSlots (s : State) (page : Nat) (slot : Nat) (x3 : List HistRec) (hs : Kept Q ql s) : Kept Q ql (State.programSlots s page slot x3) := by
  induction x3 generalizing s page slot with
  | nil => grind -ring -linarith [State.programSlots, kept_State_set64, kept_State_setAtticBlock, kept_intro, of_kept]
  | cons x l ih => grind -ring -linarith [State.programSlots, kept_State_set64, kept_State_setAtticBlock, kept_intro, of_kept]

theorem kept_State_programPage (s : State) (l : List HistRec) (hs : Kept Q ql s) : Kept Q ql (State.programPage s l) := by
  unfold State.programPage
  grind -ring -linarith [kept_State_setNum, kept_State_showRecords, kept_State_eraseAhead, kept_State_programSlots, kept_intro, of_kept]

theorem kept_State_reachRtc (s : State) (seconds : Nat) (hs : Kept Q ql s) : Kept Q ql (State.reachRtc s seconds) := by
  unfold State.reachRtc
  grind -ring -linarith [kept_State_anchorRtc, kept_intro, of_kept]

theorem kept_execRtcSetGo (req : Requester) (data : Word) (s : State) (hs : Kept Q ql s) : ∀ out, execRtcSetGo req data s = .next out → Kept Q ql out := by
  intro out e
  unfold execRtcSetGo at e
  grind -ring -linarith [kept_State_setNum, kept_State_fire, kept_State_anchorRtc, kept_State_guarded, kept_State_noteStep, kept_State_writeFields, kept_intro, of_kept]

theorem kept_execHistoryClear (c : AdminCmd) (s : State) (hs : Kept Q ql s) : ∀ out, execHistoryClear c s = .next out → Kept Q ql out := by
  intro out e
  unfold execHistoryClear at e
  grind -ring -linarith [kept_State_fire, kept_State_set64, kept_State_adminRun, kept_State_showRecords, kept_State_eraseCleared, kept_State_programPage, kept_intro, of_kept]

theorem kept_execHistoryEraseDeferLimit (s : State) (hs : Kept Q ql s) : ∀ out, execHistoryEraseDeferLimit s = .next out → Kept Q ql out := by
  intro out e
  unfold execHistoryEraseDeferLimit at e
  grind -ring -linarith [kept_State_fire, kept_State_eraseRing, kept_intro, of_kept]

theorem kept_execHistoryHeadScanDone (s : State) (hs : Kept Q ql s) : ∀ out, execHistoryHeadScanDone s = .next out → Kept Q ql out := by
  intro out e
  unfold execHistoryHeadScanDone at e
  grind -ring -linarith [kept_State_setNum, kept_State_set64, kept_State_showRecords, kept_intro, of_kept]

theorem kept_execHistoryPageProgram (s : State) (hs : Kept Q ql s) : ∀ out, execHistoryPageProgram s = .next out → Kept Q ql out := by
  intro out e
  unfold execHistoryPageProgram at e
  grind -ring -linarith [kept_State_fillQueue, kept_State_programPage, kept_intro, of_kept]

theorem kept_execHistoryRead (c : AdminCmd) (part : Nat) (s : State) (hs : Kept Q ql s) : ∀ out, execHistoryRead c part s = .next out → Kept Q ql out := by
  intro out e
  unfold execHistoryRead at e
  grind -ring -linarith [kept_State_adminRun, kept_State_goRead, kept_intro, of_kept]

theorem kept_execHistoryStateCopy (junction : Int) (slack : Int) (s : State) (hs : Kept Q ql s) : ∀ out, execHistoryStateCopy junction slack s = .next out → Kept Q ql out := by
  intro out e
  unfold execHistoryStateCopy at e
  grind -ring -linarith (splits := 20) (gen := 16) (ematch := 12) [kept_State_sample, kept_State_showRtc, kept_State_copyHist, kept_State_showDays, kept_State_countService, kept_foldl, kept_intro, of_kept]

theorem kept_execRtcNowLoRead (s : State) (hs : Kept Q ql s) : ∀ out, execRtcNowLoRead s = .next out → Kept Q ql out := by
  intro out e
  unfold execRtcNowLoRead at e
  grind -ring -linarith [kept_State_setNum, kept_State_emit, kept_State_setFld, kept_State_showRtc, kept_intro, of_kept]

theorem kept_execRtcOscFail (s : State) (hs : Kept Q ql s) : ∀ out, execRtcOscFail s = .next out → Kept Q ql out := by
  intro out e
  unfold execRtcOscFail at e
  grind -ring -linarith [kept_State_showRtc, kept_State_seqFire, kept_intro, of_kept]

theorem kept_execRtcSlewDone (s : State) (hs : Kept Q ql s) : ∀ out, execRtcSlewDone s = .next out → Kept Q ql out := by
  intro out e
  unfold execRtcSlewDone at e
  grind -ring -linarith [kept_State_anchorRtc, kept_intro, of_kept]

theorem kept_execSummaryBoundary (seconds : Nat) (s : State) (hs : Kept Q ql s) : ∀ out, execSummaryBoundary seconds s = .next out → Kept Q ql out := by
  intro out e
  unfold execSummaryBoundary at e
  grind -ring -linarith (splits := 20) (gen := 16) (ematch := 12) [kept_State_fillQueue, kept_State_abandonGroup, kept_State_closeTail, kept_State_reachRtc, kept_intro, of_kept]

end Sys2Proof.Machine
end

