-- ==== Sys2Proof/Laws/KeptAttic.lean ====
section
/-!
SUPPORT. What the operations of Attic keep (KeptBase.lean): the queue, a canonical register file, and a canonical Loft; a lemma that holds for every Q says the operation writes nothing in the Loft.
-/

set_option linter.unusedTactic false
set_option linter.unreachableTactic false
set_option linter.unusedVariables false

namespace Sys2Proof.Machine

variable {Q : KMap Byte → KMap Bool → Prop} {ql : List Instr}

theorem kept_State_atticFlag (s : State) (b : Nat) (hs : Kept Q ql s) : Kept Q ql (State.atticFlag s b) := by
  unfold State.atticFlag
  grind -ring -linarith [kept_State_setFld, kept_intro, of_kept]

theorem kept_State_abandonErase (s : State) (hs : Kept Q ql s) : Kept Q ql (State.abandonErase s) := by
  unfold State.abandonErase
  grind -ring -linarith [kept_State_atticFlag, kept_intro, of_kept]

theorem kept_State_bumpHalf (s : State) (page : Nat) (off : Nat) (lo : Nat) (hs : Kept Q ql s) : Kept Q ql (State.bumpHalf s page off lo) := by
  unfold State.bumpHalf
  grind -ring -linarith [kept_State_setFld, kept_intro, of_kept]

theorem kept_State_deferReset (s : State) (page : Nat) (cause : Nat) (op : Nat) (hs : Kept Q ql s) : Kept Q ql (State.deferReset s page cause op) := by
  unfold State.deferReset
  grind -ring -linarith [kept_State_fire, kept_State_bumpHalf, kept_intro, of_kept]

theorem kept_State_resetAttic (s : State) (hs : Kept Q ql s) : Kept Q ql (State.resetAttic s) := by
  unfold State.resetAttic
  grind -ring -linarith [kept_State_abandonErase, kept_intro, of_kept]

theorem kept_State_noteErase (s : State) (b : Nat) (hs : Kept Q ql s) : Kept Q ql (State.noteErase s b) := by
  unfold State.noteErase
  grind -ring -linarith [kept_State_setFld, kept_intro, of_kept]

theorem kept_State_retireAttic (s : State) (b : Nat) (hs : Kept Q ql s) : Kept Q ql (State.retireAttic s b) := by
  unfold State.retireAttic
  grind -ring -linarith [kept_State_fire, kept_State_setFld, kept_State_setAtticBlock, kept_intro, of_kept]

theorem kept_State_endAttic (s : State) (ok : Bool) (hs : Kept Q ql s) : Kept Q ql (State.endAttic s ok) := by
  unfold State.endAttic
  grind -ring -linarith (splits := 20) (gen := 16) (ematch := 12) [kept_State_fire, kept_State_bump, kept_State_atticFlag, kept_State_bumpHalf, kept_State_eraseAttic, kept_State_noteErase, kept_State_setAtticBlock, kept_State_retireAttic, kept_foldl, kept_intro, of_kept]

theorem kept_State_voidSeq (s : State) (hs : Kept Q ql s) : Kept Q ql (State.voidSeq s) := by
  unfold State.voidSeq
  grind -ring -linarith [kept_State_fire, kept_State_bump, kept_State_atticFlag, kept_intro, of_kept]

theorem kept_State_atticCommand (s : State) (c : Byte) (hs : Kept Q ql s) : Kept Q ql (State.atticCommand s c) := by
  unfold State.atticCommand
  grind -ring -linarith [kept_State_voidSeq, kept_intro, of_kept]

theorem kept_State_dropXip (s : State) (b : Nat) (hs : Kept Q ql s) : Kept Q ql (State.dropXip s b) := by
  unfold State.dropXip
  grind -ring -linarith [kept_intro, of_kept]

theorem kept_State_setAtticStatus (s : State) (v : Nat) (hs : Kept Q ql s) : Kept Q ql (State.setAtticStatus s v) := by
  unfold State.setAtticStatus
  grind -ring -linarith [kept_State_setFld, kept_intro, of_kept]

theorem kept_State_confirmAttic (s : State) (block : Nat) (page : Option Nat) (op : AtticOp) (hs : Kept Q ql s) : Kept Q ql (State.confirmAttic s block page op) := by
  unfold State.confirmAttic
  grind -ring -linarith [kept_State_atticFlag, kept_State_dropXip, kept_State_setAtticStatus, kept_intro, of_kept]

theorem kept_State_followWrite (s : State) (c : Nat) (offset : Nat) (data : List Byte) (hs : Kept Q ql s) : Kept Q ql (State.followWrite s c offset data) := by
  unfold State.followWrite
  grind -ring -linarith [kept_State_voidSeq, kept_State_confirmAttic, kept_intro, of_kept]

theorem kept_State_openPage (s : State) (p : Nat) (hs : Kept Q ql s) : Kept Q ql (State.openPage s p) := by
  unfold State.openPage
  grind -ring -linarith [kept_State_bump, kept_intro, of_kept]

theorem kept_State_refill (s : State) (line : Nat) (hs : Kept Q ql s) : Kept Q ql (State.refill s line) := by
  unfold State.refill
  grind -ring -linarith [kept_State_openPage, kept_intro, of_kept]

theorem kept_execAtticCmdWrite (offset : Nat) (data : List Byte) (s : State) (hs : Kept Q ql s) : ∀ out, execAtticCmdWrite offset data s = .next out → Kept Q ql out := by
  intro out e
  unfold execAtticCmdWrite at e
  grind -ring -linarith [kept_State_voidSeq, kept_State_atticCommand, kept_State_followWrite, kept_intro, of_kept]

theorem kept_execAtticOpDone (ok : Bool) (s : State) (hs : Kept Q ql s) : ∀ out, execAtticOpDone ok s = .next out → Kept Q ql out := by
  intro out e
  unfold execAtticOpDone at e
  grind -ring -linarith [kept_State_endAttic, kept_intro, of_kept]

theorem kept_execAtticRead (offset : Nat) (len : Nat) (corrected : Nat) (s : State) (hs : Kept Q ql s) : ∀ out, execAtticRead offset len corrected s = .next out → Kept Q ql out := by
  intro out e
  unfold execAtticRead at e
  grind -ring -linarith (splits := 20) (gen := 16) (ematch := 12) [kept_State_emit, kept_State_fire, kept_State_bump, kept_State_fireLimited, kept_State_voidSeq, kept_State_openPage, kept_intro, of_kept]

theorem kept_execAtticRecordRewrite (page : Nat) (s : State) (hs : Kept Q ql s) : ∀ out, execAtticRecordRewrite page s = .next out → Kept Q ql out := by
  intro out e
  unfold execAtticRecordRewrite at e
  grind -ring -linarith [kept_intro, of_kept]

theorem kept_execAtticSeqTimeout (s : State) (hs : Kept Q ql s) : ∀ out, execAtticSeqTimeout s = .next out → Kept Q ql out := by
  intro out e
  unfold execAtticSeqTimeout at e
  grind -ring -linarith [kept_State_voidSeq, kept_intro, of_kept]

theorem kept_execXipFetch (offset : Nat) (taken : Bool) (s : State) (hs : Kept Q ql s) : ∀ out, execXipFetch offset taken s = .next out → Kept Q ql out := by
  intro out e
  unfold execXipFetch at e
  grind -ring -linarith [kept_State_bump, kept_State_openPage, kept_State_refill, kept_intro, of_kept]

end Sys2Proof.Machine
end

