-- ==== Sys2Proof/Laws/KeptQp.lean ====
section
/-!
SUPPORT. What the operations of Qp keep (KeptBase.lean): the queue, a canonical register file, and a canonical Loft; a lemma that holds for every Q says the operation writes nothing in the Loft.
-/

set_option linter.unusedTactic false
set_option linter.unreachableTactic false
set_option linter.unusedVariables false

namespace Sys2Proof.Machine

variable {Q : KMap Byte → KMap Bool → Prop} {ql : List Instr}

theorem kept_State_setWays (s : State) (n : Nat) (l : List QpcEntry) (hs : Kept Q ql s) : Kept Q ql (State.setWays s n l) := by
  unfold State.setWays
  grind -ring -linarith [kept_intro, of_kept]

theorem kept_State_setQp (s : State) (n : Nat) (q : Qp) (hs : Kept Q ql s) : Kept Q ql (State.setQp s n q) := by
  unfold State.setQp
  grind -ring -linarith [kept_State_setWays, kept_intro, of_kept]

theorem kept_State_showTrackers (s : State) (hs : Kept Q ql s) : Kept Q ql (State.showTrackers s) := by
  unfold State.showTrackers
  grind -ring -linarith [kept_State_setNum, kept_State_setMax, kept_intro, of_kept]

theorem kept_State_dropTracker (s : State) (n : Nat) (msn : Nat) (hs : Kept Q ql s) : Kept Q ql (State.dropTracker s n msn) := by
  unfold State.dropTracker
  grind -ring -linarith [kept_State_setQp, kept_State_showTrackers, kept_intro, of_kept]

theorem kept_State_findWays (fuel : Nat) (s : State) (n : Nat) (hs : Kept Q ql s) : Kept Q ql (State.findWays fuel s n) := by
  induction fuel generalizing s n with
  | zero => grind -ring -linarith [State.findWays, kept_State_setWays, kept_intro, of_kept]
  | succ n ih => grind -ring -linarith [State.findWays, kept_State_setWays, kept_intro, of_kept]

theorem kept_State_issueWriteback (s : State) (hs : Kept Q ql s) : Kept Q ql (State.issueWriteback s) := by
  unfold State.issueWriteback
  grind -ring -linarith [kept_State_setWays, kept_intro, of_kept]

theorem kept_State_kick (s : State) (n : Nat) (hs : Kept Q ql s) : Kept Q ql (State.kick s n) := by
  unfold State.kick
  grind -ring -linarith [kept_State_findWays, kept_State_issueWriteback, kept_intro, of_kept]

theorem kept_State_failMessage (s : State) (n : Nat) (msn : Nat) (cause : Nat) (hs : Kept Q ql s) : Kept Q ql (State.failMessage s n msn cause) := by
  unfold State.failMessage
  try dsimp only
  repeat' (first | with_reducible assumption | with_reducible apply kept_State_setQp | with_reducible apply kept_State_dropTracker | with_reducible apply kept_State_fire | with_reducible apply kept_State_kick | with_reducible apply kept_State_publish | split | intro _ | (apply kept_intro; dsimp only; apply of_kept))

theorem kept_State_setPp (s : State) (peer : Nat) (plane : Nat) (v : PeerPlane) (hs : Kept Q ql s) : Kept Q ql (State.setPp s peer plane v) := by
  unfold State.setPp
  grind -ring -linarith [kept_intro, of_kept]

theorem kept_State_freshRate (s : State) (peer : Nat) (plane : Nat) (hs : Kept Q ql s) : Kept Q ql (State.freshRate s peer plane) := by
  unfold State.freshRate
  grind -ring -linarith [kept_State_setPp, kept_intro, of_kept]

theorem kept_State_freshRates (s : State) (peer : Nat) (x2 : List Nat) (hs : Kept Q ql s) : Kept Q ql (State.freshRates s peer x2) := by
  induction x2 generalizing s peer with
  | nil => grind -ring -linarith [State.freshRates, kept_State_freshRate, kept_intro, of_kept]
  | cons x l ih => grind -ring -linarith [State.freshRates, kept_State_freshRate, kept_intro, of_kept]

theorem kept_State_sendCtrl (s : State) (p : PxtOut) (hs : Kept Q ql s) : Kept Q ql (State.sendCtrl s p) := by
  unfold State.sendCtrl
  grind -ring -linarith [kept_State_emit, kept_State_bump, kept_intro, of_kept]

theorem kept_State_sendAck (s : State) (n : Nat) (t : Trigger) (hs : Kept Q ql s) : Kept Q ql (State.sendAck s n t) := by
  unfold State.sendAck
  grind -ring -linarith [kept_State_setQp, kept_State_setPp, kept_State_sendCtrl, kept_intro, of_kept]

theorem kept_State_sendNak (s : State) (n : Nat) (t : Trigger) (syn : Nat) (detail : Nat) (retry : Nat) (hs : Kept Q ql s) : Kept Q ql (State.sendNak s n t syn detail retry) := by
  unfold State.sendNak
  grind -ring -linarith [kept_State_setQp, kept_State_bump, kept_State_fireLimited, kept_State_sendCtrl, kept_intro, of_kept]

theorem kept_State_sendNaks (s : State) (n : Nat) (x2 : List Owed) (hs : Kept Q ql s) : Kept Q ql (State.sendNaks s n x2) := by
  induction x2 generalizing s n with
  | nil => grind -ring -linarith [State.sendNaks, kept_State_sendNak, kept_intro, of_kept]
  | cons x l ih => grind -ring -linarith [State.sendNaks, kept_State_sendNak, kept_intro, of_kept]

theorem kept_State_settle (s : State) (n : Nat) (hs : Kept Q ql s) : Kept Q ql (State.settle s n) := by
  unfold State.settle
  grind -ring -linarith [kept_State_setQp, kept_State_sendAck, kept_State_sendNaks, kept_intro, of_kept]

theorem kept_State_settles (s : State) (x1 : List Nat) (hs : Kept Q ql s) : Kept Q ql (State.settles s x1) := by
  induction x1 generalizing s with
  | nil => grind -ring -linarith [State.settles, kept_State_settle, kept_intro, of_kept]
  | cons x l ih => grind -ring -linarith [State.settles, kept_State_settle, kept_intro, of_kept]

theorem kept_State_settleAll (s : State) (hs : Kept Q ql s) : Kept Q ql (State.settleAll s) := by
  unfold State.settleAll
  grind -ring -linarith [kept_State_settles, kept_intro, of_kept]

theorem kept_State_showSlots (s : State) (hs : Kept Q ql s) : Kept Q ql (State.showSlots s) := by
  unfold State.showSlots
  grind -ring -linarith [kept_State_setFld, kept_intro, of_kept]

theorem kept_State_countWrite (s : State) (tenant : Nat) (t : Tracker) (hs : Kept Q ql s) : Kept Q ql (State.countWrite s tenant t) := by
  unfold State.countWrite
  grind -ring -linarith [kept_State_sample, kept_State_tallyAdd, kept_intro, of_kept]

theorem kept_State_cascade (fuel : Nat) (s : State) (n : Nat) (hs : Kept Q ql s) : Kept Q ql (State.cascade fuel s n).2 := by
  induction fuel generalizing s n with
  | zero => grind -ring -linarith [State.cascade, kept_State_setQp, kept_State_dropTracker, kept_State_countWrite, kept_intro, of_kept]
  | succ n ih => grind -ring -linarith [State.cascade, kept_State_setQp, kept_State_dropTracker, kept_State_countWrite, kept_intro, of_kept]

theorem kept_State_owe (s : State) (n : Nat) (t : Trigger) (nak : Option (Nat × Nat × Nat)) (hs : Kept Q ql s) : Kept Q ql (State.owe s n t nak) := by
  unfold State.owe
  grind -ring -linarith [kept_State_setQp, kept_intro, of_kept]

theorem kept_State_completeMsgs (s : State) (n : Nat) (hs : Kept Q ql s) : Kept Q ql (State.completeMsgs s n) := by
  unfold State.completeMsgs
  grind -ring -linarith [kept_State_setQp, kept_State_kick, kept_State_cascade, kept_State_owe, kept_intro, of_kept]

theorem kept_State_setTracker (s : State) (n : Nat) (msn : Nat) (t : Tracker) (hs : Kept Q ql s) : Kept Q ql (State.setTracker s n msn t) := by
  unfold State.setTracker
  grind -ring -linarith [kept_intro, of_kept]

theorem kept_State_discardResp (s : State) (r : Response) (hs : Kept Q ql s) : Kept Q ql (State.discardResp s r) := by
  unfold State.discardResp
  grind -ring -linarith [kept_State_bump, kept_State_tallyAdd, kept_State_completeMsgs, kept_State_setTracker, kept_intro, of_kept]

theorem kept_State_discardResps (s : State) (x1 : List Response) (hs : Kept Q ql s) : Kept Q ql (State.discardResps s x1) := by
  induction x1 generalizing s with
  | nil => grind -ring -linarith [State.discardResps, kept_State_discardResp, kept_intro, of_kept]
  | cons x l ih => grind -ring -linarith [State.discardResps, kept_State_discardResp, kept_intro, of_kept]

theorem kept_State_setPlane (s : State) (p : Nat) (v : Plane) (hs : Kept Q ql s) : Kept Q ql (State.setPlane s p v) := by
  unfold State.setPlane
  grind -ring -linarith [kept_intro, of_kept]

theorem kept_State_discardQueue (s : State) (p : Nat) (hs : Kept Q ql s) : Kept Q ql (State.discardQueue s p) := by
  unfold State.discardQueue
  grind -ring -linarith [kept_State_discardResps, kept_State_setPlane, kept_intro, of_kept]

theorem kept_State_writeBack (s : State) (n : Nat) (hs : Kept Q ql s) : Kept Q ql (State.writeBack s n) := by
  unfold State.writeBack
  grind -ring -linarith [kept_State_setWays, kept_intro, of_kept]

theorem kept_State_writeBacks (s : State) (x1 : List Nat) (hs : Kept Q ql s) : Kept Q ql (State.writeBacks s x1) := by
  induction x1 generalizing s with
  | nil => grind -ring -linarith [State.writeBacks, kept_State_writeBack, kept_intro, of_kept]
  | cons x l ih => grind -ring -linarith [State.writeBacks, kept_State_writeBack, kept_intro, of_kept]

theorem kept_State_writeBackAll (s : State) (hs : Kept Q ql s) : Kept Q ql (State.writeBackAll s) := by
  unfold State.writeBackAll
  grind -ring -linarith [kept_State_writeBacks, kept_intro, of_kept]

theorem kept_State_setPlaneBits (s : State) (p : Nat) (service : Bool) (link : Bool) (hs : Kept Q ql s) : Kept Q ql (State.setPlaneBits s p service link) := by
  unfold State.setPlaneBits
  grind -ring -linarith [kept_State_setFld, kept_intro, of_kept]

theorem kept_State_clearQp (s : State) (n : Nat) (hs : Kept Q ql s) : Kept Q ql (State.clearQp s n) := by
  unfold State.clearQp
  grind -ring -linarith (splits := 20) (gen := 16) (ematch := 12) [kept_State_setWays, kept_State_setQp, kept_State_showTrackers, kept_State_kick, kept_State_showSlots, kept_State_dropRef, kept_intro, of_kept]

theorem kept_State_clearQps (s : State) (x1 : List Nat) (hs : Kept Q ql s) : Kept Q ql (State.clearQps s x1) := by
  induction x1 generalizing s with
  | nil =>
    unfold State.clearQps
    try dsimp only
    repeat' (first | with_reducible assumption | with_reducible apply ih | with_reducible apply kept_State_clearQp | split | intro _ | (apply kept_intro; dsimp only; apply of_kept))
  | cons x l ih =>
    unfold State.clearQps
    try dsimp only
    repeat' (first | with_reducible assumption | with_reducible apply ih | with_reducible apply kept_State_clearQp | split | intro _ | (apply kept_intro; dsimp only; apply of_kept))

theorem kept_State_ppUp (s : State) (peer : Nat) (plane : Nat) (hs : Kept Q ql s) : Kept Q ql (State.ppUp s peer plane) := by
  unfold State.ppUp
  grind -ring -linarith [kept_State_fire, kept_State_publish, kept_State_setPp, kept_intro, of_kept]

theorem kept_State_dropEntry (s : State) (n : Nat) (hs : Kept Q ql s) : Kept Q ql (State.dropEntry s n) := by
  unfold State.dropEntry
  grind -ring -linarith [kept_State_setWays, kept_State_kick, kept_intro, of_kept]

theorem kept_State_dropTrackers (s : State) (n : Nat) (x2 : List Nat) (hs : Kept Q ql s) : Kept Q ql (State.dropTrackers s n x2) := by
  induction x2 generalizing s n with
  | nil => grind -ring -linarith [State.dropTrackers, kept_State_dropTracker, kept_intro, of_kept]
  | cons x l ih => grind -ring -linarith [State.dropTrackers, kept_State_dropTracker, kept_intro, of_kept]

theorem kept_State_releaseSlot (s : State) (n : Nat) (hs : Kept Q ql s) : Kept Q ql (State.releaseSlot s n) := by
  unfold State.releaseSlot
  grind -ring -linarith [kept_State_setQp, kept_State_kick, kept_State_showSlots, kept_intro, of_kept]

theorem kept_State_notFresh (s : State) (n : Nat) (psn : Nat) (hs : Kept Q ql s) : Kept Q ql (State.notFresh s n psn) := by
  unfold State.notFresh
  grind -ring -linarith [kept_State_setQp, kept_State_releaseSlot, kept_intro, of_kept]

theorem kept_State_judge (s : State) (n : Nat) (msn : Nat) (hs : Kept Q ql s) : Kept Q ql (State.judge s n msn) := by
  unfold State.judge
  grind -ring -linarith [kept_State_completeMsgs, kept_State_setTracker, kept_intro, of_kept]

theorem kept_State_fetchQpc (s : State) (n : Nat) (hs : Kept Q ql s) : Kept Q ql (State.fetchQpc s n) := by
  unfold State.fetchQpc
  grind -ring -linarith [kept_State_kick, kept_intro, of_kept]

theorem kept_State_upAll (s : State) (plane : Nat) (x2 : List Nat) (hs : Kept Q ql s) : Kept Q ql (State.upAll s plane x2) := by
  induction x2 generalizing s plane with
  | nil => grind -ring -linarith [State.upAll, kept_State_ppUp, kept_intro, of_kept]
  | cons x l ih => grind -ring -linarith [State.upAll, kept_State_ppUp, kept_intro, of_kept]

theorem kept_State_planeBack (s : State) (plane : Nat) (hs : Kept Q ql s) : Kept Q ql (State.planeBack s plane) := by
  unfold State.planeBack
  grind -ring -linarith [kept_State_setPlane, kept_State_setPlaneBits, kept_State_upAll, kept_intro, of_kept]

theorem kept_State_planeTrained (s : State) (plane : Nat) (passed : Bool) (hs : Kept Q ql s) : Kept Q ql (State.planeTrained s plane passed) := by
  unfold State.planeTrained
  grind -ring -linarith [kept_State_complete, kept_State_setPlane, kept_State_planeBack, kept_intro, of_kept]

theorem kept_State_linkPlane (s : State) (plane : Nat) (hs : Kept Q ql s) : Kept Q ql (State.linkPlane s plane) := by
  unfold State.linkPlane
  grind -ring -linarith [kept_State_setFld, kept_State_setPlaneBits, kept_intro, of_kept]

theorem kept_State_newTracker (s : State) (n : Nat) (msn : Nat) (t : Tracker) (hs : Kept Q ql s) : Kept Q ql (State.newTracker s n msn t) := by
  unfold State.newTracker
  grind -ring -linarith [kept_State_setQp, kept_State_showTrackers, kept_State_setTracker, kept_intro, of_kept]

theorem kept_State_receive (s : State) (n : Nat) (psn : Nat) (hs : Kept Q ql s) : Kept Q ql (State.receive s n psn) := by
  unfold State.receive
  grind -ring -linarith [kept_State_setQp, kept_State_releaseSlot, kept_intro, of_kept]

theorem kept_State_mirrored (s : State) (x1 : List (Nat × Nat × Nat)) (hs : Kept Q ql s) : Kept Q ql (State.mirrored s x1) := by
  induction x1 generalizing s with
  | nil => grind -ring -linarith [State.mirrored, kept_State_setTracker, kept_State_judge, kept_intro, of_kept]
  | cons x l ih => grind -ring -linarith [State.mirrored, kept_State_setTracker, kept_State_judge, kept_intro, of_kept]

theorem kept_State_ppDown (s : State) (peer : Nat) (plane : Nat) (hs : Kept Q ql s) : Kept Q ql (State.ppDown s peer plane) := by
  unfold State.ppDown
  grind -ring -linarith [kept_State_fire, kept_State_publish, kept_State_setPp, kept_intro, of_kept]

theorem kept_State_staleFetch (s : State) (n : Nat) (hs : Kept Q ql s) : Kept Q ql (State.staleFetch s n) := by
  unfold State.staleFetch
  grind -ring -linarith [kept_intro, of_kept]

theorem kept_State_qpCommand (s : State) (op : Nat) (c : AdminCmd) (code : Option Nat) (allowed : QpState → Bool) (body : State → Qp → State × Option Answer) (hs : Kept Q ql s) (hbody : ∀ s q, Kept Q ql s → Kept Q ql (body s q).1) : Kept Q ql (State.qpCommand s op c code allowed body) := by
  unfold State.qpCommand
  grind -ring -linarith [kept_State_adminRun, kept_State_staleFetch, kept_intro, of_kept]

theorem kept_execFabricLinkDown (plane : Nat) (s : State) (hs : Kept Q ql s) : ∀ out, execFabricLinkDown plane s = .next out → Kept Q ql out := by
  intro out e
  unfold execFabricLinkDown at e
  grind -ring -linarith [kept_State_fire, kept_State_settleAll, kept_State_discardQueue, kept_State_setPlaneBits, kept_intro, of_kept]

theorem kept_execFabricLinkUp (plane : Nat) (s : State) (hs : Kept Q ql s) : ∀ out, execFabricLinkUp plane s = .next out → Kept Q ql out := by
  intro out e
  unfold execFabricLinkUp at e
  grind -ring -linarith [kept_State_linkPlane, kept_intro, of_kept]

theorem kept_execLaneFault (port : Nat) (s : State) (hs : Kept Q ql s) : ∀ out, execLaneFault port s = .next out → Kept Q ql out := by
  intro out e
  unfold execLaneFault at e
  grind -ring -linarith [kept_State_setFld, kept_intro, of_kept]

theorem kept_execPeerSet (c : AdminCmd) (s : State) (hs : Kept Q ql s) : ∀ out, execPeerSet c s = .next out → Kept Q ql out := by
  intro out e
  unfold execPeerSet at e
  grind -ring -linarith [kept_State_freshRates, kept_State_adminRun, kept_intro, of_kept]

theorem kept_execPlaneControlOut (c : AdminCmd) (s : State) (hs : Kept Q ql s) : ∀ out, execPlaneControlOut c s = .next out → Kept Q ql out := by
  intro out e
  unfold execPlaneControlOut at e
  grind -ring -linarith [kept_State_fire, kept_State_setFld, kept_State_setPlane, kept_State_adminRun, kept_intro, of_kept]

theorem kept_execPlaneDrainExpire (plane : Nat) (s : State) (hs : Kept Q ql s) : ∀ out, execPlaneDrainExpire plane s = .next out → Kept Q ql out := by
  intro out e
  unfold execPlaneDrainExpire at e
  grind -ring -linarith (splits := 20) (gen := 16) (ematch := 12) [kept_State_setFld, kept_State_complete, kept_State_setPg, kept_State_settleAll, kept_State_setPlane, kept_State_discardQueue, kept_State_setPlaneBits, kept_intro, of_kept]

theorem kept_execQpCreate (c : AdminCmd) (s : State) (hs : Kept Q ql s) : ∀ out, execQpCreate c s = .next out → Kept Q ql out := by
  intro out e
  unfold execQpCreate at e
  grind -ring -linarith [kept_State_setQp, kept_State_adminRun, kept_State_staleFetch, kept_intro, of_kept]

theorem kept_execQpDestroy (c : AdminCmd) (s : State) (hs : Kept Q ql s) : ∀ out, execQpDestroy c s = .next out → Kept Q ql out := by
  intro out e
  unfold execQpDestroy at e
  grind -ring -linarith [kept_State_clearQp, kept_State_qpCommand, kept_intro, of_kept]

theorem kept_execQpModifyAcks (c : AdminCmd) (s : State) (hs : Kept Q ql s) : ∀ out, execQpModifyAcks c s = .next out → Kept Q ql out := by
  intro out e
  unfold execQpModifyAcks at e
  grind -ring -linarith [kept_State_setQp, kept_State_qpCommand, kept_intro, of_kept]

theorem kept_execQpModifyError (c : AdminCmd) (s : State) (hs : Kept Q ql s) : ∀ out, execQpModifyError c s = .next out → Kept Q ql out := by
  intro out e
  unfold execQpModifyError at e
  grind -ring -linarith [kept_State_setQp, kept_State_fire, kept_State_publish, kept_State_qpCommand, kept_intro, of_kept]

theorem kept_execQpModifyKeysel (c : AdminCmd) (s : State) (hs : Kept Q ql s) : ∀ out, execQpModifyKeysel c s = .next out → Kept Q ql out := by
  intro out e
  unfold execQpModifyKeysel at e
  grind -ring -linarith [kept_State_setQp, kept_State_qpCommand, kept_intro, of_kept]

theorem kept_execQpModifyPaths (c : AdminCmd) (s : State) (hs : Kept Q ql s) : ∀ out, execQpModifyPaths c s = .next out → Kept Q ql out := by
  intro out e
  unfold execQpModifyPaths at e
  grind -ring -linarith [kept_State_setQp, kept_State_qpCommand, kept_intro, of_kept]

theorem kept_execQpModifyReady (c : AdminCmd) (s : State) (hs : Kept Q ql s) : ∀ out, execQpModifyReady c s = .next out → Kept Q ql out := by
  intro out e
  unfold execQpModifyReady at e
  grind -ring -linarith [kept_State_setQp, kept_State_qpCommand, kept_intro, of_kept]

theorem kept_execQpModifyReset (c : AdminCmd) (s : State) (hs : Kept Q ql s) : ∀ out, execQpModifyReset c s = .next out → Kept Q ql out := by
  intro out e
  unfold execQpModifyReset at e
  grind -ring -linarith [kept_State_setQp, kept_State_kick, kept_State_showSlots, kept_State_qpCommand, kept_intro, of_kept]

theorem kept_execQpModifySync (c : AdminCmd) (s : State) (hs : Kept Q ql s) : ∀ out, execQpModifySync c s = .next out → Kept Q ql out := by
  intro out e
  unfold execQpModifySync at e
  grind -ring -linarith [kept_State_writeBack, kept_State_qpCommand, kept_intro, of_kept]

theorem kept_execTenantShare (c : AdminCmd) (s : State) (hs : Kept Q ql s) : ∀ out, execTenantShare c s = .next out → Kept Q ql out := by
  intro out e
  unfold execTenantShare at e
  grind -ring -linarith [kept_State_adminRun, kept_intro, of_kept]

end Sys2Proof.Machine
end

