-- ==== Sys2Proof/Laws/KeptAhead.lean ====
section
/-!
SUPPORT. What the operations of Ahead keep (KeptBase.lean): the queue, a canonical register file, and a canonical Loft; a lemma that holds for every Q says the operation writes nothing in the Loft.
-/

set_option linter.unusedTactic false
set_option linter.unreachableTactic false
set_option linter.unusedVariables false

namespace Sys2Proof.Machine

variable {Q : KMap Byte → KMap Bool → Prop} {ql : List Instr}

theorem kept_State_setJob (s : State) (j : ReadJob) (hs : Kept Q ql s) : Kept Q ql (State.setJob s j) := by
  unfold State.setJob
  grind -ring -linarith [kept_intro, of_kept]

theorem kept_State_askPiece (s : State) (j : ReadJob) (p : Nat × Nat) (hs : Kept Q ql s) : Kept Q ql (State.askPiece s j p) := by
  unfold State.askPiece
  grind -ring -linarith (splits := 20) (gen := 16) (ematch := 12) [kept_State_park, kept_State_twinLost, kept_State_askTwin, kept_State_setJob, kept_intro, of_kept]

theorem kept_State_askPieces (s : State) (arrival : Nat) (x2 : List (Nat × Nat)) (hs : Kept Q ql s) : Kept Q ql (State.askPieces s arrival x2) := by
  induction x2 generalizing s arrival with
  | nil => grind -ring -linarith [State.askPieces, kept_State_askPiece, kept_intro, of_kept]
  | cons x l ih => grind -ring -linarith [State.askPieces, kept_State_askPiece, kept_intro, of_kept]

theorem kept_State_setStrides (s : State) (r : Nat) (l : List Stride) (hs : Kept Q ql s) : Kept Q ql (State.setStrides s r l) := by
  unfold State.setStrides
  grind -ring -linarith [kept_State_setNum, kept_intro, of_kept]

theorem kept_State_stage (s : State) (page : Nat) (op : Nat) (hs : Kept Q ql s) : Kept Q ql (State.stage s page op) := by
  unfold State.stage
  grind -ring -linarith [kept_State_bump, kept_intro, of_kept]

theorem kept_State_stageAhead (s : State) (w : Window) (p : Nat) (diff : Int) (x4 : Nat) (x5 : Nat) (hs : Kept Q ql s) : Kept Q ql (State.stageAhead s w p diff x4 x5) := by
  induction x4 generalizing s x5 with
  | zero => exact hs
  | succ n ih =>
    unfold State.stageAhead
    apply ih
    split
    · split
      · exact kept_State_stage _ _ _ hs
      · exact hs
    · exact hs

theorem kept_State_noteStride (s : State) (r : Nat) (qpn : Nat) (handle : Nat) (p : Nat) (staged : Bool) (hs : Kept Q ql s) : Kept Q ql (State.noteStride s r qpn handle p staged) := by
  unfold State.noteStride
  grind -ring -linarith [kept_State_bump, kept_State_setStrides, kept_State_stageAhead, kept_intro, of_kept]

theorem kept_State_touchStaged (s : State) (page : Nat) (hs : Kept Q ql s) : Kept Q ql (State.touchStaged s page) := by
  unfold State.touchStaged
  grind -ring -linarith [kept_State_setStaged, kept_intro, of_kept]

theorem kept_State_noteCellarReads (s : State) (j : ReadJob) (x2 : List Nat) (hs : Kept Q ql s) : Kept Q ql (State.noteCellarReads s j x2) := by
  induction x2 generalizing s j with
  | nil => grind -ring -linarith [State.noteCellarReads, kept_State_bump, kept_State_noteStride, kept_State_touchStaged, kept_intro, of_kept]
  | cons x l ih => grind -ring -linarith [State.noteCellarReads, kept_State_bump, kept_State_noteStride, kept_State_touchStaged, kept_intro, of_kept]

theorem kept_State_startRead (s : State) (j : ReadJob) (hs : Kept Q ql s) : Kept Q ql (State.startRead s j) := by
  unfold State.startRead
  grind -ring -linarith [kept_State_askPieces, kept_State_noteCellarReads, kept_foldl, kept_intro, of_kept]

theorem kept_State_makeRoom (s : State) (r : Nat) (hs : Kept Q ql s) : Kept Q ql (State.makeRoom s r) := by
  unfold State.makeRoom
  grind -ring -linarith [kept_State_bump, kept_State_setStaged, kept_intro, of_kept]

theorem kept_State_settleHint (s : State) (page : Nat) (ok : Bool) (hs : Kept Q ql s) : Kept Q ql (State.settleHint s page ok) := by
  unfold State.settleHint
  grind -ring -linarith [kept_State_complete, kept_foldl, kept_intro, of_kept]

theorem kept_execHintReadahead (c : AdminCmd) (s : State) (hs : Kept Q ql s) : ∀ out, execHintReadahead c s = .next out → Kept Q ql out := by
  intro out e
  unfold execHintReadahead at e
  grind -ring -linarith [kept_State_adminRun, kept_State_stage, kept_foldl, kept_intro, of_kept]

theorem kept_execStagingReadDone (page : Nat) (ok : Bool) (s : State) (hs : Kept CanonLoft ql s) : ∀ out, execStagingReadDone page ok s = .next out → Kept CanonLoft ql out := by
  intro out e
  unfold execStagingReadDone at e
  grind -ring -linarith (splits := 20) (gen := 16) (ematch := 12) [kept_State_bump, kept_State_setStaged, kept_State_stepOk, kept_State_stepFails, kept_State_makeRoom, kept_State_settleHint, kept_intro, of_kept]

end Sys2Proof.Machine
end

