-- ==== Sys2Proof/Laws/KeptPerf.lean ====
section
/-!
SUPPORT. What the operations of Perf keep (KeptBase.lean): the queue, a canonical register file, and a canonical Loft; a lemma that holds for every Q says the operation writes nothing in the Loft.
-/

set_option linter.unusedTactic false
set_option linter.unreachableTactic false
set_option linter.unusedVariables false

namespace Sys2Proof.Machine

variable {Q : KMap Byte → KMap Bool → Prop} {ql : List Instr}

theorem kept_State_setSampler (s : State) (i : Nat) (x : Sampler) (hs : Kept Q ql s) : Kept Q ql (State.setSampler s i x) := by
  unfold State.setSampler
  grind -ring -linarith [kept_State_setNum, kept_State_putWords, kept_intro, of_kept]

theorem kept_State_resetSamplers (s : State) (x1 : List Nat) (hs : Kept Q ql s) : Kept Q ql (State.resetSamplers s x1) := by
  induction x1 generalizing s with
  | nil => grind -ring -linarith [State.resetSamplers, kept_State_setSampler, kept_intro, of_kept]
  | cons x l ih => grind -ring -linarith [State.resetSamplers, kept_State_setSampler, kept_intro, of_kept]

theorem kept_State_closeInto (s : State) (i : Nat) (x : Sampler) (r : List Byte) (hs : Kept Q ql s) : Kept Q ql (State.closeInto s i x r) := by
  unfold State.closeInto
  grind -ring -linarith [kept_State_bump, kept_State_fireLimited, kept_State_setSampler, kept_intro, of_kept]

theorem kept_State_interval (s : State) (n : Nat) (jitter : Bool) (hs : Kept Q ql s) : Kept Q ql (State.interval s n jitter).2 := by
  unfold State.interval
  grind -ring -linarith [kept_State_fresh, kept_intro, of_kept]

theorem kept_State_configSampler (s : State) (c : AdminCmd) (i : Nat) (hs : Kept Q ql s) : Kept Q ql (State.configSampler s c i).1 := by
  unfold State.configSampler
  grind -ring -linarith [kept_State_setSampler, kept_State_interval, kept_intro, of_kept]

theorem kept_State_samplePacket (s : State) (o : OpenSample) (hs : Kept Q ql s) : Kept Q ql (State.samplePacket s o) := by
  unfold State.samplePacket
  grind -ring -linarith [kept_State_bump, kept_State_setSampler, kept_State_interval, kept_intro, of_kept]

theorem kept_State_setCounter (s : State) (page : Nat) (n : Nat) (c : PerfCounter) (hs : Kept Q ql s) : Kept Q ql (State.setCounter s page n c) := by
  unfold State.setCounter
  grind -ring -linarith [kept_intro, of_kept]

theorem kept_execCounterClearWrite (req : Requester) (page : Nat) (n : Nat) (data : Word) (s : State) (hs : Kept Q ql s) : ∀ out, execCounterClearWrite req page n data s = .next out → Kept Q ql out := by
  intro out e
  unfold execCounterClearWrite at e
  grind -ring -linarith [kept_State_guarded, kept_State_setCounter, kept_intro, of_kept]

theorem kept_execCounterOverflowClear (req : Requester) (page : Nat) (n : Nat) (data : Word) (s : State) (hs : Kept Q ql s) : ∀ out, execCounterOverflowClear req page n data s = .next out → Kept Q ql out := by
  intro out e
  unfold execCounterOverflowClear at e
  grind -ring -linarith [kept_State_guarded, kept_State_setCounter, kept_intro, of_kept]

theorem kept_execCounterSelectWrite (req : Requester) (page : Nat) (n : Nat) (data : Word) (s : State) (hs : Kept Q ql s) : ∀ out, execCounterSelectWrite req page n data s = .next out → Kept Q ql out := by
  intro out e
  unfold execCounterSelectWrite at e
  grind -ring -linarith [kept_State_guarded, kept_State_setCounter, kept_intro, of_kept]

theorem kept_execCounterValueLoRead (page : Nat) (n : Nat) (s : State) (hs : Kept Q ql s) : ∀ out, execCounterValueLoRead page n s = .next out → Kept Q ql out := by
  intro out e
  unfold execCounterValueLoRead at e
  grind -ring -linarith [kept_State_emit, kept_State_fresh, kept_State_setCounter, kept_intro, of_kept]

theorem kept_execSampleRecordClose (sampler : Nat) (info : SampleInfo) (s : State) (hs : Kept Q ql s) : ∀ out, execSampleRecordClose sampler info s = .next out → Kept Q ql out := by
  intro out e
  unfold execSampleRecordClose at e
  grind -ring -linarith [kept_State_setSampler, kept_State_closeInto, kept_intro, of_kept]

theorem kept_execSamplerConfigInstruction (c : AdminCmd) (s : State) (hs : Kept Q ql s) : ∀ out, execSamplerConfigInstruction c s = .next out → Kept Q ql out := by
  intro out e
  unfold execSamplerConfigInstruction at e
  grind -ring -linarith [kept_State_adminRun, kept_State_configSampler, kept_intro, of_kept]

theorem kept_execSamplerConfigRequest (c : AdminCmd) (s : State) (hs : Kept Q ql s) : ∀ out, execSamplerConfigRequest c s = .next out → Kept Q ql out := by
  intro out e
  unfold execSamplerConfigRequest at e
  grind -ring -linarith [kept_State_adminRun, kept_State_configSampler, kept_intro, of_kept]

theorem kept_execSamplerPopRead (sampler : Nat) (s : State) (hs : Kept Q ql s) : ∀ out, execSamplerPopRead sampler s = .next out → Kept Q ql out := by
  intro out e
  unfold execSamplerPopRead at e
  grind -ring -linarith [kept_State_emit, kept_State_setSampler, kept_intro, of_kept]

end Sys2Proof.Machine
end

