-- ==== Sys2Proof/Laws/KeptRx.lean ====
section
/-!
SUPPORT. What the operations of Rx keep (KeptBase.lean): the queue, a canonical register file, and a canonical Loft; a lemma that holds for every Q says the operation writes nothing in the Loft.
-/

set_option linter.unusedTactic false
set_option linter.unreachableTactic false
set_option linter.unusedVariables false

namespace Sys2Proof.Machine

variable {Q : KMap Byte → KMap Bool → Prop} {ql : List Instr}

theorem kept_State_addEchoes (s : State) (peer : Nat) (x2 : List (Nat × Nat × Nat)) (hs : Kept Q ql s) : Kept Q ql (State.addEchoes s peer x2) := by
  induction x2 generalizing s peer with
  | nil => grind -ring -linarith [State.addEchoes, kept_State_setPp, kept_intro, of_kept]
  | cons x l ih => grind -ring -linarith [State.addEchoes, kept_State_setPp, kept_intro, of_kept]

theorem kept_State_countPacket (s : State) (f : Frame) (hs : Kept Q ql s) : Kept Q ql (State.countPacket s f) := by
  unfold State.countPacket
  grind -ring -linarith [kept_State_setQp, kept_State_bump, kept_State_setPp, kept_State_ppUp, kept_intro, of_kept]

theorem kept_State_duplicate (s : State) (n : Nat) (t : Trigger) (hs : Kept Q ql s) : Kept Q ql (State.duplicate s n t) := by
  unfold State.duplicate
  grind -ring -linarith [kept_State_setQp, kept_State_bump, kept_State_owe, kept_intro, of_kept]

theorem kept_State_refuse (s : State) (n : Nat) (t : Trigger) (syn : Nat) (detail : Nat) (retry : Nat) (msn : Option Nat) (hs : Kept Q ql s) : Kept Q ql (State.refuse s n t syn detail retry msn) := by
  unfold State.refuse
  grind -ring -linarith [kept_State_failMessage, kept_State_owe, kept_State_notFresh, kept_intro, of_kept]

theorem kept_State_touchQpc (s : State) (n : Nat) (hs : Kept Q ql s) : Kept Q ql (State.touchQpc s n) := by
  unfold State.touchQpc
  grind -ring -linarith [kept_State_setWays, kept_intro, of_kept]

theorem kept_State_hitQpc (s : State) (n : Nat) (e : QpcEntry) (hs : Kept Q ql s) : Kept Q ql (State.hitQpc s n e) := by
  unfold State.hitQpc
  grind -ring -linarith [kept_State_setWays, kept_State_kick, kept_State_bump, kept_State_touchQpc, kept_intro, of_kept]

theorem kept_State_sampleRequest (s : State) (f : Frame) (hs : Kept Q ql s) : Kept Q ql (State.sampleRequest s f) := by
  unfold State.sampleRequest
  grind -ring -linarith [kept_State_samplePacket, kept_intro, of_kept]

theorem kept_State_noteArrival (s : State) (n : Nat) (m : Nat) (hs : Kept Q ql s) : Kept Q ql (State.noteArrival s n m) := by
  unfold State.noteArrival
  grind -ring -linarith [kept_State_setQp, kept_State_setTracker, kept_intro, of_kept]

theorem kept_State_noteFault (s : State) (tenant : Nat) (handle : Nat) (cause : Nat) (hs : Kept Q ql s) : Kept Q ql (State.noteFault s tenant handle cause) := by
  unfold State.noteFault
  grind -ring -linarith [kept_State_setNum, kept_State_fire, kept_State_bump, kept_intro, of_kept]

theorem kept_State_received (s : State) (n : Nat) (t : Trigger) (ackReq : Bool) (hs : Kept Q ql s) : Kept Q ql (State.received s n t ackReq) := by
  unfold State.received
  grind -ring -linarith [kept_State_setQp, kept_State_owe, kept_State_receive, kept_intro, of_kept]

theorem kept_State_takeRead (s : State) (n : Nat) (h : Pxt) (b : List Byte) (t : Trigger) (hs : Kept Q ql s) : Kept Q ql (State.takeRead s n h b t) := by
  unfold State.takeRead
  grind -ring -linarith [kept_State_tallyAdd, kept_State_newTracker, kept_State_received, kept_State_startRead, kept_intro, of_kept]

theorem kept_State_rxRead (s : State) (n : Nat) (h : Pxt) (b : List Byte) (t : Trigger) (hs : Kept Q ql s) : Kept Q ql (State.rxRead s n h b t) := by
  unfold State.rxRead
  grind -ring -linarith [kept_State_outageRetry, kept_State_refuse, kept_State_noteFault, kept_State_takeRead, kept_intro, of_kept]

theorem kept_State_takeWrite (s : State) (n : Nat) (h : Pxt) (b : List Byte) (t : Trigger) (hs : Kept CanonLoft ql s) : Kept CanonLoft ql (State.takeWrite s n h b t) := by
  unfold State.takeWrite
  grind -ring -linarith [kept_State_chargeWrites, kept_State_newTracker, kept_intro, of_kept]

theorem kept_State_rxWrite (s : State) (n : Nat) (h : Pxt) (b : List Byte) (t : Trigger) (hs : Kept CanonLoft ql s) : Kept CanonLoft ql (State.rxWrite s n h b t) := by
  unfold State.rxWrite
  try dsimp only
  repeat' (first | with_reducible assumption | with_reducible apply kept_State_admitModes | with_reducible apply kept_State_admitRegions | with_reducible apply kept_State_refuse | with_reducible apply kept_State_noteFault | with_reducible apply kept_State_takeWrite | split | intro _ | (apply kept_intro; dsimp only; apply of_kept))
  all_goals grind -ring -linarith [kept_State_admitModes, kept_State_admitRegions, kept_State_refuse, kept_State_noteFault, kept_State_takeWrite, kept_intro, of_kept]

theorem kept_State_takePsn (s : State) (n : Nat) (psn : Nat) (needs : Bool) (hs : Kept Q ql s) : Kept Q ql (State.takePsn s n psn needs) := by
  unfold State.takePsn
  grind -ring -linarith [kept_State_setQp, kept_State_showSlots, kept_intro, of_kept]

theorem kept_State_rxRequest (s : State) (n : Nat) (h : Pxt) (b : List Byte) (t : Trigger) (hs : Kept CanonLoft ql s) : Kept CanonLoft ql (State.rxRequest s n h b t) := by
  unfold State.rxRequest
  try dsimp only
  repeat' (first | with_reducible assumption | with_reducible apply kept_State_bump | with_reducible apply kept_State_fireLimited | with_reducible apply kept_State_owe | with_reducible apply kept_State_duplicate | with_reducible apply kept_State_noteArrival | with_reducible apply kept_State_rxRead | with_reducible apply kept_State_rxWrite | with_reducible apply kept_State_takePsn | split | intro _ | (apply kept_intro; dsimp only; apply of_kept))

theorem kept_State_serveFrame (s : State) (f : Frame) (delay : Nat) (t : Trigger) (hs : Kept CanonLoft ql s) : Kept CanonLoft ql (State.serveFrame s f delay t) := by
  unfold State.serveFrame
  grind -ring -linarith [kept_State_setPp, kept_State_sendCtrl, kept_State_owe, kept_State_addEchoes, kept_State_refuse, kept_State_rxRequest, kept_intro, of_kept]

theorem kept_State_rxPacket (s : State) (f : Frame) (delay : Nat) (hs : Kept CanonLoft ql s) : Kept CanonLoft ql (State.rxPacket s f delay) := by
  unfold State.rxPacket
  grind -ring -linarith (splits := 20) (gen := 16) (ematch := 12) [kept_State_bump, kept_State_countPacket, kept_State_sampleRequest, kept_State_serveFrame, kept_intro, of_kept]

theorem kept_State_missDrop (s : State) (p : Nat) (hs : Kept Q ql s) : Kept Q ql (State.missDrop s p) := by
  unfold State.missDrop
  grind -ring -linarith [kept_State_bump, kept_State_fireLimited, kept_intro, of_kept]

theorem kept_State_setMissq (s : State) (p : Nat) (l : List Waiting) (hs : Kept Q ql s) : Kept Q ql (State.setMissq s p l) := by
  unfold State.setMissq
  grind -ring -linarith [kept_State_setNum, kept_intro, of_kept]

theorem kept_State_waitMiss (s : State) (f : Frame) (delay : Nat) (n : Nat) (hs : Kept Q ql s) : Kept Q ql (State.waitMiss s f delay n) := by
  unfold State.waitMiss
  grind -ring -linarith [kept_State_fetchQpc, kept_State_missDrop, kept_State_setMissq, kept_intro, of_kept]

theorem kept_State_lookupQp (s : State) (f : Frame) (delay : Nat) (hs : Kept CanonLoft ql s) : Kept CanonLoft ql (State.lookupQp s f delay) := by
  unfold State.lookupQp
  grind -ring -linarith [kept_State_bump, kept_State_hitQpc, kept_State_rxPacket, kept_State_waitMiss, kept_intro, of_kept]

theorem kept_State_noteLines (s : State) (object : Nat) (i : Nat) (off : Nat) (n : Nat) (hs : Kept Q ql s) : Kept Q ql (State.noteLines s object i off n) := by
  unfold State.noteLines
  grind -ring -linarith [kept_foldl, kept_intro, of_kept]

theorem kept_State_placePiece (s : State) (p : Placement) (i : Nat) (off : Nat) (bs : List Byte) (map : Nat) (hs : Kept CanonLoft ql s) : Kept CanonLoft ql (State.placePiece s p i off bs map).2.2 := by
  unfold State.placePiece
  grind -ring -linarith [kept_State_placeIn, kept_State_noteLines, kept_intro, of_kept]

theorem kept_State_placePieces (s : State) (p : Placement) (bs : List Byte) (map : Nat) (x4 : List (Nat × Nat × Nat)) (hs : Kept CanonLoft ql s) : Kept CanonLoft ql (State.placePieces s p bs map x4).2.2 := by
  induction x4 generalizing s p bs map with
  | nil => grind -ring -linarith [State.placePieces, kept_State_placePiece, kept_intro, of_kept]
  | cons x l ih => grind -ring -linarith [State.placePieces, kept_State_placePiece, kept_intro, of_kept]

theorem kept_State_placePacket (s : State) (p : Placement) (data : List Byte) (hs : Kept CanonLoft ql s) : Kept CanonLoft ql (State.placePacket s p data) := by
  unfold State.placePacket
  grind -ring -linarith [kept_State_setQp, kept_State_sendSeq, kept_State_tallyAdd, kept_State_setTracker, kept_State_judge, kept_State_received, kept_State_placePieces, kept_intro, of_kept]

theorem kept_State_proceed (s : State) (x1 : List Waiting) (hs : Kept CanonLoft ql s) : Kept CanonLoft ql (State.proceed s x1) := by
  induction x1 generalizing s with
  | nil => grind -ring -linarith [State.proceed, kept_State_rxPacket, kept_intro, of_kept]
  | cons x l ih => grind -ring -linarith [State.proceed, kept_State_rxPacket, kept_intro, of_kept]

theorem kept_State_rxFrame (s : State) (f : Frame) (delay : Nat) (hs : Kept CanonLoft ql s) : Kept CanonLoft ql (State.rxFrame s f delay) := by
  unfold State.rxFrame
  grind -ring -linarith [kept_State_bump, kept_State_fireLimited, kept_State_settleAll, kept_State_lookupQp, kept_intro, of_kept]

theorem kept_State_sendProbe (s : State) (peer : Nat) (plane : Nat) (id : Nat) (e : Peer) (hs : Kept Q ql s) : Kept Q ql (State.sendProbe s peer plane id e) := by
  unfold State.sendProbe
  grind -ring -linarith [kept_State_bump, kept_State_setPp, kept_State_sendCtrl, kept_intro, of_kept]

theorem kept_State_takeWaiting (s : State) (n : Nat) (x2 : List Nat) (hs : Kept Q ql s) : Kept Q ql (State.takeWaiting s n x2).2 := by
  induction x2 generalizing s n with
  | nil => grind -ring -linarith [State.takeWaiting, kept_State_setMissq, kept_intro, of_kept]
  | cons x l ih => grind -ring -linarith [State.takeWaiting, kept_State_setMissq, kept_intro, of_kept]

theorem kept_execAckDelayExpire (qpn : Nat) (s : State) (hs : Kept Q ql s) : ∀ out, execAckDelayExpire qpn s = .next out → Kept Q ql out := by
  intro out e
  unfold execAckDelayExpire at e
  grind -ring -linarith [kept_State_settleAll, kept_State_owe, kept_intro, of_kept]

theorem kept_execExceptionFrameRx (kind : ExceptionKind) (f : Frame) (s : State) (hs : Kept Q ql s) : ∀ out, execExceptionFrameRx kind f s = .next out → Kept Q ql out := by
  intro out e
  unfold execExceptionFrameRx at e
  grind -ring -linarith [kept_State_emit, kept_State_fire, kept_State_bump, kept_State_setPlane, kept_intro, of_kept]

theorem kept_execMarkEchoRx (f : Frame) (s : State) (hs : Kept CanonLoft ql s) : ∀ out, execMarkEchoRx f s = .next out → Kept CanonLoft ql out := by
  intro out e
  unfold execMarkEchoRx at e
  grind -ring -linarith [kept_State_rxFrame, kept_intro, of_kept]

theorem kept_execMissqWaitExpire (plane : Nat) (s : State) (hs : Kept Q ql s) : ∀ out, execMissqWaitExpire plane s = .next out → Kept Q ql out := by
  intro out e
  unfold execMissqWaitExpire at e
  grind -ring -linarith [kept_State_missDrop, kept_State_setMissq, kept_intro, of_kept]

theorem kept_execNonPxtFrameRx (f : Frame) (s : State) (hs : Kept Q ql s) : ∀ out, execNonPxtFrameRx f s = .next out → Kept Q ql out := by
  intro out e
  unfold execNonPxtFrameRx at e
  grind -ring -linarith [kept_State_bump, kept_intro, of_kept]

theorem kept_execPacketPlacement (qpn : Nat) (psn : Nat) (s : State) (hs : Kept CanonLoft ql s) : ∀ out, execPacketPlacement qpn psn s = .next out → Kept CanonLoft ql out := by
  intro out e
  unfold execPacketPlacement at e
  cases e
  dsimp only
  repeat' (first | with_reducible assumption | with_reducible apply kept_State_fire | with_reducible apply kept_State_bump | with_reducible apply kept_State_settleAll | with_reducible apply kept_State_duplicate | with_reducible apply kept_State_notFresh | with_reducible apply kept_State_refuse | with_reducible apply kept_State_placePacket | split | intro _ | (apply kept_intro; dsimp only; apply of_kept))

theorem kept_execProbeIdleExpire (peer : Nat) (plane : Nat) (s : State) (hs : Kept Q ql s) : ∀ out, execProbeIdleExpire peer plane s = .next out → Kept Q ql out := by
  intro out e
  unfold execProbeIdleExpire at e
  grind -ring -linarith [kept_State_sendProbe, kept_intro, of_kept]

theorem kept_execProbeReplyRx (f : Frame) (s : State) (hs : Kept CanonLoft ql s) : ∀ out, execProbeReplyRx f s = .next out → Kept CanonLoft ql out := by
  intro out e
  unfold execProbeReplyRx at e
  grind -ring -linarith [kept_State_rxFrame, kept_intro, of_kept]

theorem kept_execProbeRx (f : Frame) (delay : Nat) (s : State) (hs : Kept CanonLoft ql s) : ∀ out, execProbeRx f delay s = .next out → Kept CanonLoft ql out := by
  intro out e
  unfold execProbeRx at e
  grind -ring -linarith [kept_State_rxFrame, kept_intro, of_kept]

theorem kept_execProbeTimeoutExpire (peer : Nat) (plane : Nat) (s : State) (hs : Kept Q ql s) : ∀ out, execProbeTimeoutExpire peer plane s = .next out → Kept Q ql out := by
  intro out e
  unfold execProbeTimeoutExpire at e
  grind -ring -linarith [kept_State_bump, kept_State_setPp, kept_State_ppDown, kept_State_sendProbe, kept_intro, of_kept]

theorem kept_execPxtReadRx (f : Frame) (s : State) (hs : Kept CanonLoft ql s) : ∀ out, execPxtReadRx f s = .next out → Kept CanonLoft ql out := by
  intro out e
  unfold execPxtReadRx at e
  grind -ring -linarith [kept_State_rxFrame, kept_intro, of_kept]

theorem kept_execPxtWriteRx (f : Frame) (s : State) (hs : Kept CanonLoft ql s) : ∀ out, execPxtWriteRx f s = .next out → Kept CanonLoft ql out := by
  intro out e
  unfold execPxtWriteRx at e
  grind -ring -linarith [kept_State_rxFrame, kept_intro, of_kept]

theorem kept_execQpcFetchDone (qpn : Nat) (s : State) (hs : Kept CanonLoft ql s) : ∀ out, execQpcFetchDone qpn s = .next out → Kept CanonLoft ql out := by
  intro out e
  unfold execQpcFetchDone at e
  grind -ring -linarith (splits := 20) (gen := 16) (ematch := 12) [kept_State_setWays, kept_State_kick, kept_State_bump, kept_State_settleAll, kept_State_dropEntry, kept_State_proceed, kept_State_takeWaiting, kept_intro, of_kept]

theorem kept_execQpcWritebackDone (qpn : Nat) (s : State) (hs : Kept Q ql s) : ∀ out, execQpcWritebackDone qpn s = .next out → Kept Q ql out := by
  intro out e
  unfold execQpcWritebackDone at e
  grind -ring -linarith [kept_State_dropEntry, kept_intro, of_kept]

theorem kept_execTrackerTimeout (qpn : Nat) (msn : Nat) (s : State) (hs : Kept Q ql s) : ∀ out, execTrackerTimeout qpn msn s = .next out → Kept Q ql out := by
  intro out e
  unfold execTrackerTimeout at e
  grind -ring -linarith [kept_State_fire, kept_State_failMessage, kept_State_bump, kept_State_settleAll, kept_intro, of_kept]

end Sys2Proof.Machine
end

