-- ==== Sys2Proof/Laws/KeptLarder.lean ====
section
/-!
SUPPORT. What the operations of Larder keep (KeptBase.lean): the queue, a canonical register file, and a canonical Loft; a lemma that holds for every Q says the operation writes nothing in the Loft.
-/

set_option linter.unusedTactic false
set_option linter.unreachableTactic false
set_option linter.unusedVariables false

namespace Sys2Proof.Machine

variable {Q : KMap Byte → KMap Bool → Prop} {ql : List Instr}

theorem kept_State_poisonPages (s : State) (x1 : List Nat) (hs : Kept CanonLoft ql s) : Kept CanonLoft ql (State.poisonPages s x1) := by
  induction x1 generalizing s with
  | nil => grind -ring -linarith [State.poisonPages, kept_State_logPage, kept_State_countPage, kept_State_poisonLines, kept_State_zeroPageBytes, kept_State_sendSeq, kept_foldl, kept_intro, of_kept]
  | cons x l ih => grind -ring -linarith [State.poisonPages, kept_State_logPage, kept_State_countPage, kept_State_poisonLines, kept_State_zeroPageBytes, kept_State_sendSeq, kept_foldl, kept_intro, of_kept]

theorem kept_State_failStream (s : State) (x : Stream) (status : Nat) (hs : Kept CanonLoft ql s) : Kept CanonLoft ql (State.failStream s x status) := by
  unfold State.failStream
  grind -ring -linarith [kept_State_fire, kept_State_complete, kept_State_poisonPages, kept_intro, of_kept]

theorem kept_State_failStreams (s : State) (status : Nat) (x2 : List Stream) (hs : Kept CanonLoft ql s) : Kept CanonLoft ql (State.failStreams s status x2) := by
  induction x2 generalizing s status with
  | nil => grind -ring -linarith [State.failStreams, kept_State_failStream, kept_intro, of_kept]
  | cons x l ih => grind -ring -linarith [State.failStreams, kept_State_failStream, kept_intro, of_kept]

theorem kept_State_firstKey (s : State) (n : Nat) (hs : Kept Q ql s) : Kept Q ql (State.firstKey s n) := by
  unfold State.firstKey
  grind -ring -linarith [kept_State_drawKey, kept_State_loadSlot, kept_intro, of_kept]

theorem kept_State_reloadSlots (s : State) (hs : Kept Q ql s) : Kept Q ql (State.reloadSlots s) := by
  unfold State.reloadSlots
  grind -ring -linarith [kept_State_setNum, kept_State_setFld, kept_State_firstKey, kept_intro, of_kept]

theorem kept_State_answer (s : State) (q : LarderReq) (status : Nat) (hs : Kept Q ql s) : Kept Q ql (State.answer s q status) := by
  unfold State.answer
  grind -ring -linarith [kept_State_emit, kept_State_bump, kept_intro, of_kept]

theorem kept_State_answers (s : State) (status : Nat) (x2 : List LarderReq) (hs : Kept Q ql s) : Kept Q ql (State.answers s status x2) := by
  induction x2 generalizing s status with
  | nil => grind -ring -linarith [State.answers, kept_State_answer, kept_intro, of_kept]
  | cons x l ih => grind -ring -linarith [State.answers, kept_State_answer, kept_intro, of_kept]

theorem kept_State_showDepths (s : State) (hs : Kept Q ql s) : Kept Q ql (State.showDepths s) := by
  unfold State.showDepths
  grind -ring -linarith [kept_State_setNum, kept_intro, of_kept]

theorem kept_State_alarmD (s : State) (hs : Kept Q ql s) : Kept Q ql (State.alarmD s) := by
  unfold State.alarmD
  grind -ring -linarith [kept_State_fire, kept_State_setFld, kept_State_answers, kept_State_showDepths, kept_intro, of_kept]

theorem kept_State_markPre (s : State) (n : Nat) (hs : Kept Q ql s) : Kept Q ql (State.markPre s n) := by
  unfold State.markPre
  grind -ring -linarith [kept_intro, of_kept]

theorem kept_State_beginRewrite (s : State) (n : Nat) (key : Nat) (op : Nat) (hs : Kept Q ql s) : Kept Q ql (State.beginRewrite s n key op) := by
  unfold State.beginRewrite
  grind -ring -linarith [kept_State_setSlot, kept_State_markPre, kept_intro, of_kept]

theorem kept_State_startUnit (s : State) (e : Nat) (q : LarderReq) (hs : Kept Q ql s) : Kept Q ql (State.startUnit s e q) := by
  unfold State.startUnit
  grind -ring -linarith [kept_State_sealCount, kept_State_showDepths, kept_intro, of_kept]

theorem kept_State_dispatch (fuel : Nat) (s : State) (hs : Kept Q ql s) : Kept Q ql (State.dispatch fuel s) := by
  induction fuel generalizing s with
  | zero =>
    unfold State.dispatch
    try dsimp only
    repeat' (first | with_reducible assumption | with_reducible apply ih | with_reducible apply kept_State_bump | with_reducible apply kept_State_startUnit | split | intro _ | (apply kept_intro; dsimp only; apply of_kept))
    all_goals grind -ring -linarith [kept_State_bump, kept_State_startUnit, kept_intro, of_kept]
  | succ n ih =>
    unfold State.dispatch
    try dsimp only
    repeat' (first | with_reducible assumption | with_reducible apply ih | with_reducible apply kept_State_bump | with_reducible apply kept_State_startUnit | split | intro _ | (apply kept_intro; dsimp only; apply of_kept))
    all_goals grind -ring -linarith [kept_State_bump, kept_State_startUnit, kept_intro, of_kept]

theorem kept_State_dispatchAll (s : State) (hs : Kept Q ql s) : Kept Q ql (State.dispatchAll s) := by
  unfold State.dispatchAll
  grind -ring -linarith [kept_State_showDepths, kept_State_dispatch, kept_intro, of_kept]

theorem kept_State_losePackets (s : State) (n : Nat) (x2 : List Placement) (hs : Kept Q ql s) : Kept Q ql (State.losePackets s n x2) := by
  induction x2 generalizing s n with
  | nil => grind -ring -linarith [State.losePackets, kept_State_bump, kept_State_refuse, kept_intro, of_kept]
  | cons x l ih => grind -ring -linarith [State.losePackets, kept_State_bump, kept_State_refuse, kept_intro, of_kept]

theorem kept_State_zeroise (s : State) (n : Nat) (hs : Kept CanonLoft ql s) : Kept CanonLoft ql (State.zeroise s n).2 := by
  unfold State.zeroise
  grind -ring -linarith (splits := 20) (gen := 16) (ematch := 12) [kept_State_fire, kept_State_complete, kept_State_failStreams, kept_State_settleAll, kept_State_answers, kept_State_zeroSlot, kept_State_dispatchAll, kept_State_losePackets, kept_intro, of_kept]

theorem kept_State_noteStall (s : State) (q : LarderReq) (hs : Kept Q ql s) : Kept Q ql (State.noteStall s q) := by
  unfold State.noteStall
  grind -ring -linarith [kept_State_bump, kept_State_fireLimited, kept_intro, of_kept]

theorem kept_State_placeStream (s : State) (page : Nat) (bs : List Byte) (hs : Kept CanonLoft ql s) : Kept CanonLoft ql (State.placeStream s page bs) := by
  unfold State.placeStream
  grind -ring -linarith [kept_State_chargeWrites, kept_State_placeIn, kept_State_sendSeq, kept_foldl, kept_intro, of_kept]

theorem kept_State_retireEngine (s : State) (e : Nat) (hs : Kept Q ql s) : Kept Q ql (State.retireEngine s e) := by
  unfold State.retireEngine
  grind -ring -linarith [kept_State_fire, kept_State_retirePage, kept_intro, of_kept]

theorem kept_execSlotProbeWrite (req : Requester) (data : Word) (s : State) (hs : Kept Q ql s) : ∀ out, execSlotProbeWrite req data s = .next out → Kept Q ql out := by
  intro out e
  unfold execSlotProbeWrite at e
  grind -ring -linarith [kept_State_publish, kept_State_guarded, kept_intro, of_kept]

theorem kept_execClassDSensor (s : State) (hs : Kept CanonLoft ql s) : ∀ out, execClassDSensor s = .next out → Kept CanonLoft ql out := by
  intro out e
  unfold execClassDSensor at e
  grind -ring -linarith [kept_State_failStreams, kept_State_alarmD, kept_intro, of_kept]

theorem kept_execDrbgReinstantiate (s : State) (hs : Kept Q ql s) : ∀ out, execDrbgReinstantiate s = .next out → Kept Q ql out := by
  intro out e
  unfold execDrbgReinstantiate at e
  grind -ring -linarith [kept_State_setFld, kept_intro, of_kept]

theorem kept_execDrbgReseed (s : State) (hs : Kept Q ql s) : ∀ out, execDrbgReseed s = .next out → Kept Q ql out := by
  intro out e
  unfold execDrbgReseed at e
  grind -ring -linarith [kept_State_bump, kept_intro, of_kept]

theorem kept_execHealthTestFail (s : State) (hs : Kept Q ql s) : ∀ out, execHealthTestFail s = .next out → Kept Q ql out := by
  intro out e
  unfold execHealthTestFail at e
  grind -ring -linarith (splits := 20) (gen := 16) (ematch := 12) [kept_State_fire, kept_State_setFld, kept_State_bump, kept_State_fireLimited, kept_intro, of_kept]

theorem kept_execHwmRecordProgrammed (slot : Nat) (s : State) (hs : Kept Q ql s) : ∀ out, execHwmRecordProgrammed slot s = .next out → Kept Q ql out := by
  intro out e
  unfold execHwmRecordProgrammed at e
  grind -ring -linarith [kept_State_setSlot, kept_State_dispatchAll, kept_intro, of_kept]

theorem kept_execKeyImportEcdh (c : AdminCmd) (s : State) (hs : Kept Q ql s) : ∀ out, execKeyImportEcdh c s = .next out → Kept Q ql out := by
  intro out e
  unfold execKeyImportEcdh at e
  grind -ring -linarith [kept_State_loadSlot, kept_State_adminRun, kept_State_beginRewrite, kept_intro, of_kept]

theorem kept_execKeyImportWrapped (c : AdminCmd) (s : State) (hs : Kept Q ql s) : ∀ out, execKeyImportWrapped c s = .next out → Kept Q ql out := by
  intro out e
  unfold execKeyImportWrapped at e
  grind -ring -linarith [kept_State_loadSlot, kept_State_adminRun, kept_intro, of_kept]

theorem kept_execKeyRewrite (c : AdminCmd) (s : State) (hs : Kept Q ql s) : ∀ out, execKeyRewrite c s = .next out → Kept Q ql out := by
  intro out e
  unfold execKeyRewrite at e
  grind -ring -linarith [kept_State_adminRun, kept_State_beginRewrite, kept_intro, of_kept]

theorem kept_execKeyRewriteNewStorage (c : AdminCmd) (s : State) (hs : Kept Q ql s) : ∀ out, execKeyRewriteNewStorage c s = .next out → Kept Q ql out := by
  intro out e
  unfold execKeyRewriteNewStorage at e
  grind -ring -linarith (splits := 20) (gen := 16) (ematch := 12) [kept_State_drawKey, kept_State_loadSlot, kept_State_adminRun, kept_State_dropRef, kept_intro, of_kept]

theorem kept_execKeyZeroise (c : AdminCmd) (s : State) (hs : Kept CanonLoft ql s) : ∀ out, execKeyZeroise c s = .next out → Kept CanonLoft ql out := by
  intro out e
  unfold execKeyZeroise at e
  grind -ring -linarith [kept_State_adminRun, kept_State_zeroise, kept_intro, of_kept]

theorem kept_execLarderRequest (op : Nat) (prio : Nat) (slot : Nat) (client : Nat) (tag : Nat) (aadLen : Nat) (len : Nat) (salt : Nat) (counter : Nat) (dataRef : Nat) (s : State) (hs : Kept Q ql s) : ∀ out, execLarderRequest op prio slot client tag aadLen len salt counter dataRef s = .next out → Kept Q ql out := by
  intro out e
  unfold execLarderRequest at e
  grind -ring -linarith [kept_State_fire, kept_State_answer, kept_State_dispatchAll, kept_State_noteStall, kept_intro, of_kept]

theorem kept_execRewriteSwitch (slot : Nat) (s : State) (hs : Kept Q ql s) : ∀ out, execRewriteSwitch slot s = .next out → Kept Q ql out := by
  intro out e
  unfold execRewriteSwitch at e
  grind -ring -linarith (splits := 20) (gen := 16) (ematch := 12) [kept_State_complete, kept_State_setSlot, kept_State_drawSalt, kept_State_dispatchAll, kept_intro, of_kept]

theorem kept_execSealUnitDone (engine : Nat) (matched : Bool) (tagOk : Bool) (s : State) (hs : Kept CanonLoft ql s) : ∀ out, execSealUnitDone engine matched tagOk s = .next out → Kept CanonLoft ql out := by
  intro out e
  unfold execSealUnitDone at e
  grind -ring -linarith (splits := 20) (gen := 16) (ematch := 12) [kept_State_fire, kept_State_bump, kept_State_fireLimited, kept_State_set64, kept_State_failStreams, kept_State_answer, kept_State_alarmD, kept_State_dispatchAll, kept_State_retireEngine, kept_intro, of_kept]

theorem kept_execStreamOpen (c : AdminCmd) (s : State) (hs : Kept Q ql s) : ∀ out, execStreamOpen c s = .next out → Kept Q ql out := by
  intro out e
  unfold execStreamOpen at e
  grind -ring -linarith [kept_State_adminRun, kept_foldl, kept_intro, of_kept]

theorem kept_execStreamSegDone (op : Nat) (ciphertext : List Byte) (xferOk : Bool) (s : State) (hs : Kept CanonLoft ql s) : ∀ out, execStreamSegDone op ciphertext xferOk s = .next out → Kept CanonLoft ql out := by
  intro out e
  unfold execStreamSegDone at e
  grind -ring -linarith (splits := 20) (gen := 16) (ematch := 12) [kept_State_complete, kept_State_bump, kept_State_failStream, kept_State_tallyAdd, kept_State_placeStream, kept_intro, of_kept]

end Sys2Proof.Machine
end

