-- ==== Sys2Proof/Laws/KeptWindows.lean ====
section
/-!
SUPPORT. What the operations of Windows keep (KeptBase.lean): the queue, a canonical register file, and a canonical Loft; a lemma that holds for every Q says the operation writes nothing in the Loft.
-/

set_option linter.unusedTactic false
set_option linter.unreachableTactic false
set_option linter.unusedVariables false

namespace Sys2Proof.Machine

variable {Q : KMap Byte → KMap Bool → Prop} {ql : List Instr}

theorem kept_State_transInvalidate (s : State) (p : Nat → Nat → Bool) (hs : Kept Q ql s) : Kept Q ql (State.transInvalidate s p) := by
  unfold State.transInvalidate
  grind -ring -linarith [kept_intro, of_kept]

theorem kept_State_makeTenant (s : State) (t : Nat) (quota : Nat) (implied : Bool) (hs : Kept Q ql s) : ∀ out, State.makeTenant s t quota implied = some out → Kept Q ql out := by
  intro out e
  unfold State.makeTenant at e
  grind -ring -linarith (splits := 20) (gen := 16) (ematch := 12) [kept_State_drawKey, kept_State_loadSlot, kept_State_tallyStart, kept_intro, of_kept]

theorem kept_State_lockLost (s : State) (idx : Nat) (cause : Nat) (hs : Kept Q ql s) : Kept Q ql (State.lockLost s idx cause) := by
  unfold State.lockLost
  grind -ring -linarith [kept_State_fire, kept_State_publish, kept_intro, of_kept]

theorem kept_State_setCache (s : State) (l : List CachedWindow) (hs : Kept Q ql s) : Kept Q ql (State.setCache s l) := by
  unfold State.setCache
  grind -ring -linarith [kept_State_setReg, kept_intro, of_kept]

theorem kept_State_freeCached (s : State) (idx : Nat) (cause : Nat) (hs : Kept Q ql s) : Kept Q ql (State.freeCached s idx cause) := by
  unfold State.freeCached
  grind -ring -linarith [kept_State_lockLost, kept_State_setCache, kept_intro, of_kept]

theorem kept_State_claim (s : State) (object : Nat) (gather : Bool) (x3 : List (Nat × Nat)) (hs : Kept Q ql s) : Kept Q ql (State.claim s object gather x3) := by
  induction x3 generalizing s object gather with
  | nil => grind -ring -linarith [State.claim, kept_State_setDirty, kept_State_changeMap, kept_intro, of_kept]
  | cons x l ih => grind -ring -linarith [State.claim, kept_State_setDirty, kept_State_changeMap, kept_intro, of_kept]

theorem kept_State_endDestroy (s : State) (id : Nat) (hs : Kept Q ql s) : Kept Q ql (State.endDestroy s id) := by
  unfold State.endDestroy
  grind -ring -linarith [kept_State_mirrorMeta, kept_State_dropRef, kept_State_setObject, kept_intro, of_kept]

theorem kept_State_freeCachedAll (s : State) (cause : Nat) (x2 : List Nat) (hs : Kept Q ql s) : Kept Q ql (State.freeCachedAll s cause x2) := by
  induction x2 generalizing s cause with
  | nil => grind -ring -linarith [State.freeCachedAll, kept_State_freeCached, kept_intro, of_kept]
  | cons x l ih => grind -ring -linarith [State.freeCachedAll, kept_State_freeCached, kept_intro, of_kept]

theorem kept_State_install (s : State) (idx : Nat) (hs : Kept Q ql s) : Kept Q ql (State.install s idx) := by
  unfold State.install
  grind -ring -linarith [kept_State_setCache, kept_intro, of_kept]

theorem kept_State_makeObject (s : State) (id : Nat) (owner : Nat) (base : Nat) (n : Nat) (readOnly : Bool) (gather : Bool) (single : Bool) (pages : List (Nat × Nat)) (hs : Kept Q ql s) : Kept Q ql (State.makeObject s id owner base n readOnly gather single pages) := by
  unfold State.makeObject
  grind -ring -linarith [kept_State_setObject, kept_State_claim, kept_intro, of_kept]

theorem kept_State_makeWindow (s : State) (idx : Nat) (tenant : Nat) (object : Nat) (rights : Nat) (first : Nat) (n : Nat) (hs : Kept Q ql s) : Kept Q ql (State.makeWindow s idx tenant object rights first n) := by
  unfold State.makeWindow
  grind -ring -linarith [kept_State_setObject, kept_State_setWindow, kept_intro, of_kept]

theorem kept_State_touchCache (s : State) (idx : Nat) (hs : Kept Q ql s) : Kept Q ql (State.touchCache s idx) := by
  unfold State.touchCache
  grind -ring -linarith [kept_intro, of_kept]

theorem kept_State_transInstall (s : State) (object : Nat) (page : Nat) (hs : Kept Q ql s) : Kept Q ql (State.transInstall s object page) := by
  unfold State.transInstall
  grind -ring -linarith [kept_State_fresh, kept_intro, of_kept]

theorem kept_State_translate (s : State) (object : Nat) (page : Nat) (hs : Kept Q ql s) : Kept Q ql (State.translate s object page) := by
  unfold State.translate
  grind -ring -linarith [kept_intro, of_kept]

theorem kept_execCacheInvalidate (c : AdminCmd) (s : State) (hs : Kept Q ql s) : ∀ out, execCacheInvalidate c s = .next out → Kept Q ql out := by
  intro out e
  unfold execCacheInvalidate at e
  grind -ring -linarith [kept_State_adminRun, kept_State_transInvalidate, kept_State_freeCachedAll, kept_intro, of_kept]

theorem kept_execHintLock (c : AdminCmd) (s : State) (hs : Kept Q ql s) : ∀ out, execHintLock c s = .next out → Kept Q ql out := by
  intro out e
  unfold execHintLock at e
  grind -ring -linarith [kept_State_adminRun, kept_State_setCache, kept_intro, of_kept]

theorem kept_execHintPinClear (c : AdminCmd) (s : State) (hs : Kept Q ql s) : ∀ out, execHintPinClear c s = .next out → Kept Q ql out := by
  intro out e
  unfold execHintPinClear at e
  grind -ring -linarith [kept_State_mirrorMeta, kept_State_adminRun, kept_State_afterMirror, kept_State_setWindow, kept_intro, of_kept]

theorem kept_execHintPinUp (c : AdminCmd) (s : State) (hs : Kept Q ql s) : ∀ out, execHintPinUp c s = .next out → Kept Q ql out := by
  intro out e
  unfold execHintPinUp at e
  grind -ring -linarith [kept_State_mirrorMeta, kept_State_adminRun, kept_State_afterMirror, kept_State_setWindow, kept_intro, of_kept]

theorem kept_execHintPreload (c : AdminCmd) (s : State) (hs : Kept Q ql s) : ∀ out, execHintPreload c s = .next out → Kept Q ql out := by
  intro out e
  unfold execHintPreload at e
  grind -ring -linarith [kept_State_adminRun, kept_State_touchCache, kept_intro, of_kept]

theorem kept_execHintUnlock (c : AdminCmd) (s : State) (hs : Kept Q ql s) : ∀ out, execHintUnlock c s = .next out → Kept Q ql out := by
  intro out e
  unfold execHintUnlock at e
  grind -ring -linarith [kept_State_adminRun, kept_State_setCache, kept_intro, of_kept]

theorem kept_execMoverZeroFillDone (page : Nat) (s : State) (hs : Kept CanonLoft ql s) : ∀ out, execMoverZeroFillDone page s = .next out → Kept CanonLoft ql out := by
  intro out e
  unfold execMoverZeroFillDone at e
  grind -ring -linarith [kept_State_changeMap, kept_State_countPage, kept_State_zeroPageBytes, kept_State_mirrorMeta, kept_State_endDestroy, kept_intro, of_kept]

theorem kept_execObjectAlias (c : AdminCmd) (s : State) (hs : Kept Q ql s) : ∀ out, execObjectAlias c s = .next out → Kept Q ql out := by
  intro out e
  unfold execObjectAlias at e
  grind -ring -linarith [kept_State_mirrorMeta, kept_State_adminRun, kept_State_afterMirror, kept_State_makeWindow, kept_intro, of_kept]

theorem kept_execObjectCreate (c : AdminCmd) (s : State) (hs : Kept Q ql s) : ∀ out, execObjectCreate c s = .next out → Kept Q ql out := by
  intro out e
  unfold execObjectCreate at e
  grind -ring -linarith [kept_State_mirrorMeta, kept_State_adminRun, kept_State_afterMirror, kept_State_makeObject, kept_intro, of_kept]

theorem kept_execTenantCreate (c : AdminCmd) (s : State) (hs : Kept Q ql s) : ∀ out, execTenantCreate c s = .next out → Kept Q ql out := by
  intro out e
  unfold execTenantCreate at e
  cases e
  apply kept_State_adminRun _ _ _ _ hs
  intro op s hs
  split
  · exact hs
  split
  · split
    · exact kept_with_win _ hs
    · exact hs
  · split
    · exact hs
    split
    · exact hs
    split
    · exact hs
    · exact kept_State_makeTenant _ _ _ _ hs _ (by assumption)

theorem kept_execTranslationFillDone (object : Nat) (page : Nat) (s : State) (hs : Kept Q ql s) : ∀ out, execTranslationFillDone object page s = .next out → Kept Q ql out := by
  intro out e
  unfold execTranslationFillDone at e
  grind -ring -linarith [kept_State_bump, kept_State_transInstall, kept_intro, of_kept]

theorem kept_execWindowCacheFillDone (idx : Nat) (s : State) (hs : Kept Q ql s) : ∀ out, execWindowCacheFillDone idx s = .next out → Kept Q ql out := by
  intro out e
  unfold execWindowCacheFillDone at e
  cases e
  split
  · exact hs
  · rename_i f _
    dsimp only
    have h : Kept Q ql { s with win.fills := s.win.fills.eraseP fun x => x.idx == idx } := kept_with_win _ hs
    split
    · have h' := kept_State_bump _ pTC 0x058 1 h
      split
      · exact kept_State_complete _ _ _ h'
      split
      · exact kept_State_complete _ _ _ h'
      split
      · exact kept_State_complete _ _ _ h'
      · exact kept_with_win _ h'
    · apply kept_State_complete
      split
      · exact kept_State_touchCache _ _ h
      · exact kept_State_install _ _ h

theorem kept_execWindowCreate (c : AdminCmd) (s : State) (hs : Kept Q ql s) : ∀ out, execWindowCreate c s = .next out → Kept Q ql out := by
  intro out e
  unfold execWindowCreate at e
  grind -ring -linarith (splits := 20) (gen := 16) (ematch := 12) [kept_State_mirrorMeta, kept_State_adminRun, kept_State_afterMirror, kept_State_makeObject, kept_State_makeWindow, kept_intro, of_kept]

theorem kept_execWindowModify (c : AdminCmd) (s : State) (hs : Kept Q ql s) : ∀ out, execWindowModify c s = .next out → Kept Q ql out := by
  intro out e
  unfold execWindowModify at e
  grind -ring -linarith [kept_State_mirrorMeta, kept_State_adminRun, kept_State_afterMirror, kept_State_freeCached, kept_State_setWindow, kept_intro, of_kept]

end Sys2Proof.Machine
end

