-- ==== Sys2Proof/Laws/KeptMigrate.lean ====
section
/-!
SUPPORT. What the operations of Migrate keep (KeptBase.lean): the queue, a canonical register file, and a canonical Loft; a lemma that holds for every Q says the operation writes nothing in the Loft.
-/

set_option linter.unusedTactic false
set_option linter.unreachableTactic false
set_option linter.unusedVariables false

namespace Sys2Proof.Machine

variable {Q : KMap Byte → KMap Bool → Prop} {ql : List Instr}

theorem kept_State_setLocks (s : State) (l : KMap Nat) (hs : Kept Q ql s) : Kept Q ql (State.setLocks s l) := by
  unfold State.setLocks
  grind -ring -linarith [kept_State_setNum, kept_intro, of_kept]

theorem kept_State_dropPage (s : State) (m : Migration) (hs : Kept Q ql s) : Kept Q ql (State.dropPage s m) := by
  unfold State.dropPage
  grind -ring -linarith [kept_State_mirrorMeta, kept_State_releasePage, kept_State_setLocks, kept_intro, of_kept]

theorem kept_State_endMigration (s : State) (m : Migration) (a : Answer) (hs : Kept Q ql s) : Kept Q ql (State.endMigration s m a) := by
  unfold State.endMigration
  grind -ring -linarith [kept_State_complete, kept_State_dropPage, kept_intro, of_kept]

theorem kept_State_endMigrations (s : State) (f : Migration → Answer) (x2 : List Migration) (hs : Kept Q ql s) : Kept Q ql (State.endMigrations s f x2) := by
  induction x2 generalizing s with
  | nil => grind -ring -linarith [State.endMigrations, kept_State_endMigration, kept_intro, of_kept]
  | cons x l ih => grind -ring -linarith [State.endMigrations, kept_State_endMigration, kept_intro, of_kept]

theorem kept_State_loseMigrations (s : State) (hs : Kept Q ql s) : Kept Q ql (State.loseMigrations s) := by
  unfold State.loseMigrations
  grind -ring -linarith [kept_State_endMigrations, kept_intro, of_kept]

theorem kept_State_setMigration (s : State) (m : Migration) (hs : Kept Q ql s) : Kept Q ql (State.setMigration s m) := by
  unfold State.setMigration
  grind -ring -linarith [kept_intro, of_kept]

theorem kept_State_beginPage (s : State) (m : Migration) (i : Nat) (dest : Nat) (hs : Kept CanonLoft ql s) : Kept CanonLoft ql (State.beginPage s m i dest) := by
  unfold State.beginPage
  grind -ring -linarith [kept_State_changeMap, kept_State_chargeWrites, kept_State_mirrorMeta, kept_State_setLocks, kept_State_setMigration, kept_intro, of_kept]

theorem kept_State_copyRanges (s : State) (dest : Nat) (d : KMap Byte) (new : Bool) (x4 : List (Nat × Nat)) (hs : Kept CanonLoft ql s) : Kept CanonLoft ql (State.copyRanges s dest d new x4) := by
  induction x4 generalizing s dest d new with
  | nil => grind -ring -linarith [State.copyRanges, kept_State_placeIn, kept_State_sendSeq, kept_intro, of_kept]
  | cons x l ih => grind -ring -linarith [State.copyRanges, kept_State_placeIn, kept_State_sendSeq, kept_intro, of_kept]

theorem kept_State_stopMigration (s : State) (object : Nat) (hs : Kept Q ql s) : Kept Q ql (State.stopMigration s object) := by
  unfold State.stopMigration
  grind -ring -linarith [kept_State_endMigrations, kept_intro, of_kept]

theorem kept_State_regionLeft (s : State) (r : Nat) (hs : Kept Q ql s) : Kept Q ql (State.regionLeft s r).2 := by
  unfold State.regionLeft
  grind -ring -linarith [kept_State_outageRetry, kept_intro, of_kept]

theorem kept_State_migCheck (s : State) (m : Migration) (i : Nat) (dest : Nat) (hs : Kept Q ql s) : Kept Q ql (State.migCheck s m i dest).2 := by
  unfold State.migCheck
  try dsimp only
  repeat' (first | with_reducible assumption | with_reducible apply kept_State_fireLimited | with_reducible apply kept_State_regionLeft | split | intro _ | (apply kept_intro; dsimp only; apply of_kept))
  all_goals grind -ring -linarith [kept_State_fireLimited, kept_State_regionLeft, kept_intro, of_kept]

theorem kept_State_nextPage (s : State) (op : Nat) (hs : Kept CanonLoft ql s) : Kept CanonLoft ql (State.nextPage s op) := by
  unfold State.nextPage
  grind -ring -linarith [kept_State_endMigration, kept_State_beginPage, kept_State_migCheck, kept_intro, of_kept]

theorem kept_State_migrate (s : State) (c : AdminCmd) (op : Nat) (demote : Bool) (hs : Kept CanonLoft ql s) : Kept CanonLoft ql (State.migrate s c op demote).1 := by
  unfold State.migrate
  grind -ring -linarith [kept_State_nextPage, kept_intro, of_kept]

theorem kept_State_sendSwitch (s : State) (m : Migration) (i : Nat) (dest : Nat) (hs : Kept Q ql s) : Kept Q ql (State.sendSwitch s m i dest) := by
  unfold State.sendSwitch
  grind -ring -linarith [kept_State_mirrorMeta, kept_State_setMigration, kept_intro, of_kept]

theorem kept_execMigrateCopyRoundDone (op : Nat) (s : State) (hs : Kept CanonLoft ql s) : ∀ out, execMigrateCopyRoundDone op s = .next out → Kept CanonLoft ql out := by
  intro out e
  unfold execMigrateCopyRoundDone at e
  cases e
  dsimp only
  repeat' (first | with_reducible assumption | with_reducible apply kept_State_endMigration | with_reducible apply kept_State_setMigration | with_reducible apply kept_State_copyRanges | with_reducible apply kept_State_nextPage | with_reducible apply kept_State_sendSwitch | split | intro _ | (apply kept_intro; dsimp only; apply of_kept))
  all_goals grind -ring -linarith [kept_State_endMigration, kept_State_setMigration, kept_State_copyRanges, kept_State_nextPage, kept_State_sendSwitch, kept_intro, of_kept]

theorem kept_execMigrateDemote (c : AdminCmd) (s : State) (hs : Kept CanonLoft ql s) : ∀ out, execMigrateDemote c s = .next out → Kept CanonLoft ql out := by
  intro out e
  unfold execMigrateDemote at e
  grind -ring -linarith [kept_State_adminRun, kept_State_migrate, kept_intro, of_kept]

theorem kept_execMigratePromote (c : AdminCmd) (s : State) (hs : Kept CanonLoft ql s) : ∀ out, execMigratePromote c s = .next out → Kept CanonLoft ql out := by
  intro out e
  unfold execMigratePromote at e
  grind -ring -linarith [kept_State_adminRun, kept_State_migrate, kept_intro, of_kept]

theorem kept_execMigrateStallLimit (op : Nat) (s : State) (hs : Kept CanonLoft ql s) : ∀ out, execMigrateStallLimit op s = .next out → Kept CanonLoft ql out := by
  intro out e
  unfold execMigrateStallLimit at e
  grind -ring -linarith (splits := 20) (gen := 16) (ematch := 12) [kept_State_fire, kept_State_mirrorMeta, kept_State_dropPage, kept_State_endMigration, kept_State_setMigration, kept_State_nextPage, kept_intro, of_kept]

theorem kept_execMigrateSwitchConfirmed (op : Nat) (s : State) (hs : Kept CanonLoft ql s) : ∀ out, execMigrateSwitchConfirmed op s = .next out → Kept CanonLoft ql out := by
  intro out e
  unfold execMigrateSwitchConfirmed at e
  grind -ring -linarith (splits := 20) (gen := 16) (ematch := 12) [kept_State_chargePage, kept_State_logPage, kept_State_countStore, kept_State_loftPut, kept_State_wakeBar2, kept_State_mirrorMeta, kept_State_releasePage, kept_State_setLocks, kept_State_transInvalidate, kept_State_setMigration, kept_State_nextPage, kept_intro, of_kept]

end Sys2Proof.Machine
end

