-- ==== Sys2Proof/Laws/KeptStatus.lean ====
section
/-!
SUPPORT. What the operations of Status keep (KeptBase.lean): the queue, a canonical register file, and a canonical Loft; a lemma that holds for every Q says the operation writes nothing in the Loft.
-/

set_option linter.unusedTactic false
set_option linter.unreachableTactic false
set_option linter.unusedVariables false

namespace Sys2Proof.Machine

variable {Q : KMap Byte → KMap Bool → Prop} {ql : List Instr}

theorem kept_State_fitRegion (s : State) (r : Nat) (hs : Kept Q ql s) : Kept Q ql (State.fitRegion s r) := by
  unfold State.fitRegion
  grind -ring -linarith [kept_State_fire, kept_State_setDirty, kept_State_enterHold, kept_intro, of_kept]

theorem kept_State_fitRegions (s : State) (x1 : List Nat) (hs : Kept Q ql s) : Kept Q ql (State.fitRegions s x1) := by
  induction x1 generalizing s with
  | nil => grind -ring -linarith [State.fitRegions, kept_State_fitRegion, kept_intro, of_kept]
  | cons x l ih => grind -ring -linarith [State.fitRegions, kept_State_fitRegion, kept_intro, of_kept]

theorem kept_State_setBudget (s : State) (b : Nat) (hs : Kept CanonLoft ql s) : Kept CanonLoft ql (State.setBudget s b) := by
  unfold State.setBudget
  grind -ring -linarith [kept_State_fitRegions, kept_State_set64, kept_State_wakeBar2, kept_intro, of_kept]

theorem kept_State_checkTc (s : State) (hs : Kept CanonLoft ql s) : Kept CanonLoft ql (State.checkTc s) := by
  unfold State.checkTc
  grind -ring -linarith [kept_State_fire, kept_State_setFld, kept_State_setBudget, kept_intro, of_kept]

theorem kept_State_showLease (s : State) (hs : Kept Q ql s) : Kept Q ql (State.showLease s) := by
  unfold State.showLease
  grind -ring -linarith [kept_State_setNum, kept_State_setFld, kept_intro, of_kept]

theorem kept_State_dropResync (s : State) (hs : Kept Q ql s) : Kept Q ql (State.dropResync s) := by
  unfold State.dropResync
  grind -ring -linarith [kept_State_setNum, kept_State_setFld, kept_State_complete, kept_intro, of_kept]

theorem kept_State_clearCredits (s : State) (x1 : List Nat) (hs : Kept Q ql s) : Kept Q ql (State.clearCredits s x1) := by
  induction x1 generalizing s with
  | nil => grind -ring -linarith [State.clearCredits, kept_State_setNum, kept_State_setDirty, kept_intro, of_kept]
  | cons x l ih => grind -ring -linarith [State.clearCredits, kept_State_setNum, kept_State_setDirty, kept_intro, of_kept]

theorem kept_State_endPaired (s : State) (hs : Kept CanonLoft ql s) : Kept CanonLoft ql (State.endPaired s) := by
  unfold State.endPaired
  grind -ring -linarith (splits := 20) (gen := 16) (ematch := 12) [kept_State_complete, kept_State_checkTc, kept_State_clearCredits, kept_State_failStreams, kept_State_loseMigrations, kept_State_twinLost, kept_intro, of_kept]

theorem kept_State_notice (s : State) (code : Nat) (hs : Kept Q ql s) : Kept Q ql (State.notice s code) := by
  unfold State.notice
  grind -ring -linarith [kept_State_sendAll, kept_intro, of_kept]

theorem kept_State_setPair (s : State) (v : Nat) (hs : Kept CanonLoft ql s) : Kept CanonLoft ql (State.setPair s v) := by
  unfold State.setPair
  grind -ring -linarith [kept_State_setFld, kept_State_checkTc, kept_State_showLease, kept_State_notice, kept_intro, of_kept]

theorem kept_State_startLog (s : State) (hs : Kept Q ql s) : Kept Q ql (State.startLog s) := by
  unfold State.startLog
  grind -ring -linarith [kept_State_logPages, kept_intro, of_kept]

theorem kept_State_enterSuspect (s : State) (cause : Nat) (hs : Kept CanonLoft ql s) : Kept CanonLoft ql (State.enterSuspect s cause) := by
  unfold State.enterSuspect
  grind -ring -linarith (splits := 20) (gen := 16) (ematch := 12) [kept_State_signalBoth, kept_State_fire, kept_State_publish, kept_State_dropResync, kept_State_endPaired, kept_State_setPair, kept_State_startLog, kept_intro, of_kept]

theorem kept_State_askBehind (s : State) (x1 : List Nat) (hs : Kept Q ql s) : Kept Q ql (State.askBehind s x1) := by
  induction x1 generalizing s with
  | nil => grind -ring -linarith [State.askBehind, kept_State_askTwin, kept_intro, of_kept]
  | cons x l ih => grind -ring -linarith [State.askBehind, kept_State_askTwin, kept_intro, of_kept]

theorem kept_State_clearLog (s : State) (hs : Kept Q ql s) : Kept Q ql (State.clearLog s) := by
  unfold State.clearLog
  grind -ring -linarith [kept_State_setNum, kept_intro, of_kept]

theorem kept_State_completeWaits (s : State) (applied : Nat) (hs : Kept Q ql s) : Kept Q ql (State.completeWaits s applied) := by
  unfold State.completeWaits
  grind -ring -linarith [kept_State_complete, kept_foldl, kept_intro, of_kept]

theorem kept_State_homeAll (s : State) (side : Nat) (hs : Kept Q ql s) : Kept Q ql (State.homeAll s side) := by
  unfold State.homeAll
  grind -ring -linarith [kept_intro, of_kept]

theorem kept_State_forgetSent (s : State) (hs : Kept Q ql s) : Kept Q ql (State.forgetSent s) := by
  unfold State.forgetSent
  grind -ring -linarith [kept_intro, of_kept]

theorem kept_State_judgeAll (s : State) (x1 : List (Nat × Tracker)) (hs : Kept Q ql s) : Kept Q ql (State.judgeAll s x1) := by
  induction x1 generalizing s with
  | nil => grind -ring -linarith [State.judgeAll, kept_State_judge, kept_intro, of_kept]
  | cons x l ih => grind -ring -linarith [State.judgeAll, kept_State_judge, kept_intro, of_kept]

theorem kept_State_enterSolo (s : State) (hs : Kept CanonLoft ql s) : Kept CanonLoft ql (State.enterSolo s) := by
  unfold State.enterSolo
  grind -ring -linarith (splits := 20) (gen := 16) (ematch := 12) [kept_State_setNum, kept_State_fire, kept_State_wakeBar2, kept_State_endPaired, kept_State_setPair, kept_State_startLog, kept_State_settleAll, kept_State_postBar2, kept_State_completeWaits, kept_State_homeAll, kept_State_forgetSent, kept_State_judgeAll, kept_intro, of_kept]

theorem kept_State_forgetAsked (s : State) (hs : Kept Q ql s) : Kept Q ql (State.forgetAsked s) := by
  unfold State.forgetAsked
  grind -ring -linarith [kept_intro, of_kept]

theorem kept_State_takeStatus (s : State) (w : Nat) (hs : Kept CanonLoft ql s) : Kept CanonLoft ql (State.takeStatus s w) := by
  unfold State.takeStatus
  grind -ring -linarith [kept_State_setFld, kept_State_checkTc, kept_intro, of_kept]

end Sys2Proof.Machine
end

