-- ==== Sys2Proof/Laws/KeptTally.lean ====
section
/-!
SUPPORT. What the operations of Tally keep (KeptBase.lean): the queue, a canonical register file, and a canonical Loft; a lemma that holds for every Q says the operation writes nothing in the Loft.
-/

set_option linter.unusedTactic false
set_option linter.unreachableTactic false
set_option linter.unusedVariables false

namespace Sys2Proof.Machine

variable {Q : KMap Byte → KMap Bool → Prop} {ql : List Instr}

theorem kept_State_abandonClose (s : State) (hs : Kept Q ql s) : Kept Q ql (State.abandonClose s) := by
  unfold State.abandonClose
  grind -ring -linarith [kept_State_fire, kept_State_bump, kept_intro, of_kept]

theorem kept_State_resumeTally (s : State) (hs : Kept Q ql s) : Kept Q ql (State.resumeTally s) := by
  unfold State.resumeTally
  grind -ring -linarith [kept_intro, of_kept]

theorem kept_State_pruneStaging (s : State) (hs : Kept Q ql s) : Kept Q ql (State.pruneStaging s) := by
  unfold State.pruneStaging
  grind -ring -linarith [kept_State_showTally, kept_State_stageLasts, kept_intro, of_kept]

theorem kept_State_setRing (s : State) (fn : Fn) (r : TallyRing) (hs : Kept Q ql s) : Kept Q ql (State.setRing s fn r) := by
  unfold State.setRing
  grind -ring -linarith [kept_State_setNum, kept_intro, of_kept]

theorem kept_State_ringOff (s : State) (fn : Fn) (hs : Kept Q ql s) : Kept Q ql (State.ringOff s fn) := by
  unfold State.ringOff
  grind -ring -linarith [kept_State_pruneStaging, kept_State_setRing, kept_intro, of_kept]

theorem kept_State_checkStaging (s : State) (hs : Kept Q ql s) : Kept Q ql (State.checkStaging s) := by
  unfold State.checkStaging
  try dsimp only
  repeat' (first | with_reducible assumption | with_reducible apply kept_State_fireLimited | split | intro _ | (apply kept_intro; dsimp only; apply of_kept))

theorem kept_State_copyTally (s : State) (hs : Kept Q ql s) : Kept Q ql (State.copyTally s) := by
  unfold State.copyTally
  grind -ring -linarith [kept_State_countHeld, kept_intro, of_kept]

theorem kept_State_countPages (s : State) (x1 : List Nat) (hs : Kept Q ql s) : Kept Q ql (State.countPages s x1) := by
  induction x1 generalizing s with
  | nil => grind -ring -linarith [State.countPages, kept_State_tallyAdd, kept_intro, of_kept]
  | cons x l ih => grind -ring -linarith [State.countPages, kept_State_tallyAdd, kept_intro, of_kept]

theorem kept_State_deliver (s : State) (fn : Fn) (r : TallyRing) (x3 : List (Nat × TallyRec)) (hs : Kept Q ql s) : Kept Q ql (State.deliver s fn r x3).1 := by
  induction x3 generalizing s fn r with
  | nil => grind -ring -linarith [State.deliver, kept_State_emit, kept_intro, of_kept]
  | cons x l ih => grind -ring -linarith [State.deliver, kept_State_emit, kept_intro, of_kept]

theorem kept_State_signalRing (s : State) (fn : Fn) (hs : Kept Q ql s) : Kept Q ql (State.signalRing s fn) := by
  unfold State.signalRing
  grind -ring -linarith [kept_State_signal, kept_intro, of_kept]

theorem kept_execTallyProbeWrite (req : Requester) (data : Word) (s : State) (hs : Kept Q ql s) : ∀ out, execTallyProbeWrite req data s = .next out → Kept Q ql out := by
  intro out e
  unfold execTallyProbeWrite at e
  grind -ring -linarith [kept_State_publish, kept_State_guarded, kept_intro, of_kept]

theorem kept_execTallyRingHeadWrite (req : Requester) (data : Word) (s : State) (hs : Kept Q ql s) : ∀ out, execTallyRingHeadWrite req data s = .next out → Kept Q ql out := by
  intro out e
  unfold execTallyRingHeadWrite at e
  grind -ring -linarith [kept_State_pruneStaging, kept_State_setRing, kept_State_guarded, kept_intro, of_kept]

theorem kept_execMinuteBoundary (seconds : Nat) (s : State) (hs : Kept Q ql s) : ∀ out, execMinuteBoundary seconds s = .next out → Kept Q ql out := by
  intro out e
  unfold execMinuteBoundary at e
  grind -ring -linarith [kept_State_abandonClose, kept_State_countHeld, kept_State_reachRtc, kept_intro, of_kept]

theorem kept_execTallyCloseStart (s : State) (hs : Kept Q ql s) : ∀ out, execTallyCloseStart s = .next out → Kept Q ql out := by
  intro out e
  unfold execTallyCloseStart at e
  grind -ring -linarith (splits := 20) (gen := 16) (ematch := 12) [kept_State_setNum, kept_State_bump, kept_State_abandonClose, kept_State_showTally, kept_State_stageAll, kept_State_checkStaging, kept_State_signalRing, kept_intro, of_kept]

theorem kept_execTallyRingDelivery (fn : Fn) (s : State) (hs : Kept Q ql s) : ∀ out, execTallyRingDelivery fn s = .next out → Kept Q ql out := by
  intro out e
  unfold execTallyRingDelivery at e
  grind -ring -linarith [kept_State_signal, kept_State_setRing, kept_State_deliver, kept_intro, of_kept]

theorem kept_execTallyRingSet (c : AdminCmd) (s : State) (hs : Kept Q ql s) : ∀ out, execTallyRingSet c s = .next out → Kept Q ql out := by
  intro out e
  unfold execTallyRingSet at e
  grind -ring -linarith [kept_State_setRing, kept_State_ringOff, kept_State_adminRun, kept_intro, of_kept]

theorem kept_execTallyStagingCopy (s : State) (hs : Kept Q ql s) : ∀ out, execTallyStagingCopy s = .next out → Kept Q ql out := by
  intro out e
  unfold execTallyStagingCopy at e
  grind -ring -linarith [kept_State_copyTally, kept_State_countPages, kept_intro, of_kept]

end Sys2Proof.Machine
end

