-- ==== Sys2Proof/Laws/KeptIntegrity.lean ====
section
/-!
SUPPORT. What the operations of Integrity keep (KeptBase.lean): the queue, a canonical register file, and a canonical Loft; a lemma that holds for every Q says the operation writes nothing in the Loft.
-/

set_option linter.unusedTactic false
set_option linter.unreachableTactic false
set_option linter.unusedVariables false

namespace Sys2Proof.Machine

variable {Q : KMap Byte → KMap Bool → Prop} {ql : List Instr}

theorem kept_State_countError (s : State) (l : LinePlace) (hs : Kept Q ql s) : Kept Q ql (State.countError s l) := by
  unfold State.countError
  grind -ring -linarith [kept_State_setChannelInfo, kept_State_makeDue, kept_intro, of_kept]

theorem kept_State_garbleLine (s : State) (dpa : Nat) (x2 : Nat) (hs : Kept CanonLoft ql s) : Kept CanonLoft ql (State.garbleLine s dpa x2) := by
  induction x2 generalizing s dpa with
  | zero => grind -ring -linarith [State.garbleLine, kept_State_fresh, kept_State_loftPut, kept_intro, of_kept]
  | succ n ih => grind -ring -linarith [State.garbleLine, kept_State_fresh, kept_State_loftPut, kept_intro, of_kept]

theorem kept_State_hardResult (s : State) (l : LinePlace) (remedy : Nat) (device : Nat) (page : Nat) (hs : Kept Q ql s) : Kept Q ql (State.hardResult s l remedy device page) := by
  unfold State.hardResult
  grind -ring -linarith [kept_State_fire, kept_State_publish, kept_intro, of_kept]

theorem kept_State_setCorr (s : State) (r : Nat) (l : List CorrEntry) (hs : Kept Q ql s) : Kept Q ql (State.setCorr s r l) := by
  unfold State.setCorr
  grind -ring -linarith [kept_State_setFld, kept_intro, of_kept]

theorem kept_State_markDevice (s : State) (l : LinePlace) (d : Nat) (page : Nat) (hs : Kept Q ql s) : Kept Q ql (State.markDevice s l d page) := by
  unfold State.markDevice
  grind -ring -linarith [kept_State_fire, kept_State_setFld, kept_State_hardResult, kept_State_setCorr, kept_intro, of_kept]

theorem kept_State_secondDevice (s : State) (l : LinePlace) (d : Nat) (page : Nat) (hs : Kept Q ql s) : Kept Q ql (State.secondDevice s l d page) := by
  unfold State.secondDevice
  grind -ring -linarith [kept_State_fire, kept_State_hardResult, kept_State_retirePage, kept_State_failRegion, kept_intro, of_kept]

theorem kept_State_softRepair (s : State) (l : LinePlace) (devs : List Nat) (page : Nat) (hs : Kept Q ql s) : Kept Q ql (State.softRepair s l devs page) := by
  unfold State.softRepair
  grind -ring -linarith [kept_State_setChannelInfo, kept_State_makeDue, kept_State_hardResult, kept_foldl, kept_intro, of_kept]

theorem kept_State_hardLine (s : State) (l : LinePlace) (page : Nat) (most : Nat) (devs : List Nat) (hs : Kept Q ql s) : Kept Q ql (State.hardLine s l page most devs) := by
  unfold State.hardLine
  grind -ring -linarith [kept_State_bump, kept_State_hardResult, kept_State_markDevice, kept_State_secondDevice, kept_State_softRepair, kept_intro, of_kept]

theorem kept_State_noteCorrection (s : State) (l : LinePlace) (page : Nat) (devs : List Nat) (most : Nat) (hs : Kept Q ql s) : Kept Q ql (State.noteCorrection s l page devs most) := by
  unfold State.noteCorrection
  grind -ring -linarith [kept_State_bump, kept_State_setCorr, kept_State_hardLine, kept_foldl, kept_intro, of_kept]

theorem kept_State_noteWriteback (s : State) (p : Nat) (hs : Kept Q ql s) : Kept Q ql (State.noteWriteback s p) := by
  unfold State.noteWriteback
  grind -ring -linarith [kept_State_setMax, kept_State_fresh, kept_intro, of_kept]

theorem kept_State_corrected (s : State) (dpa : Nat) (fix : List (Nat × Byte)) (right : Bool) (reader : LineReader) (hs : Kept CanonLoft ql s) : Kept CanonLoft ql (State.corrected s dpa fix right reader) := by
  unfold State.corrected
  grind -ring -linarith (splits := 20) (gen := 16) (ematch := 12) [kept_State_bump, kept_State_setPoison, kept_State_notePass, kept_State_countError, kept_State_garbleLine, kept_State_noteCorrection, kept_State_noteWriteback, kept_foldl, kept_intro, of_kept]

theorem kept_State_endScan (s : State) (poly : Nat) (outcome : Nat) (bs : List Byte) (hs : Kept Q ql s) : Kept Q ql (State.endScan s poly outcome bs) := by
  unfold State.endScan
  grind -ring -linarith [kept_State_fire, kept_State_publish, kept_State_setFld, kept_intro, of_kept]

theorem kept_State_gleanPages (s : State) (warn : Bool) (x2 : List Nat) (hs : Kept CanonLoft ql s) : Kept CanonLoft ql (State.gleanPages s warn x2) := by
  induction x2 generalizing s warn with
  | nil => grind -ring -linarith [State.gleanPages, kept_State_park, kept_State_notePass, kept_State_earlyWarn, kept_State_stepFails, kept_intro, of_kept]
  | cons x l ih => grind -ring -linarith [State.gleanPages, kept_State_park, kept_State_notePass, kept_State_earlyWarn, kept_State_stepFails, kept_intro, of_kept]

theorem kept_State_mapsLost (s : State) (x1 : List Nat) (hs : Kept Q ql s) : Kept Q ql (State.mapsLost s x1) := by
  induction x1 generalizing s with
  | nil => grind -ring -linarith [State.mapsLost, kept_State_changeMap, kept_intro, of_kept]
  | cons x l ih => grind -ring -linarith [State.mapsLost, kept_State_changeMap, kept_intro, of_kept]

theorem kept_State_qpLost (s : State) (n : Nat) (hs : Kept Q ql s) : Kept Q ql (State.qpLost s n) := by
  unfold State.qpLost
  grind -ring -linarith [kept_State_setQp, kept_State_fire, kept_State_publish, kept_intro, of_kept]

theorem kept_State_windowLost (s : State) (idx : Nat) (hs : Kept Q ql s) : Kept Q ql (State.windowLost s idx) := by
  unfold State.windowLost
  grind -ring -linarith [kept_State_freeCached, kept_State_setWindow, kept_intro, of_kept]

theorem kept_State_windowsLost (s : State) (x1 : List Nat) (hs : Kept Q ql s) : Kept Q ql (State.windowsLost s x1) := by
  induction x1 generalizing s with
  | nil => grind -ring -linarith [State.windowsLost, kept_State_windowLost, kept_intro, of_kept]
  | cons x l ih => grind -ring -linarith [State.windowsLost, kept_State_windowLost, kept_intro, of_kept]

theorem kept_State_reserveLost (s : State) (dpa : Nat) (hs : Kept Q ql s) : Kept Q ql (State.reserveLost s dpa) := by
  unfold State.reserveLost
  try dsimp only
  repeat' (first | with_reducible assumption | with_reducible apply kept_State_fire | with_reducible apply kept_State_publish | with_reducible apply kept_State_mapsLost | with_reducible apply kept_State_qpLost | with_reducible apply kept_State_windowLost | with_reducible apply kept_State_windowsLost | split | intro _ | (apply kept_intro; dsimp only; apply of_kept))

theorem kept_State_lineLost (s : State) (dpa : Nat) (hs : Kept CanonLoft ql s) : Kept CanonLoft ql (State.lineLost s dpa) := by
  unfold State.lineLost
  grind -ring -linarith [kept_State_fire, kept_State_poisonLine, kept_State_poisonRecords, kept_State_notePass, kept_State_recovered, kept_State_reserveLost, kept_intro, of_kept]

theorem kept_State_recovStep (s : State) (line : Nat) (step : Nat) (hs : Kept Q ql s) : Kept Q ql (State.recovStep s line step) := by
  unfold State.recovStep
  grind -ring -linarith [kept_intro, of_kept]

theorem kept_State_recovShadow (s : State) (line : Nat) (hs : Kept CanonLoft ql s) : Kept CanonLoft ql (State.recovShadow s line) := by
  unfold State.recovShadow
  grind -ring -linarith [kept_State_park, kept_State_lineLost, kept_State_recovStep, kept_intro, of_kept]

theorem kept_State_recovStart (s : State) (line : Nat) (hs : Kept CanonLoft ql s) : Kept CanonLoft ql (State.recovStart s line) := by
  unfold State.recovStart
  grind -ring -linarith [kept_State_askTwin, kept_State_recovStep, kept_State_recovShadow, kept_intro, of_kept]

theorem kept_State_recovKick (fuel : Nat) (s : State) (r : Nat) (hs : Kept CanonLoft ql s) : Kept CanonLoft ql (State.recovKick fuel s r) := by
  induction fuel generalizing s r with
  | zero => grind -ring -linarith [State.recovKick, kept_State_recovStart, kept_intro, of_kept]
  | succ n ih => grind -ring -linarith [State.recovKick, kept_State_recovStart, kept_intro, of_kept]

theorem kept_State_recovFails (s : State) (line : Nat) (hs : Kept CanonLoft ql s) : Kept CanonLoft ql (State.recovFails s line) := by
  unfold State.recovFails
  grind -ring -linarith [kept_State_lineLost, kept_State_recovShadow, kept_State_recovKick, kept_intro, of_kept]

theorem kept_State_recover (s : State) (line : Nat) (glean : Bool) (hs : Kept CanonLoft ql s) : Kept CanonLoft ql (State.recover s line glean) := by
  unfold State.recover
  grind -ring -linarith [kept_State_recovKick, kept_intro, of_kept]

theorem kept_execScanAbort (req : Requester) (data : Word) (bytes : List Byte) (s : State) (hs : Kept Q ql s) : ∀ out, execScanAbort req data bytes s = .next out → Kept Q ql out := by
  intro out e
  unfold execScanAbort at e
  grind -ring -linarith [kept_State_endScan, kept_State_guarded, kept_State_writeFields, kept_intro, of_kept]

theorem kept_execScanStart (req : Requester) (data : Word) (s : State) (hs : Kept Q ql s) : ∀ out, execScanStart req data s = .next out → Kept Q ql out := by
  intro out e
  unfold execScanStart at e
  grind -ring -linarith [kept_State_setFld, kept_State_endScan, kept_State_guarded, kept_State_writeFields, kept_intro, of_kept]

theorem kept_State_yieldSense (s : State) (r : Nat) (hs : Kept Q ql s) : Kept Q ql (State.yieldSense s r) := by
  unfold State.yieldSense
  grind -ring -linarith [kept_intro, of_kept]

theorem kept_execGleanPassEnd (region : Nat) (cellar : Bool) (s : State) (hs : Kept Q ql s) : ∀ out, execGleanPassEnd region cellar s = .next out → Kept Q ql out := by
  intro out e
  unfold execGleanPassEnd at e
  grind -ring -linarith (splits := 20) (gen := 16) (ematch := 12) [kept_State_setNum, kept_State_fire, kept_State_publish, kept_State_setFld, kept_State_bump, kept_State_noteGlean, kept_intro, of_kept]

theorem kept_execGleanPositionSave (region : Nat) (s : State) (hs : Kept Q ql s) : ∀ out, execGleanPositionSave region s = .next out → Kept Q ql out := by
  intro out e
  unfold execGleanPositionSave at e
  grind -ring -linarith [kept_intro, of_kept]

theorem kept_execGleanSlice (region : Nat) (lines : Nat) (pages : Nat) (warns : List Nat) (fails : List Nat) (cut : Bool) (s : State) (hs : Kept CanonLoft ql s) : ∀ out, execGleanSlice region lines pages warns fails cut s = .next out → Kept CanonLoft ql out := by
  intro out e
  unfold execGleanSlice at e
  grind -ring -linarith (splits := 20) (gen := 16) (ematch := 12) [kept_State_setNum, kept_State_setFld, kept_State_bump, kept_State_fireLimited, kept_State_notePass, kept_State_gleanPages, kept_intro, of_kept]

theorem kept_execLineRecoveryDone (dpa : Nat) (ok : Bool) (s : State) (hs : Kept CanonLoft ql s) : ∀ out, execLineRecoveryDone dpa ok s = .next out → Kept CanonLoft ql out := by
  intro out e
  unfold execLineRecoveryDone at e
  grind -ring -linarith [kept_State_lineStored, kept_State_recovKick, kept_State_recovFails, kept_intro, of_kept]

theorem kept_execLoftLineDecode (dpa : Nat) (errors : List (Nat × Byte)) (reader : LineReader) (s : State) (hs : Kept CanonLoft ql s) : ∀ out, execLoftLineDecode dpa errors reader s = .next out → Kept CanonLoft ql out := by
  intro out e
  unfold execLoftLineDecode at e
  cases e
  dsimp only
  repeat' (first | with_reducible assumption | with_reducible apply kept_State_bump | with_reducible apply kept_State_fireLimited | with_reducible apply kept_State_rowHit | with_reducible apply kept_State_poisonLine | with_reducible apply kept_State_notePass | with_reducible apply kept_State_corrected | with_reducible apply kept_State_recover | split | intro _ | (apply kept_intro; dsimp only; apply of_kept))

theorem kept_execPageRetireDone (page : Nat) (s : State) (hs : Kept Q ql s) : ∀ out, execPageRetireDone page s = .next out → Kept Q ql out := by
  intro out e
  unfold execPageRetireDone at e
  grind -ring -linarith [kept_State_fire, kept_State_setFld, kept_State_yieldSense, kept_intro, of_kept]

theorem kept_execParityError (page : Nat) (path : ParityPath) (s : State) (hs : Kept Q ql s) : ∀ out, execParityError page path s = .next out → Kept Q ql out := by
  intro out e
  unfold execParityError at e
  grind -ring -linarith (splits := 20) (gen := 16) (ematch := 12) [kept_State_emit, kept_State_setFld, kept_State_bump, kept_State_fireLimited, kept_State_notFresh, kept_intro, of_kept]

theorem kept_execScanDone (bytes : List Byte) (ok : Bool) (s : State) (hs : Kept Q ql s) : ∀ out, execScanDone bytes ok s = .next out → Kept Q ql out := by
  intro out e
  unfold execScanDone at e
  grind -ring -linarith [kept_State_endScan, kept_intro, of_kept]

theorem kept_execSoftRepairDone (channel : Nat) (sub : Nat) (rank : Nat) (group : Nat) (bank : Nat) (row : Nat) (s : State) (hs : Kept Q ql s) : ∀ out, execSoftRepairDone channel sub rank group bank row s = .next out → Kept Q ql out := by
  intro out e
  unfold execSoftRepairDone at e
  grind -ring -linarith [kept_State_setFld, kept_intro, of_kept]

end Sys2Proof.Machine
end

