-- ==== Sys2Proof/Laws/KeptTwin.lean ====
section
/-!
SUPPORT. What the operations of Twin keep (KeptBase.lean): the queue, a canonical register file, and a canonical Loft; a lemma that holds for every Q says the operation writes nothing in the Loft.
-/

set_option linter.unusedTactic false
set_option linter.unreachableTactic false
set_option linter.unusedVariables false

namespace Sys2Proof.Machine

variable {Q : KMap Byte → KMap Bool → Prop} {ql : List Instr}

theorem kept_State_resend (s : State) (x : SentFrame) (hs : Kept Q ql s) : Kept Q ql (State.resend s x) := by
  unfold State.resend
  grind -ring -linarith [kept_State_emit, kept_State_bump, kept_intro, of_kept]

theorem kept_State_loseFrame (s : State) (mseq : Nat) (hs : Kept Q ql s) : Kept Q ql (State.loseFrame s mseq) := by
  unfold State.loseFrame
  grind -ring -linarith [kept_State_bump, kept_State_resend, kept_intro, of_kept]

theorem kept_State_loseFrames (s : State) (x1 : List Nat) (hs : Kept Q ql s) : Kept Q ql (State.loseFrames s x1) := by
  induction x1 generalizing s with
  | nil => grind -ring -linarith [State.loseFrames, kept_State_loseFrame, kept_intro, of_kept]
  | cons x l ih => grind -ring -linarith [State.loseFrames, kept_State_loseFrame, kept_intro, of_kept]

theorem kept_State_twinGone (s : State) (cause : Nat) (hs : Kept CanonLoft ql s) : Kept CanonLoft ql (State.twinGone s cause) := by
  unfold State.twinGone
  grind -ring -linarith [kept_State_enterSuspect, kept_intro, of_kept]

theorem kept_State_portStops (s : State) (p : Nat) (hs : Kept CanonLoft ql s) : Kept CanonLoft ql (State.portStops s p) := by
  unfold State.portStops
  grind -ring -linarith [kept_State_checkTc, kept_State_loseFrames, kept_State_showLease, kept_State_twinLost, kept_State_twinGone, kept_intro, of_kept]

theorem kept_State_restartSequence (s : State) (hs : Kept CanonLoft ql s) : Kept CanonLoft ql (State.restartSequence s) := by
  unfold State.restartSequence
  grind -ring -linarith (splits := 20) (gen := 16) (ematch := 12) [kept_State_set64, kept_State_logPages, kept_State_postBar2, kept_intro, of_kept]

theorem kept_State_answerRead (s : State) (id : Nat) (dpa : Nat) (len : Nat) (hs : Kept Q ql s) : Kept Q ql (State.answerRead s id dpa len) := by
  unfold State.answerRead
  grind -ring -linarith [kept_State_park, kept_State_sendOne, kept_intro, of_kept]

theorem kept_State_answerReads (s : State) (x1 : List (Nat × Nat × Nat × Nat)) (hs : Kept Q ql s) : Kept Q ql (State.answerReads s x1) := by
  induction x1 generalizing s with
  | nil => grind -ring -linarith [State.answerReads, kept_State_answerRead, kept_intro, of_kept]
  | cons x l ih => grind -ring -linarith [State.answerReads, kept_State_answerRead, kept_intro, of_kept]

theorem kept_State_applyEntry (s : State) (dpa : Nat) (entry : Nat) (hs : Kept CanonLoft ql s) : Kept CanonLoft ql (State.applyEntry s dpa entry) := by
  unfold State.applyEntry
  grind -ring -linarith [kept_State_setMap, kept_State_countStore, kept_State_loftPut, kept_State_transInvalidate, kept_intro, of_kept]

theorem kept_State_applyMapState (s : State) (page : Nat) (code : Nat) (hs : Kept CanonLoft ql s) : Kept CanonLoft ql (State.applyMapState s page code) := by
  unfold State.applyMapState
  grind -ring -linarith [kept_State_changeMap, kept_State_countPage, kept_State_zeroPageBytes, kept_State_releasePage, kept_intro, of_kept]

theorem kept_State_implyTenant (s : State) (t : Nat) (hs : Kept Q ql s) : Kept Q ql (State.implyTenant s t) := by
  unfold State.implyTenant
  grind -ring -linarith [kept_State_fire, kept_State_makeTenant, kept_intro, of_kept]

theorem kept_State_noteClaims (s : State) (id : Nat) (x2 : List (Nat × Nat)) (hs : Kept Q ql s) : Kept Q ql (State.noteClaims s id x2) := by
  induction x2 generalizing s id with
  | nil => grind -ring -linarith [State.noteClaims, kept_State_setMap, kept_intro, of_kept]
  | cons x l ih => grind -ring -linarith [State.noteClaims, kept_State_setMap, kept_intro, of_kept]

theorem kept_State_applyObject (s : State) (id : Nat) (o : Object) (hs : Kept Q ql s) : Kept Q ql (State.applyObject s id o) := by
  unfold State.applyObject
  grind -ring -linarith (splits := 20) (gen := 16) (ematch := 12) [kept_State_transInvalidate, kept_State_dropRef, kept_State_implyTenant, kept_State_noteClaims, kept_State_setObject, kept_intro, of_kept]

theorem kept_State_applyRole (s : State) (first : Nat) (last : Nat) (side : Nat) (hs : Kept Q ql s) : Kept Q ql (State.applyRole s first last side) := by
  unfold State.applyRole
  grind -ring -linarith [kept_foldl, kept_intro, of_kept]

theorem kept_State_applyWindow (s : State) (side : Nat) (idx : Nat) (w : Window) (hs : Kept Q ql s) : Kept Q ql (State.applyWindow s side idx w) := by
  unfold State.applyWindow
  grind -ring -linarith [kept_State_freeCached, kept_State_setWindow, kept_intro, of_kept]

theorem kept_State_applyRecord (s : State) (side : Nat) (x2 : MetaRecord) (hs : Kept CanonLoft ql s) : Kept CanonLoft ql (State.applyRecord s side x2) := by
  unfold State.applyRecord
  grind -ring -linarith [kept_State_applyEntry, kept_State_applyMapState, kept_State_applyObject, kept_State_applyRole, kept_State_applyWindow, kept_intro, of_kept]

theorem kept_State_applyRecords (s : State) (side : Nat) (x2 : List MetaRecord) (hs : Kept CanonLoft ql s) : Kept CanonLoft ql (State.applyRecords s side x2) := by
  induction x2 generalizing s side with
  | nil => grind -ring -linarith [State.applyRecords, kept_State_applyRecord, kept_intro, of_kept]
  | cons x l ih => grind -ring -linarith [State.applyRecords, kept_State_applyRecord, kept_intro, of_kept]

theorem kept_State_mirrorCharge (s : State) (owner : Nat) (page : Nat) (hs : Kept CanonLoft ql s) : Kept CanonLoft ql (State.mirrorCharge s owner page) := by
  unfold State.mirrorCharge
  grind -ring -linarith [kept_State_chargePage, kept_State_markWritten, kept_State_takeGather, kept_State_touchGather, kept_intro, of_kept]

theorem kept_State_useReservation (s : State) (r : Nat) (hs : Kept Q ql s) : Kept Q ql (State.useReservation s r) := by
  unfold State.useReservation
  grind -ring -linarith [kept_State_setNum, kept_State_setDirty, kept_intro, of_kept]

theorem kept_State_applySegment (s : State) (mseq : Nat) (g : Segment) (hs : Kept CanonLoft ql s) : Kept CanonLoft ql (State.applySegment s mseq g) := by
  unfold State.applySegment
  grind -ring -linarith [kept_State_placeIn, kept_State_mirrorCharge, kept_State_useReservation, kept_intro, of_kept]

theorem kept_State_applySegments (s : State) (mseq : Nat) (x2 : List Segment) (hs : Kept CanonLoft ql s) : Kept CanonLoft ql (State.applySegments s mseq x2) := by
  induction x2 generalizing s mseq with
  | nil => grind -ring -linarith [State.applySegments, kept_State_applySegment, kept_intro, of_kept]
  | cons x l ih => grind -ring -linarith [State.applySegments, kept_State_applySegment, kept_intro, of_kept]

theorem kept_State_applyFrame (s : State) (f : TwinFrame) (hs : Kept CanonLoft ql s) : Kept CanonLoft ql (State.applyFrame s f) := by
  unfold State.applyFrame
  grind -ring -linarith [kept_State_set64, kept_State_sendOne, kept_State_applyRecords, kept_State_applySegments, kept_intro, of_kept]

theorem kept_State_auditRecord (s : State) (page : Nat) (kind : Nat) (hs : Kept Q ql s) : Kept Q ql (State.auditRecord s page kind) := by
  unfold State.auditRecord
  grind -ring -linarith [kept_State_fire, kept_State_publish, kept_intro, of_kept]

theorem kept_State_copyReserve (s : State) (hs : Kept Q ql s) : Kept Q ql (State.copyReserve s) := by
  unfold State.copyReserve
  grind -ring -linarith [kept_State_mirrorMeta, kept_intro, of_kept]

theorem kept_State_copyPage (s : State) (page : Nat) (hs : Kept Q ql s) : Kept Q ql (State.copyPage s page) := by
  unfold State.copyPage
  grind -ring -linarith [kept_State_setCredit, kept_State_sendSeq, kept_State_mirrorMeta, kept_foldl, kept_intro, of_kept]

theorem kept_State_copyPages (s : State) (x1 : List Nat) (hs : Kept Q ql s) : Kept Q ql (State.copyPages s x1) := by
  induction x1 generalizing s with
  | nil => grind -ring -linarith [State.copyPages, kept_State_copyPage, kept_intro, of_kept]
  | cons x l ih => grind -ring -linarith [State.copyPages, kept_State_copyPage, kept_intro, of_kept]

theorem kept_State_copyExtents (fuel : Nat) (s : State) (hs : Kept Q ql s) : Kept Q ql (State.copyExtents fuel s) := by
  induction fuel generalizing s with
  | zero => grind -ring -linarith (splits := 20) (gen := 16) (ematch := 12) [State.copyExtents, kept_State_setNum, kept_State_mirrorMeta, kept_State_copyPages, kept_intro, of_kept]
  | succ n ih => grind -ring -linarith (splits := 20) (gen := 16) (ematch := 12) [State.copyExtents, kept_State_setNum, kept_State_mirrorMeta, kept_State_copyPages, kept_intro, of_kept]

theorem kept_State_goCopy (s : State) (hs : Kept Q ql s) : Kept Q ql (State.goCopy s) := by
  unfold State.goCopy
  grind -ring -linarith [kept_State_copyExtents, kept_intro, of_kept]

theorem kept_State_beginCopy (s : State) (hs : Kept Q ql s) : Kept Q ql (State.beginCopy s) := by
  unfold State.beginCopy
  grind -ring -linarith [kept_State_setNum, kept_State_copyReserve, kept_State_goCopy, kept_intro, of_kept]

theorem kept_State_cellarFromTwin (s : State) (loc : Nat) (bs : List Byte) (map : Nat) (hs : Kept CanonLoft ql s) : Kept CanonLoft ql (State.cellarFromTwin s loc bs map) := by
  unfold State.cellarFromTwin
  grind -ring -linarith [kept_State_poisonPage, kept_State_sealPage, kept_State_stepOk, kept_intro, of_kept]

theorem kept_State_drain (fuel : Nat) (s : State) (hs : Kept CanonLoft ql s) : Kept CanonLoft ql (State.drain fuel s) := by
  induction fuel generalizing s with
  | zero => grind -ring -linarith [State.drain, kept_State_applyFrame, kept_intro, of_kept]
  | succ n ih => grind -ring -linarith [State.drain, kept_State_applyFrame, kept_intro, of_kept]

theorem kept_State_drainAll (s : State) (hs : Kept CanonLoft ql s) : Kept CanonLoft ql (State.drainAll s) := by
  unfold State.drainAll
  grind -ring -linarith [kept_State_settleAll, kept_State_answerReads, kept_State_drain, kept_intro, of_kept]

theorem kept_State_endAudit (s : State) (hs : Kept Q ql s) : Kept Q ql (State.endAudit s) := by
  unfold State.endAudit
  grind -ring -linarith [kept_State_complete, kept_intro, of_kept]

theorem kept_State_endSwap (s : State) (applied : Nat) (hs : Kept Q ql s) : Kept Q ql (State.endSwap s applied) := by
  unfold State.endSwap
  grind -ring -linarith [kept_State_complete, kept_State_applyRole, kept_intro, of_kept]

theorem kept_State_sendLog (fuel : Nat) (s : State) (loft : List Nat) (cellar : List Nat) (hs : Kept Q ql s) : Kept Q ql (State.sendLog fuel s loft cellar) := by
  induction fuel generalizing s loft cellar with
  | zero => grind -ring -linarith [State.sendLog, kept_State_sendOne, kept_intro, of_kept]
  | succ n ih => grind -ring -linarith [State.sendLog, kept_State_sendOne, kept_intro, of_kept]

theorem kept_State_sendOwnLog (s : State) (hs : Kept Q ql s) : Kept Q ql (State.sendOwnLog s) := by
  unfold State.sendOwnLog
  grind -ring -linarith [kept_State_sendLog, kept_intro, of_kept]

theorem kept_State_enterJoining (s : State) (resume : Bool) (epoch : Nat) (side : Nat) (hs : Kept CanonLoft ql s) : Kept CanonLoft ql (State.enterJoining s resume epoch side) := by
  unfold State.enterJoining
  grind -ring -linarith (splits := 20) (gen := 16) (ematch := 12) [kept_State_setNum, kept_State_setFld, kept_State_clearCredits, kept_State_setPair, kept_State_askBehind, kept_State_homeAll, kept_State_sendOwnLog, kept_intro, of_kept]

theorem kept_State_grantCredits (s : State) (x1 : List Nat) (hs : Kept Q ql s) : Kept Q ql (State.grantCredits s x1).2 := by
  induction x1 generalizing s with
  | nil => grind -ring -linarith [State.grantCredits, kept_State_setNum, kept_State_setDirty, kept_intro, of_kept]
  | cons x l ih => grind -ring -linarith [State.grantCredits, kept_State_setNum, kept_State_setDirty, kept_intro, of_kept]

theorem kept_State_hear (s : State) (f : TwinFrame) (hs : Kept Q ql s) : ∀ out, State.hear s f = some out → Kept Q ql out := by
  intro out e
  unfold State.hear at e
  grind -ring -linarith [kept_State_bump, kept_intro, of_kept]

theorem kept_State_heard (s : State) (f : TwinFrame) (k : State → State) (hs : Kept Q ql s) (hk : ∀ s, Kept Q ql s → Kept Q ql (k s)) : Kept Q ql (State.heard s f k) := by
  unfold State.heard
  grind -ring -linarith [kept_State_hear, kept_intro, of_kept]

theorem kept_State_sendQueued (s : State) (x1 : List SentFrame) (hs : Kept Q ql s) : Kept Q ql (State.sendQueued s x1) := by
  induction x1 generalizing s with
  | nil => grind -ring -linarith [State.sendQueued, kept_State_sendFrame, kept_intro, of_kept]
  | cons x l ih => grind -ring -linarith [State.sendQueued, kept_State_sendFrame, kept_intro, of_kept]

theorem kept_State_linkTwin (s : State) (port : Nat) (hs : Kept CanonLoft ql s) : Kept CanonLoft ql (State.linkTwin s port) := by
  unfold State.linkTwin
  grind -ring -linarith [kept_State_setFld, kept_State_sendFrame, kept_State_checkTc, kept_State_showLease, kept_State_setPg, kept_State_sendQueued, kept_intro, of_kept]

theorem kept_State_readFails (s : State) (q : ReadReq) (hs : Kept CanonLoft ql s) : Kept CanonLoft ql (State.readFails s q) := by
  unfold State.readFails
  grind -ring -linarith [kept_State_twinLost, kept_State_poisonPage, kept_State_forgetAsked, kept_State_recovFails, kept_intro, of_kept]

theorem kept_State_repairPage (s : State) (page : Nat) (hs : Kept Q ql s) : Kept Q ql (State.repairPage s page) := by
  unfold State.repairPage
  grind -ring -linarith [kept_State_setCredit, kept_State_sendSeq, kept_foldl, kept_intro, of_kept]

theorem kept_State_writePorts (s : State) (v : Nat) (x2 : List Nat) (hs : Kept CanonLoft ql s) : Kept CanonLoft ql (State.writePorts s v x2) := by
  induction x2 generalizing s v with
  | nil => grind -ring -linarith [State.writePorts, kept_State_setReg, kept_State_setFld, kept_State_setPg, kept_State_portStops, kept_intro, of_kept]
  | cons x l ih => grind -ring -linarith [State.writePorts, kept_State_setReg, kept_State_setFld, kept_State_setPg, kept_State_portStops, kept_intro, of_kept]

theorem kept_State_staleEpoch (s : State) (hs : Kept Q ql s) : Kept Q ql (State.staleEpoch s) := by
  unfold State.staleEpoch
  grind -ring -linarith [kept_State_bump, kept_State_fireLimited, kept_intro, of_kept]

theorem kept_State_sameEpoch (s : State) (f : TwinFrame) (k : State → State) (hs : Kept Q ql s) (hk : ∀ s, Kept Q ql s → Kept Q ql (k s)) : Kept Q ql (State.sameEpoch s f k) := by
  unfold State.sameEpoch
  grind -ring -linarith [kept_State_staleEpoch, kept_intro, of_kept]

theorem kept_State_sendMack (s : State) (port : Nat) (hs : Kept CanonLoft ql s) : Kept CanonLoft ql (State.sendMack s port) := by
  unfold State.sendMack
  grind -ring -linarith [kept_State_sendFrame, kept_State_drainAll, kept_State_grantCredits, kept_foldl, kept_intro, of_kept]

theorem kept_State_rxSeq (s : State) (f : TwinFrame) (hs : Kept CanonLoft ql s) : Kept CanonLoft ql (State.rxSeq s f) := by
  unfold State.rxSeq
  grind -ring -linarith [kept_State_fire, kept_State_bump, kept_State_drainAll, kept_State_sameEpoch, kept_State_sendMack, kept_intro, of_kept]

theorem kept_State_sampleRtt (s : State) (port : Nat) (r : Nat) (hs : Kept Q ql s) : Kept Q ql (State.sampleRtt s port r) := by
  unfold State.sampleRtt
  grind -ring -linarith [kept_State_setNum, kept_intro, of_kept]

theorem kept_State_sendAudits (fuel : Nat) (s : State) (hs : Kept Q ql s) : Kept Q ql (State.sendAudits fuel s) := by
  induction fuel generalizing s with
  | zero => grind -ring -linarith [State.sendAudits, kept_State_sendSeq, kept_intro, of_kept]
  | succ n ih => grind -ring -linarith [State.sendAudits, kept_State_sendSeq, kept_intro, of_kept]

theorem kept_State_takeGrants (s : State) (r : Nat) (x2 : List Nat) (hs : Kept Q ql s) : Kept Q ql (State.takeGrants s r x2) := by
  induction x2 generalizing s r with
  | nil => grind -ring -linarith [State.takeGrants, kept_State_setCredit, kept_intro, of_kept]
  | cons x l ih => grind -ring -linarith [State.takeGrants, kept_State_setCredit, kept_intro, of_kept]

theorem kept_execPortEnWrite (req : Requester) (data : Word) (s : State) (hs : Kept CanonLoft ql s) : ∀ out, execPortEnWrite req data s = .next out → Kept CanonLoft ql out := by
  intro out e
  unfold execPortEnWrite at e
  grind -ring -linarith [kept_State_guarded, kept_State_writePorts, kept_intro, of_kept]

theorem kept_execWitnessVerdictWrite (req : Requester) (data : Word) (s : State) (hs : Kept CanonLoft ql s) : ∀ out, execWitnessVerdictWrite req data s = .next out → Kept CanonLoft ql out := by
  intro out e
  unfold execWitnessVerdictWrite at e
  grind -ring -linarith [kept_State_fire, kept_State_bump, kept_State_consume, kept_State_showLease, kept_State_setPair, kept_State_guarded, kept_intro, of_kept]

theorem kept_execAuditDigestRx (f : TwinFrame) (s : State) (hs : Kept Q ql s) : ∀ out, execAuditDigestRx f s = .next out → Kept Q ql out := by
  intro out e
  unfold execAuditDigestRx at e
  grind -ring -linarith (splits := 20) (gen := 16) (ematch := 12) [kept_State_auditRecord, kept_State_endAudit, kept_State_heard, kept_State_repairPage, kept_State_sendAudits, kept_intro, of_kept]

theorem kept_execAuditReqRx (f : TwinFrame) (s : State) (hs : Kept CanonLoft ql s) : ∀ out, execAuditReqRx f s = .next out → Kept CanonLoft ql out := by
  intro out e
  unfold execAuditReqRx at e
  grind -ring -linarith [kept_State_heard, kept_State_rxSeq, kept_intro, of_kept]

theorem kept_execAuditStart (c : AdminCmd) (s : State) (hs : Kept Q ql s) : ∀ out, execAuditStart c s = .next out → Kept Q ql out := by
  intro out e
  unfold execAuditStart at e
  grind -ring -linarith [kept_State_adminRun, kept_State_endAudit, kept_State_sendAudits, kept_intro, of_kept]

theorem kept_execGrantMissingExpire (s : State) (hs : Kept CanonLoft ql s) : ∀ out, execGrantMissingExpire s = .next out → Kept CanonLoft ql out := by
  intro out e
  unfold execGrantMissingExpire at e
  grind -ring -linarith [kept_State_enterSuspect, kept_intro, of_kept]

theorem kept_execHelloRx (f : TwinFrame) (s : State) (hs : Kept CanonLoft ql s) : ∀ out, execHelloRx f s = .next out → Kept CanonLoft ql out := by
  intro out e
  unfold execHelloRx at e
  grind -ring -linarith (splits := 20) (gen := 16) (ematch := 12) [kept_State_fire, kept_State_sendFrame, kept_State_setPair, kept_State_restartSequence, kept_State_enterJoining, kept_State_heard, kept_intro, of_kept]

theorem kept_execHelloTimeout (s : State) (hs : Kept CanonLoft ql s) : ∀ out, execHelloTimeout s = .next out → Kept CanonLoft ql out := by
  intro out e
  unfold execHelloTimeout at e
  grind -ring -linarith [kept_State_enterSuspect, kept_intro, of_kept]

theorem kept_execLeaseExpire (s : State) (hs : Kept CanonLoft ql s) : ∀ out, execLeaseExpire s = .next out → Kept CanonLoft ql out := by
  intro out e
  unfold execLeaseExpire at e
  grind -ring -linarith [kept_State_checkTc, kept_State_showLease, kept_State_twinLost, kept_intro, of_kept]

theorem kept_execLeaseGrantRx (f : TwinFrame) (s : State) (hs : Kept CanonLoft ql s) : ∀ out, execLeaseGrantRx f s = .next out → Kept CanonLoft ql out := by
  intro out e
  unfold execLeaseGrantRx at e
  grind -ring -linarith (splits := 20) (gen := 16) (ematch := 12) [kept_State_wakeBar2, kept_State_showLease, kept_State_clearCredits, kept_State_setPair, kept_State_clearLog, kept_State_heard, kept_State_sameEpoch, kept_State_takeStatus, kept_intro, of_kept]

theorem kept_execLeaseRx (f : TwinFrame) (s : State) (hs : Kept CanonLoft ql s) : ∀ out, execLeaseRx f s = .next out → Kept CanonLoft ql out := by
  intro out e
  unfold execLeaseRx at e
  grind -ring -linarith [kept_State_sendFrame, kept_State_heard, kept_State_sameEpoch, kept_State_takeStatus, kept_intro, of_kept]

theorem kept_execLeaseSendTimer (s : State) (hs : Kept Q ql s) : ∀ out, execLeaseSendTimer s = .next out → Kept Q ql out := by
  intro out e
  unfold execLeaseSendTimer at e
  grind -ring -linarith [kept_State_sendAll, kept_intro, of_kept]

theorem kept_execLogRx (f : TwinFrame) (s : State) (hs : Kept Q ql s) : ∀ out, execLogRx f s = .next out → Kept Q ql out := by
  intro out e
  unfold execLogRx at e
  grind -ring -linarith [kept_State_setNum, kept_State_beginCopy, kept_State_heard, kept_foldl, kept_intro, of_kept]

theorem kept_execMackRx (f : TwinFrame) (s : State) (hs : Kept CanonLoft ql s) : ∀ out, execMackRx f s = .next out → Kept CanonLoft ql out := by
  intro out e
  unfold execMackRx at e
  grind -ring -linarith (splits := 20) (gen := 16) (ematch := 12) [kept_State_wakeBar2, kept_State_loseFrames, kept_State_settleAll, kept_State_postBar2, kept_State_goCopy, kept_State_completeWaits, kept_State_endSwap, kept_State_heard, kept_State_sendQueued, kept_State_mirrored, kept_State_sampleRtt, kept_State_takeGrants, kept_intro, of_kept]

theorem kept_execMackSendTimer (port : Nat) (s : State) (hs : Kept CanonLoft ql s) : ∀ out, execMackSendTimer port s = .next out → Kept CanonLoft ql out := by
  intro out e
  unfold execMackSendTimer at e
  grind -ring -linarith [kept_State_sendMack, kept_intro, of_kept]

theorem kept_execMirrorDataRx (f : TwinFrame) (s : State) (hs : Kept CanonLoft ql s) : ∀ out, execMirrorDataRx f s = .next out → Kept CanonLoft ql out := by
  intro out e
  unfold execMirrorDataRx at e
  grind -ring -linarith [kept_State_heard, kept_State_rxSeq, kept_intro, of_kept]

theorem kept_execMirrorMetaRx (f : TwinFrame) (s : State) (hs : Kept CanonLoft ql s) : ∀ out, execMirrorMetaRx f s = .next out → Kept CanonLoft ql out := by
  intro out e
  unfold execMirrorMetaRx at e
  grind -ring -linarith [kept_State_heard, kept_State_rxSeq, kept_intro, of_kept]

theorem kept_execMirrorUnappliedLimit (mseq : Nat) (s : State) (hs : Kept CanonLoft ql s) : ∀ out, execMirrorUnappliedLimit mseq s = .next out → Kept CanonLoft ql out := by
  intro out e
  unfold execMirrorUnappliedLimit at e
  grind -ring -linarith [kept_State_twinGone, kept_intro, of_kept]

theorem kept_execNoticeRx (f : TwinFrame) (s : State) (hs : Kept CanonLoft ql s) : ∀ out, execNoticeRx f s = .next out → Kept CanonLoft ql out := by
  intro out e
  unfold execNoticeRx at e
  grind -ring -linarith [kept_State_enterSolo, kept_State_heard, kept_State_takeStatus, kept_intro, of_kept]

theorem kept_execReadDataRx (f : TwinFrame) (s : State) (hs : Kept CanonLoft ql s) : ∀ out, execReadDataRx f s = .next out → Kept CanonLoft ql out := by
  intro out e
  unfold execReadDataRx at e
  cases e
  dsimp only
  repeat' (first | with_reducible assumption | with_reducible apply kept_State_lineStored | with_reducible apply kept_State_loadPage | with_reducible apply kept_State_cellarFromTwin | with_reducible apply kept_State_heard | with_reducible apply kept_State_recovKick | with_reducible apply kept_State_recovFails | split | intro _ | (apply kept_intro; dsimp only; apply of_kept))
  all_goals grind -ring -linarith [kept_State_lineStored, kept_State_loadPage, kept_State_cellarFromTwin, kept_State_heard, kept_State_recovKick, kept_State_recovFails, kept_intro, of_kept]

theorem kept_execReadReqRx (f : TwinFrame) (s : State) (hs : Kept Q ql s) : ∀ out, execReadReqRx f s = .next out → Kept Q ql out := by
  intro out e
  unfold execReadReqRx at e
  grind -ring -linarith [kept_State_answerReads, kept_State_heard, kept_intro, of_kept]

theorem kept_execReadReqTimeout (id : Nat) (s : State) (hs : Kept CanonLoft ql s) : ∀ out, execReadReqTimeout id s = .next out → Kept CanonLoft ql out := by
  intro out e
  unfold execReadReqTimeout at e
  grind -ring -linarith [kept_State_sendOne, kept_State_readFails, kept_intro, of_kept]

theorem kept_execResyncComplete (s : State) (hs : Kept CanonLoft ql s) : ∀ out, execResyncComplete s = .next out → Kept CanonLoft ql out := by
  intro out e
  unfold execResyncComplete at e
  grind -ring -linarith (splits := 20) (gen := 16) (ematch := 12) [kept_State_fire, kept_State_setFld, kept_State_complete, kept_State_clearCredits, kept_State_setPair, kept_State_clearLog, kept_State_completeWaits, kept_intro, of_kept]

theorem kept_execResyncStart (c : AdminCmd) (s : State) (hs : Kept Q ql s) : ∀ out, execResyncStart c s = .next out → Kept Q ql out := by
  intro out e
  unfold execResyncStart at e
  grind -ring -linarith [kept_State_setFld, kept_State_clearCredits, kept_State_adminRun, kept_State_beginCopy, kept_intro, of_kept]

theorem kept_execRoleSwap (c : AdminCmd) (s : State) (hs : Kept Q ql s) : ∀ out, execRoleSwap c s = .next out → Kept Q ql out := by
  intro out e
  unfold execRoleSwap at e
  grind -ring -linarith [kept_State_adminRun, kept_intro, of_kept]

theorem kept_execRoleSwapDrained (s : State) (hs : Kept Q ql s) : ∀ out, execRoleSwapDrained s = .next out → Kept Q ql out := by
  intro out e
  unfold execRoleSwapDrained at e
  grind -ring -linarith [kept_State_mirrorMeta, kept_intro, of_kept]

theorem kept_execSoloEnter (s : State) (hs : Kept CanonLoft ql s) : ∀ out, execSoloEnter s = .next out → Kept CanonLoft ql out := by
  intro out e
  unfold execSoloEnter at e
  grind -ring -linarith [kept_State_enterSolo, kept_intro, of_kept]

theorem kept_execTwinFrameDrop (port : Nat) (tagFailed : Bool) (s : State) (hs : Kept Q ql s) : ∀ out, execTwinFrameDrop port tagFailed s = .next out → Kept Q ql out := by
  intro out e
  unfold execTwinFrameDrop at e
  grind -ring -linarith [kept_State_bump, kept_State_fireLimited, kept_intro, of_kept]

theorem kept_execTwinPortLinkDown (port : Nat) (s : State) (hs : Kept CanonLoft ql s) : ∀ out, execTwinPortLinkDown port s = .next out → Kept CanonLoft ql out := by
  intro out e
  unfold execTwinPortLinkDown at e
  grind -ring -linarith [kept_State_fire, kept_State_setFld, kept_State_portStops, kept_intro, of_kept]

theorem kept_execTwinPortLinkUp (port : Nat) (s : State) (hs : Kept CanonLoft ql s) : ∀ out, execTwinPortLinkUp port s = .next out → Kept CanonLoft ql out := by
  intro out e
  unfold execTwinPortLinkUp at e
  grind -ring -linarith [kept_State_linkTwin, kept_intro, of_kept]

theorem kept_execTwinRtoExpire (mseq : Nat) (s : State) (hs : Kept Q ql s) : ∀ out, execTwinRtoExpire mseq s = .next out → Kept Q ql out := by
  intro out e
  unfold execTwinRtoExpire at e
  grind -ring -linarith [kept_State_loseFrame, kept_intro, of_kept]

end Sys2Proof.Machine
end

