-- ==== Sys2Proof/Laws/KeptPages.lean ====
section
/-!
SUPPORT. What the operations of Pages keep (KeptBase.lean): the queue, a canonical register file, and a canonical Loft; a lemma that holds for every Q says the operation writes nothing in the Loft.
-/

set_option linter.unusedTactic false
set_option linter.unreachableTactic false
set_option linter.unusedVariables false

namespace Sys2Proof.Machine

variable {Q : KMap Byte → KMap Bool → Prop} {ql : List Instr}

theorem kept_State_abortHandshakes (s : State) (k : Nat) (x2 : List Handshake) (hs : Kept Q ql s) : Kept Q ql (State.abortHandshakes s k x2) := by
  induction x2 generalizing s k with
  | nil => grind -ring -linarith [State.abortHandshakes, kept_State_emit, kept_State_fire, kept_intro, of_kept]
  | cons x l ih => grind -ring -linarith [State.abortHandshakes, kept_State_emit, kept_State_fire, kept_intro, of_kept]

theorem kept_State_requestChip (s : State) (cause : Nat) (w : optParam (Nat × Nat × Nat) (0, 0, 0)) (hs : Kept Q ql s) : Kept Q ql (State.requestChip s cause w) := by
  unfold State.requestChip
  grind -ring -linarith [kept_State_deferReset, kept_intro, of_kept]

theorem kept_State_finishReset (s : State) (page : Nat) (op : Nat) (hs : Kept Q ql s) : Kept Q ql (State.finishReset s page op) := by
  unfold State.finishReset
  grind -ring -linarith [kept_State_complete, kept_State_fresh, kept_intro, of_kept]

theorem kept_State_noteReset (s : State) (r : Nat) (cause : Nat) (op : Nat) (hs : Kept Q ql s) : Kept Q ql (State.noteReset s r cause op) := by
  unfold State.noteReset
  grind -ring -linarith [kept_State_setFld, kept_State_setRegion, kept_intro, of_kept]

theorem kept_State_noteResets (s : State) (page : Nat) (cause : Nat) (op : Nat) (x4 : List Nat) (hs : Kept Q ql s) : Kept Q ql (State.noteResets s page cause op x4) := by
  induction x4 generalizing s page cause op with
  | nil => grind -ring -linarith [State.noteResets, kept_State_noteReset, kept_intro, of_kept]
  | cons x l ih => grind -ring -linarith [State.noteResets, kept_State_noteReset, kept_intro, of_kept]

theorem kept_State_dueRepairs (s : State) (r : Nat) (hs : Kept Q ql s) : Kept Q ql (State.dueRepairs s r) := by
  unfold State.dueRepairs
  grind -ring -linarith [kept_State_setDue, kept_foldl, kept_intro, of_kept]

theorem kept_State_freshPeers (s : State) (x1 : List (Nat × Peer)) (hs : Kept Q ql s) : Kept Q ql (State.freshPeers s x1) := by
  induction x1 generalizing s with
  | nil => grind -ring -linarith [State.freshPeers, kept_State_freshRates, kept_intro, of_kept]
  | cons x l ih => grind -ring -linarith [State.freshPeers, kept_State_freshRates, kept_intro, of_kept]

theorem kept_State_afterReset (s : State) (page : Nat) (hs : Kept CanonLoft ql s) : Kept CanonLoft ql (State.afterReset s page) := by
  unfold State.afterReset
  grind -ring -linarith [kept_State_showTrackers, kept_State_setFld, kept_State_dueRepairs, kept_State_freshPeers, kept_State_setDirty, kept_State_setBudget, kept_State_setPair, kept_State_portStops, kept_State_reloadSlots, kept_State_resetSamplers, kept_State_resumeHist, kept_State_resumeTally, kept_State_ringOff, kept_State_settleAll, kept_State_showKeys, kept_State_showSlots, kept_intro, of_kept]

theorem kept_State_cutTrain (s : State) (r : Nat) (hs : Kept Q ql s) : Kept Q ql (State.cutTrain s r) := by
  unfold State.cutTrain
  grind -ring -linarith [kept_State_bump, kept_State_endTrain, kept_intro, of_kept]

theorem kept_State_resetPx (s : State) (fn : Fn) (hs : Kept Q ql s) : Kept Q ql (State.resetPx s fn) := by
  unfold State.resetPx
  grind -ring -linarith [kept_State_zeroRegs, kept_intro, of_kept]

theorem kept_State_dropHost (s : State) (fn : Fn) (hs : Kept Q ql s) : Kept Q ql (State.dropHost s fn) := by
  unfold State.dropHost
  grind -ring -linarith [kept_State_resetPx, kept_intro, of_kept]

theorem kept_State_resetRegion (s : State) (r : Nat) (hs : Kept Q ql s) : Kept Q ql (State.resetRegion s r) := by
  unfold State.resetRegion
  grind -ring -linarith (splits := 20) (gen := 16) (ematch := 12) [kept_State_abandonTrain, kept_State_setRegion, kept_State_setDirty, kept_State_drainBuffer, kept_State_resetChannel, kept_State_noteBypass, kept_State_quiesce, kept_foldl, kept_intro, of_kept]

theorem kept_State_resetSteward (s : State) (hs : Kept Q ql s) : Kept Q ql (State.resetSteward s) := by
  unfold State.resetSteward
  grind -ring -linarith [kept_intro, of_kept]

theorem kept_State_resetTc (s : State) (hs : Kept Q ql s) : Kept Q ql (State.resetTc s) := by
  unfold State.resetTc
  grind -ring -linarith [kept_State_writeBackAll, kept_intro, of_kept]

theorem kept_State_resetTwin (s : State) (hs : Kept CanonLoft ql s) : Kept CanonLoft ql (State.resetTwin s) := by
  unfold State.resetTwin
  grind -ring -linarith (splits := 20) (gen := 16) (ematch := 12) [kept_State_dropResync, kept_State_endPaired, kept_State_startLog, kept_State_restartSequence, kept_intro, of_kept]

theorem kept_State_resetLogic (s : State) (page : Nat) (hs : Kept CanonLoft ql s) : Kept CanonLoft ql (State.resetLogic s page) := by
  unfold State.resetLogic
  grind -ring -linarith [kept_State_setDirty, kept_State_resetChannel, kept_State_cutTrain, kept_State_discardQueue, kept_State_dropHost, kept_State_resetAttic, kept_State_resetRegion, kept_State_resetSteward, kept_State_resetTc, kept_State_resetTwin, kept_State_setPlaneBits, kept_intro, of_kept]

theorem kept_State_resetOne (s : State) (top : Nat) (cause : Nat) (page : Nat) (hs : Kept CanonLoft ql s) : Kept CanonLoft ql (State.resetOne s top cause page) := by
  unfold State.resetOne
  grind -ring -linarith [kept_State_resetRegs, kept_State_restartPage, kept_State_afterReset, kept_State_resetLogic, kept_intro, of_kept]

theorem kept_State_resetEach (s : State) (top : Nat) (cause : Nat) (x3 : List Nat) (hs : Kept CanonLoft ql s) : Kept CanonLoft ql (State.resetEach s top cause x3) := by
  induction x3 generalizing s top cause with
  | nil => grind -ring -linarith [State.resetEach, kept_State_resetOne, kept_intro, of_kept]
  | cons x l ih => grind -ring -linarith [State.resetEach, kept_State_resetOne, kept_intro, of_kept]

theorem kept_State_resetTree (s : State) (page : Nat) (cause : Nat) (op : Nat) (hs : Kept CanonLoft ql s) : Kept CanonLoft ql (State.resetTree s page cause op) := by
  unfold State.resetTree
  grind -ring -linarith [kept_State_finishReset, kept_State_noteResets, kept_State_resetEach, kept_intro, of_kept]

theorem kept_State_requestReset (s : State) (page : Nat) (cause : Nat) (op : Nat) (hs : Kept CanonLoft ql s) : Kept CanonLoft ql (State.requestReset s page cause op) := by
  unfold State.requestReset
  grind -ring -linarith [kept_State_setFld, kept_State_deferReset, kept_State_resetTree, kept_intro, of_kept]

theorem kept_State_beginDrain (s : State) (page : Nat) (hs : Kept CanonLoft ql s) : Kept CanonLoft ql (State.beginDrain s page) := by
  unfold State.beginDrain
  grind -ring -linarith [kept_State_checkTc, kept_State_showLease, kept_State_setPageInfo, kept_State_setPg, kept_State_twinLost, kept_intro, of_kept]

theorem kept_State_beginFreq (s : State) (k : Nat) (mhz : Nat) (hs : Kept Q ql s) : Kept Q ql (State.beginFreq s k mhz) := by
  unfold State.beginFreq
  grind -ring -linarith [kept_State_setFld, kept_State_cutTrain, kept_State_setIsland, kept_intro, of_kept]

theorem kept_State_tryStart (s : State) (page : Nat) (hs : Kept Q ql s) : Kept Q ql (State.tryStart s page) := by
  unfold State.tryStart
  grind -ring -linarith [kept_State_setPageInfo, kept_State_setPg, kept_intro, of_kept]

theorem kept_State_endDeferred (s : State) (x1 : List DeferredReset) (hs : Kept CanonLoft ql s) : Kept CanonLoft ql (State.endDeferred s x1) := by
  induction x1 generalizing s with
  | nil => grind -ring -linarith [State.endDeferred, kept_State_setFld, kept_State_resetTree, kept_intro, of_kept]
  | cons x l ih => grind -ring -linarith [State.endDeferred, kept_State_setFld, kept_State_resetTree, kept_intro, of_kept]

theorem kept_State_endHandshakes (s : State) (x1 : List Handshake) (hs : Kept Q ql s) : Kept Q ql (State.endHandshakes s x1) := by
  induction x1 generalizing s with
  | nil => grind -ring -linarith [State.endHandshakes, kept_State_emit, kept_intro, of_kept]
  | cons x l ih => grind -ring -linarith [State.endHandshakes, kept_State_emit, kept_intro, of_kept]

theorem kept_State_endRuntime (s : State) (r : Nat) (hs : Kept Q ql s) : Kept Q ql (State.endRuntime s r) := by
  unfold State.endRuntime
  grind -ring -linarith [kept_State_setRegion, kept_State_leaveBypass, kept_intro, of_kept]

theorem kept_State_finishResets (s : State) (page : Nat) (x2 : List Nat) (hs : Kept Q ql s) : Kept Q ql (State.finishResets s page x2) := by
  induction x2 generalizing s page with
  | nil => grind -ring -linarith [State.finishResets, kept_State_finishReset, kept_intro, of_kept]
  | cons x l ih => grind -ring -linarith [State.finishResets, kept_State_finishReset, kept_intro, of_kept]

theorem kept_State_freeLocks (s : State) (fn : Fn) (hs : Kept Q ql s) : Kept Q ql (State.freeLocks s fn) := by
  exact kept_intro ⟨hs.1, canonical_keepRegs _ hs.2.1, hs.2.2⟩

theorem kept_State_flr (s : State) (fn : Fn) (hs : Kept Q ql s) : Kept Q ql (State.flr s fn) := by
  unfold State.flr
  grind -ring -linarith [kept_State_ringOff, kept_State_dropHost, kept_State_freeLocks, kept_intro, of_kept]

theorem kept_State_reissue (s : State) (k : Nat) (hs : Kept Q ql s) : Kept Q ql (State.reissue s k) := by
  unfold State.reissue
  grind -ring -linarith [kept_State_emit, kept_foldl, kept_intro, of_kept]

theorem kept_State_joinService (s : State) (page : Nat) (hs : Kept CanonLoft ql s) : Kept CanonLoft ql (State.joinService s page) := by
  unfold State.joinService
  grind -ring -linarith (splits := 20) (gen := 16) (ematch := 12) [kept_State_setFld, kept_State_wakeBar2, kept_State_drainBuffer, kept_State_setPageInfo, kept_State_setPg, kept_State_setIsland, kept_State_planeTrained, kept_State_reissue, kept_intro, of_kept]

theorem kept_State_silence (s : State) (op : Nat) (hs : Kept Q ql s) : Kept Q ql (State.silence s op) := by
  unfold State.silence
  grind -ring -linarith [kept_intro, of_kept]

theorem kept_execFreqReqWrite (req : Requester) (k : Nat) (mhz : Nat) (s : State) (hs : Kept Q ql s) : ∀ out, execFreqReqWrite req k mhz s = .next out → Kept Q ql out := by
  intro out e
  unfold execFreqReqWrite at e
  grind -ring -linarith [kept_State_beginFreq, kept_State_guarded, kept_intro, of_kept]

theorem kept_execResultAckWrite (req : Requester) (page : Nat) (off : Nat) (data : Word) (s : State) (hs : Kept Q ql s) : ∀ out, execResultAckWrite req page off data s = .next out → Kept Q ql out := by
  intro out e
  unfold execResultAckWrite at e
  grind -ring -linarith [kept_State_ack, kept_State_guarded, kept_intro, of_kept]

theorem kept_execBypassEnd (req : Requester) (region : Nat) (s : State) (hs : Kept Q ql s) : ∀ out, execBypassEnd req region s = .next out → Kept Q ql out := by
  intro out e
  unfold execBypassEnd at e
  grind -ring -linarith [kept_State_setFld, kept_State_endRuntime, kept_State_guarded, kept_intro, of_kept]

theorem kept_execBypassReq (req : Requester) (region : Nat) (s : State) (hs : Kept Q ql s) : ∀ out, execBypassReq req region s = .next out → Kept Q ql out := by
  intro out e
  unfold execBypassReq at e
  grind -ring -linarith [kept_State_setFld, kept_State_setRegion, kept_State_enterBypass, kept_State_guarded, kept_intro, of_kept]

theorem kept_execPgCtrlDrain (req : Requester) (page : Nat) (on : Bool) (s : State) (hs : Kept CanonLoft ql s) : ∀ out, execPgCtrlDrain req page on s = .next out → Kept CanonLoft ql out := by
  intro out e
  unfold execPgCtrlDrain at e
  grind -ring -linarith [kept_State_setFld, kept_State_beginDrain, kept_State_guarded, kept_intro, of_kept]

theorem kept_execPgCtrlDrill (req : Requester) (page : Nat) (on : Bool) (s : State) (hs : Kept CanonLoft ql s) : ∀ out, execPgCtrlDrill req page on s = .next out → Kept CanonLoft ql out := by
  intro out e
  unfold execPgCtrlDrill at e
  grind -ring -linarith [kept_State_setFld, kept_State_requestReset, kept_State_guarded, kept_intro, of_kept]

theorem kept_execPgCtrlEnable (req : Requester) (page : Nat) (on : Bool) (s : State) (hs : Kept Q ql s) : ∀ out, execPgCtrlEnable req page on s = .next out → Kept Q ql out := by
  intro out e
  unfold execPgCtrlEnable at e
  grind -ring -linarith [kept_State_setFld, kept_State_tryStart, kept_State_guarded, kept_intro, of_kept]

theorem kept_execResetReq (req : Requester) (page : Nat) (s : State) (hs : Kept CanonLoft ql s) : ∀ out, execResetReq req page s = .next out → Kept CanonLoft ql out := by
  intro out e
  unfold execResetReq at e
  grind -ring -linarith [kept_State_setFld, kept_State_requestChip, kept_State_requestReset, kept_State_guarded, kept_intro, of_kept]

theorem kept_execEvFirstWrite (req : Requester) (page : Nat) (data : Word) (s : State) (hs : Kept Q ql s) : ∀ out, execEvFirstWrite req page data s = .next out → Kept Q ql out := by
  intro out e
  unfold execEvFirstWrite at e
  grind -ring -linarith [kept_State_setFld, kept_State_guarded, kept_intro, of_kept]

theorem kept_execEvInjectWrite (req : Requester) (page : Nat) (data : Word) (s : State) (hs : Kept Q ql s) : ∀ out, execEvInjectWrite req page data s = .next out → Kept Q ql out := by
  intro out e
  unfold execEvInjectWrite at e
  grind -ring -linarith [kept_State_fireMask, kept_State_bump, kept_State_guarded, kept_intro, of_kept]

theorem kept_execEvStatusWrite (req : Requester) (page : Nat) (data : Word) (firing : Word) (s : State) (hs : Kept Q ql s) : ∀ out, execEvStatusWrite req page data firing s = .next out → Kept Q ql out := by
  intro out e
  unfold execEvStatusWrite at e
  grind -ring -linarith [kept_State_setReg, kept_State_fireMask, kept_State_guarded, kept_intro, of_kept]

theorem kept_execPgLockWrite (req : Requester) (page : Nat) (hold : Bool) (s : State) (hs : Kept Q ql s) : ∀ out, execPgLockWrite req page hold s = .next out → Kept Q ql out := by
  intro out e
  unfold execPgLockWrite at e
  grind -ring -linarith [kept_State_setNum, kept_intro, of_kept]

theorem kept_execAtticResetDeferEnd (s : State) (hs : Kept CanonLoft ql s) : ∀ out, execAtticResetDeferEnd s = .next out → Kept CanonLoft ql out := by
  intro out e
  unfold execAtticResetDeferEnd at e
  grind -ring -linarith [kept_State_endDeferred, kept_intro, of_kept]

theorem kept_execBar0NarrowAccess (x0 : Fn) (offset : Nat) (width : Nat) (write : Bool) (s : State) (hs : Kept Q ql s) : ∀ out, execBar0NarrowAccess x0 offset width write s = .next out → Kept Q ql out := by
  intro out e
  unfold execBar0NarrowAccess at e
  grind -ring -linarith [kept_State_emit, kept_intro, of_kept]

theorem kept_execBypassLimitExpire (region : Nat) (s : State) (hs : Kept Q ql s) : ∀ out, execBypassLimitExpire region s = .next out → Kept Q ql out := by
  intro out e
  unfold execBypassLimitExpire at e
  grind -ring -linarith [kept_State_endRuntime, kept_intro, of_kept]

theorem kept_execBypassOpDone (region : Nat) (ok : Bool) (s : State) (hs : Kept Q ql s) : ∀ out, execBypassOpDone region ok s = .next out → Kept Q ql out := by
  intro out e
  unfold execBypassOpDone at e
  grind -ring -linarith [kept_State_endTrain, kept_State_failRegion, kept_intro, of_kept]

theorem kept_execDieLinkFlit (die : Nat) (crcOk : Bool) (s : State) (hs : Kept Q ql s) : ∀ out, execDieLinkFlit die crcOk s = .next out → Kept Q ql out := by
  intro out e
  unfold execDieLinkFlit at e
  grind -ring -linarith [kept_State_fire, kept_intro, of_kept]

theorem kept_execDrainDone (page : Nat) (s : State) (hs : Kept CanonLoft ql s) : ∀ out, execDrainDone page s = .next out → Kept CanonLoft ql out := by
  intro out e
  unfold execDrainDone at e
  grind -ring -linarith [kept_State_setFld, kept_State_setPg, kept_State_portStops, kept_State_discardQueue, kept_State_setPlaneBits, kept_intro, of_kept]

theorem kept_execDrainTimeout (page : Nat) (s : State) (hs : Kept Q ql s) : ∀ out, execDrainTimeout page s = .next out → Kept Q ql out := by
  intro out e
  unfold execDrainTimeout at e
  grind -ring -linarith [kept_State_fire, kept_State_setPageInfo, kept_State_setPg, kept_intro, of_kept]

theorem kept_execEnableConditionsMet (page : Nat) (s : State) (hs : Kept Q ql s) : ∀ out, execEnableConditionsMet page s = .next out → Kept Q ql out := by
  intro out e
  unfold execEnableConditionsMet at e
  grind -ring -linarith [kept_State_tryStart, kept_intro, of_kept]

theorem kept_execEventFire (page : Nat) (sources : Word) (s : State) (hs : Kept Q ql s) : ∀ out, execEventFire page sources s = .next out → Kept Q ql out := by
  intro out e
  unfold execEventFire at e
  grind -ring -linarith [kept_State_fireMask, kept_intro, of_kept]

theorem kept_execFunctionLevelReset (fn : Fn) (s : State) (hs : Kept Q ql s) : ∀ out, execFunctionLevelReset fn s = .next out → Kept Q ql out := by
  intro out e
  unfold execFunctionLevelReset at e
  grind -ring -linarith [kept_State_flr, kept_intro, of_kept]

theorem kept_execHardRepairStepDone (region : Nat) (s : State) (hs : Kept CanonLoft ql s) : ∀ out, execHardRepairStepDone region s = .next out → Kept CanonLoft ql out := by
  intro out e
  unfold execHardRepairStepDone at e
  cases e
  dsimp only
  repeat' (first | with_reducible assumption | with_reducible apply kept_State_bump | with_reducible apply kept_State_breakBypass | with_reducible apply kept_State_endTrain | with_reducible apply kept_State_resetTree | with_reducible apply kept_State_finishResets | with_reducible apply kept_State_repairDone | split | intro _ | (apply kept_intro; dsimp only; apply of_kept))

theorem kept_execIslandFreqChangeDone (k : Nat) (held : List Handshake) (s : State) (hs : Kept Q ql s) : ∀ out, execIslandFreqChangeDone k held s = .next out → Kept Q ql out := by
  intro out e
  unfold execIslandFreqChangeDone at e
  grind -ring -linarith [kept_State_setFld, kept_State_setIsland, kept_State_endHandshakes, kept_intro, of_kept]

theorem kept_execIslandResetEnter (k : Nat) (waiting : List Handshake) (s : State) (hs : Kept Q ql s) : ∀ out, execIslandResetEnter k waiting s = .next out → Kept Q ql out := by
  intro out e
  unfold execIslandResetEnter at e
  grind -ring -linarith [kept_State_abortHandshakes, kept_State_setIsland, kept_intro, of_kept]

theorem kept_execPerstN (link : Nat) (s : State) (hs : Kept Q ql s) : ∀ out, execPerstN link s = .next out → Kept Q ql out := by
  intro out e
  unfold execPerstN at e
  grind -ring -linarith [kept_State_flr, kept_intro, of_kept]

theorem kept_execPlaneControlIn (c : AdminCmd) (s : State) (hs : Kept Q ql s) : ∀ out, execPlaneControlIn c s = .next out → Kept Q ql out := by
  intro out e
  unfold execPlaneControlIn at e
  grind -ring -linarith [kept_State_setFld, kept_State_setPlane, kept_State_adminRun, kept_State_tryStart, kept_State_planeBack, kept_intro, of_kept]

theorem kept_execResetLevel (c : AdminCmd) (s : State) (hs : Kept CanonLoft ql s) : ∀ out, execResetLevel c s = .next out → Kept CanonLoft ql out := by
  intro out e
  unfold execResetLevel at e
  grind -ring -linarith [kept_State_requestChip, kept_State_requestReset, kept_State_adminRun, kept_State_silence, kept_intro, of_kept]

theorem kept_execStartUpDone (page : Nat) (passed : Bool) (s : State) (hs : Kept CanonLoft ql s) : ∀ out, execStartUpDone page passed s = .next out → Kept CanonLoft ql out := by
  intro out e
  unfold execStartUpDone at e
  grind -ring -linarith [kept_State_fire, kept_State_setFld, kept_State_retirePage, kept_State_planeTrained, kept_State_joinService, kept_intro, of_kept]

theorem kept_execTrstN (s : State) (hs : Kept Q ql s) : ∀ out, execTrstN s = .next out → Kept Q ql out := by
  intro out e
  unfold execTrstN at e
  grind -ring -linarith [kept_intro, of_kept]

end Sys2Proof.Machine
end

