-- ==== Sys2Proof/Laws/KeptHarvest.lean ====
section
/-!
SUPPORT. What the operations of Harvest keep (KeptBase.lean): the queue, a canonical register file, and a canonical Loft; a lemma that holds for every Q says the operation writes nothing in the Loft.
-/

set_option linter.unusedTactic false
set_option linter.unreachableTactic false
set_option linter.unusedVariables false

namespace Sys2Proof.Machine

variable {Q : KMap Byte → KMap Bool → Prop} {ql : List Instr}

theorem kept_State_showWearCredit (s : State) (r : Nat) (hs : Kept Q ql s) : Kept Q ql (State.showWearCredit s r) := by
  unfold State.showWearCredit
  grind -ring -linarith [kept_State_setReg, kept_intro, of_kept]

theorem kept_State_resumeWear (s : State) (x1 : List Nat) (hs : Kept Q ql s) : Kept Q ql (State.resumeWear s x1) := by
  induction x1 generalizing s with
  | nil => grind -ring -linarith [State.resumeWear, kept_State_setDirty, kept_State_showWearCredit, kept_intro, of_kept]
  | cons x l ih => grind -ring -linarith [State.resumeWear, kept_State_setDirty, kept_State_showWearCredit, kept_intro, of_kept]

theorem kept_State_bandFor (s : State) (r : Nat) (kind : Nat) (hs : Kept Q ql s) : Kept Q ql (State.bandFor s r kind).2 := by
  unfold State.bandFor
  grind -ring -linarith [kept_State_reserveHead, kept_State_takeBand, kept_intro, of_kept]

theorem kept_State_bump64 (s : State) (page : Nat) (lo : Nat) (hi : Nat) (hs : Kept Q ql s) : Kept Q ql (State.bump64 s page lo hi) := by
  unfold State.bump64
  grind -ring -linarith [kept_State_set64, kept_intro, of_kept]

theorem kept_State_dropHarvest (s : State) (page : Nat) (hs : Kept Q ql s) : Kept Q ql (State.dropHarvest s page) := by
  unfold State.dropHarvest
  grind -ring -linarith [kept_State_setDirty, kept_intro, of_kept]

theorem kept_State_saveWear (s : State) (x1 : List Nat) (hs : Kept Q ql s) : Kept Q ql (State.saveWear s x1) := by
  induction x1 generalizing s with
  | nil => grind -ring -linarith (splits := 20) (gen := 16) (ematch := 12) [State.saveWear, kept_State_setDirty, kept_State_showWearCredit, kept_intro, of_kept]
  | cons x l ih => grind -ring -linarith (splits := 20) (gen := 16) (ematch := 12) [State.saveWear, kept_State_setDirty, kept_State_showWearCredit, kept_intro, of_kept]

theorem kept_State_startHarvest (s : State) (page : Nat) (hs : Kept Q ql s) : Kept Q ql (State.startHarvest s page) := by
  unfold State.startHarvest
  grind -ring -linarith [kept_State_setDirty, kept_intro, of_kept]

theorem kept_State_startHarvests (s : State) (x1 : List Nat) (hs : Kept Q ql s) : Kept Q ql (State.startHarvests s x1) := by
  induction x1 generalizing s with
  | nil => grind -ring -linarith [State.startHarvests, kept_State_startHarvest, kept_intro, of_kept]
  | cons x l ih => grind -ring -linarith [State.startHarvests, kept_State_startHarvest, kept_intro, of_kept]

theorem kept_execTenantDirtyProbe (req : Requester) (data : Word) (s : State) (hs : Kept Q ql s) : ∀ out, execTenantDirtyProbe req data s = .next out → Kept Q ql out := by
  intro out e
  unfold execTenantDirtyProbe at e
  grind -ring -linarith [kept_State_publish, kept_State_guarded, kept_foldl, kept_intro, of_kept]

theorem kept_execGatherFillDone (page : Nat) (ok : Bool) (s : State) (hs : Kept CanonLoft ql s) : ∀ out, execGatherFillDone page ok s = .next out → Kept CanonLoft ql out := by
  intro out e
  unfold execGatherFillDone at e
  cases e
  split
  · exact hs
  split
  · exact hs
  split
  · exact hs
  split
  · split
    · exact kept_State_fillGather _ _ _ hs
    · split
      · exact kept_State_poisonPage _ _ hs
      · exact kept_State_poisonPage _ _ hs
  · exact hs

theorem kept_execHarvestPlan (region : Nat) (done : Bool) (s : State) (hs : Kept CanonLoft ql s) : ∀ out, execHarvestPlan region done s = .next out → Kept CanonLoft ql out := by
  intro out e
  unfold execHarvestPlan at e
  grind -ring -linarith (splits := 20) (gen := 16) (ematch := 12) [kept_State_setNum, kept_State_setFld, kept_State_bump, kept_State_fireLimited, kept_State_setDirty, kept_State_wakeBar2, kept_State_showWearCredit, kept_State_startHarvests, kept_intro, of_kept]

theorem kept_execHarvestProgramDone (page : Nat) (ok : Bool) (s : State) (hs : Kept CanonLoft ql s) : ∀ out, execHarvestProgramDone page ok s = .next out → Kept CanonLoft ql out := by
  intro out e
  unfold execHarvestProgramDone at e
  cases e
  dsimp only
  split
  · exact hs
  rename_i h _
  split
  · exact kept_State_dropHarvest _ _ hs
  have hp := kept_State_sealPage s (s.kindOf page) (s.storedAs page) h.data h.poison hs
  split
  · rename_i t he
    rw [he] at hp
    exact kept_State_dropHarvest _ _ hp
  rename_i f t he
  rw [he] at hp
  have hb := kept_State_bandFor t (s.regionOf page) (s.kindOf page) hp
  split
  · rename_i t' he'
    rw [he'] at hb
    exact kept_State_dropHarvest _ _ hb
  rename_i k t' he'
  rw [he'] at hb
  split
  · exact kept_State_dropHarvest _ _ hb
  rename_i loc u he''
  have hu := kept_State_programIn _ _ _ _ _ hb _ _ he''
  apply kept_State_wakeBar2
  apply kept_State_sealFull
  apply kept_State_bump64
  apply kept_State_showWearCredit
  exact kept_State_setDirty _ _ _ hu

theorem kept_execSheafWaitExpire (region : Nat) (key : Nat) (s : State) (hs : Kept CanonLoft ql s) : ∀ out, execSheafWaitExpire region key s = .next out → Kept CanonLoft ql out := by
  intro out e
  unfold execSheafWaitExpire at e
  grind -ring -linarith [kept_State_wakeBar2, kept_State_sealSheaf, kept_intro, of_kept]

theorem kept_execWearBucketSave (s : State) (hs : Kept Q ql s) : ∀ out, execWearBucketSave s = .next out → Kept Q ql out := by
  intro out e
  unfold execWearBucketSave at e
  grind -ring -linarith [kept_State_saveWear, kept_intro, of_kept]

end Sys2Proof.Machine
end

