-- ==== Sys2Proof/Laws/KeptPower.lean ====
section
/-!
SUPPORT. What the operations of Power keep (KeptBase.lean): the queue, a canonical register file, and a canonical Loft; a lemma that holds for every Q says the operation writes nothing in the Loft.
-/

set_option linter.unusedTactic false
set_option linter.unreachableTactic false
set_option linter.unusedVariables false

namespace Sys2Proof.Machine

variable {Q : KMap Byte → KMap Bool → Prop} {ql : List Instr}

theorem kept_State_setFaultN (s : State) (b : Nat) (v : Bool) (hs : Kept Q ql s) : Kept Q ql (State.setFaultN s b v) := by
  unfold State.setFaultN
  grind -ring -linarith [kept_State_emit, kept_State_setFld, kept_intro, of_kept]

theorem kept_State_loseRegs (s : State) (mask : Nat → Nat → Word) (hs : Kept Q ql s) : Kept Q ql (State.loseRegs s mask) := by
  exact kept_intro ⟨hs.1, canonical_mapRegs _ hs.2.1, hs.2.2⟩

theorem kept_State_loseAgeing (s : State) (hs : Kept Q ql s) : Kept Q ql (State.loseAgeing s) := by
  unfold State.loseAgeing
  grind -ring -linarith [kept_intro, of_kept]

theorem kept_State_loseArch (s : State) (hs : Kept Q ql s) : Kept Q ql (State.loseArch s) := by
  unfold State.loseArch
  grind -ring -linarith [kept_intro, of_kept]

theorem kept_State_loseAttic (s : State) (hs : Kept Q ql s) : Kept Q ql (State.loseAttic s) := by
  unfold State.loseAttic
  grind -ring -linarith [kept_State_resetAttic, kept_State_endAttic, kept_intro, of_kept]

theorem kept_State_loseCellar (s : State) (hs : Kept Q ql s) : Kept Q ql (State.loseCellar s) := by
  unfold State.loseCellar
  grind -ring -linarith [kept_intro, of_kept]

theorem kept_State_loseDram (s : State) (hs : Kept CanonLoft ql s) : Kept CanonLoft ql (State.loseDram s) := by
  unfold State.loseDram
  exact kept_intro ⟨hs.1, hs.2.1, canonLoft_empty⟩

theorem kept_State_loseDurable (s : State) (kept : Bool) (hs : Kept Q ql s) : Kept Q ql (State.loseDurable s kept) := by
  unfold State.loseDurable
  grind -ring -linarith [kept_intro, of_kept]

theorem kept_State_loseFabric (s : State) (kept : Bool) (hs : Kept Q ql s) : Kept Q ql (State.loseFabric s kept) := by
  unfold State.loseFabric
  grind -ring -linarith [kept_intro, of_kept]

theorem kept_State_loseHost (s : State) (kept : Bool) (hs : Kept Q ql s) : Kept Q ql (State.loseHost s kept) := by
  unfold State.loseHost
  grind -ring -linarith [kept_intro, of_kept]

theorem kept_State_loseInteg (s : State) (hs : Kept Q ql s) : Kept Q ql (State.loseInteg s) := by
  unfold State.loseInteg
  grind -ring -linarith [kept_intro, of_kept]

theorem kept_State_loseLarder (s : State) (hs : Kept Q ql s) : Kept Q ql (State.loseLarder s) := by
  unfold State.loseLarder
  grind -ring -linarith [kept_intro, of_kept]

theorem kept_State_loseLedger (s : State) (hs : Kept Q ql s) : Kept Q ql (State.loseLedger s) := by
  unfold State.loseLedger
  grind -ring -linarith [kept_intro, of_kept]

theorem kept_State_loseRecords (s : State) (kept : Bool) (hs : Kept Q ql s) : Kept Q ql (State.loseRecords s kept) := by
  unfold State.loseRecords
  grind -ring -linarith [kept_intro, of_kept]

theorem kept_State_loseTwin (s : State) (kept : Bool) (hs : Kept Q ql s) : Kept Q ql (State.loseTwin s kept) := by
  unfold State.loseTwin
  grind -ring -linarith [kept_State_setFld, kept_intro, of_kept]

theorem kept_State_loseWin (s : State) (kept : Bool) (hs : Kept Q ql s) : Kept Q ql (State.loseWin s kept) := by
  unfold State.loseWin
  grind -ring -linarith [kept_intro, of_kept]

theorem kept_State_loseVolatile (s : State) (hs : Kept CanonLoft ql s) : Kept CanonLoft ql (State.loseVolatile s) := by
  unfold State.loseVolatile
  try dsimp only
  repeat' (first | with_reducible assumption | with_reducible apply kept_State_loseRegs | with_reducible apply kept_State_loseAgeing | with_reducible apply kept_State_loseArch | with_reducible apply kept_State_loseAttic | with_reducible apply kept_State_loseCellar | with_reducible apply kept_State_loseDram | with_reducible apply kept_State_loseDurable | with_reducible apply kept_State_loseFabric | with_reducible apply kept_State_loseHost | with_reducible apply kept_State_loseInteg | with_reducible apply kept_State_loseLarder | with_reducible apply kept_State_loseLedger | with_reducible apply kept_State_loseRecords | with_reducible apply kept_State_loseTwin | with_reducible apply kept_State_loseWin | split | intro _ | (apply kept_intro; dsimp only; apply of_kept))

theorem kept_State_showRecorded (s : State) (x1 : List Nat) (hs : Kept Q ql s) : Kept Q ql (State.showRecorded s x1) := by
  induction x1 generalizing s with
  | nil => grind -ring -linarith [State.showRecorded, kept_State_setPg, kept_intro, of_kept]
  | cons x l ih => grind -ring -linarith [State.showRecorded, kept_State_setPg, kept_intro, of_kept]

theorem kept_State_startClocks (s : State) (x1 : List Nat) (hs : Kept Q ql s) : Kept Q ql (State.startClocks s x1) := by
  induction x1 generalizing s with
  | nil => grind -ring -linarith [State.startClocks, kept_State_setNum, kept_State_setIsland, kept_intro, of_kept]
  | cons x l ih => grind -ring -linarith [State.startClocks, kept_State_setNum, kept_State_setIsland, kept_intro, of_kept]

theorem kept_State_powerOn (s : State) (bifur : Bool) (ftm : Bool) (hs : Kept CanonLoft ql s) : Kept CanonLoft ql (State.powerOn s bifur ftm) := by
  unfold State.powerOn
  try dsimp only
  repeat' (first | with_reducible assumption | with_reducible apply kept_State_setFld | with_reducible apply kept_State_freshPeers | with_reducible apply kept_State_set64 | with_reducible apply kept_State_setPg | with_reducible apply kept_State_drawKey | with_reducible apply kept_State_reloadSlots | with_reducible apply kept_State_resumeHist | with_reducible apply kept_State_resumeTally | with_reducible apply kept_State_showKeys | with_reducible apply kept_State_setFaultN | with_reducible apply kept_State_loseRegs | with_reducible apply kept_State_loseVolatile | with_reducible apply kept_State_resumeWear | with_reducible apply kept_State_showRecorded | with_reducible apply kept_State_startClocks | split | intro _ | (apply kept_intro; dsimp only; apply of_kept))

theorem kept_State_setSeqBit (s : State) (b : Nat) (v : Bool) (hs : Kept Q ql s) : Kept Q ql (State.setSeqBit s b v) := by
  unfold State.setSeqBit
  grind -ring -linarith [kept_State_setFld, kept_intro, of_kept]

theorem kept_State_arriveUp (s : State) (bifur : Bool) (ftm : Bool) (hs : Kept CanonLoft ql s) : Kept CanonLoft ql (State.arriveUp s bifur ftm) := by
  unfold State.arriveUp
  grind -ring -linarith (splits := 20) (gen := 16) (ematch := 12) [kept_State_setNum, kept_State_setFld, kept_State_bump, kept_State_powerOn, kept_State_setSeqBit, kept_intro, of_kept]

theorem kept_State_arriveZero (s : State) (hs : Kept Q ql s) : Kept Q ql (State.arriveZero s) := by
  unfold State.arriveZero
  grind -ring -linarith [kept_State_setFld, kept_State_setSeqBit, kept_intro, of_kept]

theorem kept_State_freeSync (s : State) (hs : Kept Q ql s) : Kept Q ql (State.freeSync s) := by
  unfold State.freeSync
  grind -ring -linarith [kept_State_emit, kept_intro, of_kept]

theorem kept_State_holdSync (s : State) (hs : Kept Q ql s) : Kept Q ql (State.holdSync s) := by
  unfold State.holdSync
  grind -ring -linarith [kept_State_emit, kept_State_setSeqBit, kept_intro, of_kept]

theorem kept_State_setRail (s : State) (v : Bool) (i : Nat) (hs : Kept Q ql s) : Kept Q ql (State.setRail s v i) := by
  unfold State.setRail
  grind -ring -linarith [kept_State_emit, kept_State_setFld, kept_intro, of_kept]

theorem kept_State_setRails (s : State) (v : Bool) (x2 : List Nat) (hs : Kept Q ql s) : Kept Q ql (State.setRails s v x2) := by
  induction x2 generalizing s v with
  | nil => grind -ring -linarith [State.setRails, kept_State_setRail, kept_intro, of_kept]
  | cons x l ih => grind -ring -linarith [State.setRails, kept_State_setRail, kept_intro, of_kept]

theorem kept_State_stopClocks (s : State) (x1 : List Nat) (hs : Kept Q ql s) : Kept Q ql (State.stopClocks s x1) := by
  induction x1 generalizing s with
  | nil => grind -ring -linarith [State.stopClocks, kept_State_setFld, kept_State_setIsland, kept_intro, of_kept]
  | cons x l ih => grind -ring -linarith [State.stopClocks, kept_State_setFld, kept_State_setIsland, kept_intro, of_kept]

theorem kept_State_tryCage (s : State) (hs : Kept Q ql s) : Kept Q ql (State.tryCage s) := by
  unfold State.tryCage
  grind -ring -linarith [kept_State_setRail, kept_intro, of_kept]

theorem kept_State_enterDown (s : State) (n : Nat) (hs : Kept CanonLoft ql s) : Kept CanonLoft ql (State.enterDown s n) := by
  unfold State.enterDown
  grind -ring -linarith (splits := 20) (gen := 16) (ematch := 12) [kept_State_setFld, kept_State_loseVolatile, kept_State_setSeqBit, kept_State_arriveZero, kept_State_freeSync, kept_State_holdSync, kept_State_setRails, kept_State_stopClocks, kept_State_tryCage, kept_intro, of_kept]

theorem kept_State_setSeqOut (s : State) (v : Bool) (hs : Kept Q ql s) : Kept Q ql (State.setSeqOut s v) := by
  unfold State.setSeqOut
  grind -ring -linarith [kept_State_emit, kept_State_setSeqBit, kept_intro, of_kept]

theorem kept_State_beginDown (s : State) (flush : Bool) (hs : Kept CanonLoft ql s) : Kept CanonLoft ql (State.beginDown s flush) := by
  unfold State.beginDown
  grind -ring -linarith [kept_State_setNum, kept_State_enterDown, kept_State_setSeqOut, kept_intro, of_kept]

theorem kept_State_enterUp (s : State) (n : Nat) (bifur : Bool) (ftm : Bool) (hs : Kept CanonLoft ql s) : Kept CanonLoft ql (State.enterUp s n bifur ftm) := by
  unfold State.enterUp
  grind -ring -linarith [kept_State_setFld, kept_State_arriveUp, kept_State_holdSync, kept_State_setRails, kept_intro, of_kept]

theorem kept_State_powerDown (s : State) (hs : Kept CanonLoft ql s) : Kept CanonLoft ql (State.powerDown s) := by
  unfold State.powerDown
  grind -ring -linarith [kept_State_tryCage, kept_State_beginDown, kept_intro, of_kept]

theorem kept_State_recordFault (s : State) (cause : Nat) (rails : List Nat) (hs : Kept Q ql s) : Kept Q ql (State.recordFault s cause rails) := by
  unfold State.recordFault
  grind -ring -linarith [kept_State_setNum, kept_State_bump, kept_State_setFaultN, kept_State_setSeqBit, kept_State_setSeqOut, kept_State_seqFire, kept_intro, of_kept]

theorem kept_State_seqFault (s : State) (cause : Nat) (rails : List Nat) (hs : Kept Q ql s) : Kept Q ql (State.seqFault s cause rails) := by
  unfold State.seqFault
  grind -ring -linarith [kept_State_holdSync, kept_State_recordFault, kept_intro, of_kept]

theorem kept_State_railDown (s : State) (i : Nat) (hs : Kept CanonLoft ql s) : Kept CanonLoft ql (State.railDown s i) := by
  unfold State.railDown
  grind -ring -linarith [kept_State_setFld, kept_State_freeSync, kept_State_enterDown, kept_intro, of_kept]

end Sys2Proof.Machine
end

