-- ==== Sys2Proof/Laws/KeptFaults.lean ====
section
/-!
SUPPORT. What the operations of Faults keep (KeptBase.lean): the queue, a canonical register file, and a canonical Loft; a lemma that holds for every Q says the operation writes nothing in the Loft.
-/

set_option linter.unusedTactic false
set_option linter.unreachableTactic false
set_option linter.unusedVariables false

namespace Sys2Proof.Machine

variable {Q : KMap Byte → KMap Bool → Prop} {ql : List Instr}

theorem kept_State_hostInterrupt (s : State) (hs : Kept Q ql s) : Kept Q ql (State.hostInterrupt s) := by
  unfold State.hostInterrupt
  grind -ring -linarith [kept_State_signal, kept_State_signalBoth, kept_intro, of_kept]

theorem kept_State_stepAction (s : State) (f : Firing) (step : Nat) (w : Nat × Nat × Nat) (hs : Kept CanonLoft ql s) : Kept CanonLoft ql (State.stepAction s f step w) := by
  unfold State.stepAction
  grind -ring -linarith [kept_State_requestChip, kept_State_requestReset, kept_State_setFaultN, kept_intro, of_kept]

theorem kept_State_stewardNmi (s : State) (hs : Kept Q ql s) : Kept Q ql (State.stewardNmi s) := by
  unfold State.stewardNmi
  grind -ring -linarith [kept_State_emit, kept_intro, of_kept]

theorem kept_State_act (s : State) (f : Firing) (want : Nat) (esc : Bool) (expiry : Bool) (hs : Kept CanonLoft ql s) : Kept CanonLoft ql (State.act s f want esc expiry).2 := by
  unfold State.act
  grind -ring -linarith (splits := 20) (gen := 16) (ematch := 12) [kept_State_fire, kept_State_publish, kept_State_bump, kept_State_fireLimited, kept_State_hostInterrupt, kept_State_stepAction, kept_State_stewardNmi, kept_intro, of_kept]

theorem kept_State_showClass (s : State) (hs : Kept Q ql s) : Kept Q ql (State.showClass s) := by
  unfold State.showClass
  grind -ring -linarith [kept_State_setNum, kept_intro, of_kept]

theorem kept_State_setClass (s : State) (ty : Nat) (src : Nat) (v : FaultClass) (hs : Kept Q ql s) : Kept Q ql (State.setClass s ty src v) := by
  unfold State.setClass
  grind -ring -linarith [kept_State_setNum, kept_State_showClass, kept_intro, of_kept]

theorem kept_State_escalate (s : State) (f : Firing) (hs : Kept CanonLoft ql s) : Kept CanonLoft ql (State.escalate s f) := by
  unfold State.escalate
  grind -ring -linarith [kept_State_act, kept_State_setClass, kept_intro, of_kept]

theorem kept_State_openClass (s : State) (f : Firing) (hs : Kept CanonLoft ql s) : Kept CanonLoft ql (State.openClass s f) := by
  unfold State.openClass
  grind -ring -linarith [kept_State_act, kept_State_setClass, kept_intro, of_kept]

theorem kept_State_takeFiring (s : State) (f : Firing) (hs : Kept CanonLoft ql s) : Kept CanonLoft ql (State.takeFiring s f) := by
  unfold State.takeFiring
  grind -ring -linarith [kept_State_act, kept_State_escalate, kept_State_openClass, kept_intro, of_kept]

theorem kept_execClassAckWrite (req : Requester) (data : Word) (s : State) (hs : Kept Q ql s) : ∀ out, execClassAckWrite req data s = .next out → Kept Q ql out := by
  intro out e
  unfold execClassAckWrite at e
  grind -ring -linarith [kept_State_bump, kept_State_setClass, kept_State_guarded, kept_intro, of_kept]

theorem kept_execClassCfgWrite (req : Requester) (data : Word) (s : State) (hs : Kept Q ql s) : ∀ out, execClassCfgWrite req data s = .next out → Kept Q ql out := by
  intro out e
  unfold execClassCfgWrite at e
  grind -ring -linarith [kept_State_setClass, kept_State_guarded, kept_intro, of_kept]

theorem kept_execFaultNClrWrite (req : Requester) (data : Word) (s : State) (hs : Kept Q ql s) : ∀ out, execFaultNClrWrite req data s = .next out → Kept Q ql out := by
  intro out e
  unfold execFaultNClrWrite at e
  grind -ring -linarith [kept_State_setFaultN, kept_State_guarded, kept_intro, of_kept]

theorem kept_execFcInjectWrite (req : Requester) (data : Word) (s : State) (hs : Kept CanonLoft ql s) : ∀ out, execFcInjectWrite req data s = .next out → Kept CanonLoft ql out := by
  intro out e
  unfold execFcInjectWrite at e
  grind -ring -linarith [kept_State_bump, kept_State_guarded, kept_State_noteEvent, kept_State_takeFiring, kept_intro, of_kept]

theorem kept_execFcFiringArrival (s : State) (hs : Kept CanonLoft ql s) : ∀ out, execFcFiringArrival s = .next out → Kept CanonLoft ql out := by
  intro out e
  unfold execFcFiringArrival at e
  grind -ring -linarith [kept_State_noteEvent, kept_State_takeFiring, kept_intro, of_kept]

theorem kept_execGraceExpire (ty : Nat) (src : Nat) (s : State) (hs : Kept CanonLoft ql s) : ∀ out, execGraceExpire ty src s = .next out → Kept CanonLoft ql out := by
  intro out e
  unfold execGraceExpire at e
  grind -ring -linarith [kept_State_bump, kept_State_act, kept_State_setClass, kept_intro, of_kept]

end Sys2Proof.Machine
end

