-- ==== Sys2Proof/Laws/KeptLockstep.lean ====
section
/-!
SUPPORT. What the operations of Lockstep keep (KeptBase.lean): the queue, a canonical register file, and a canonical Loft; a lemma that holds for every Q says the operation writes nothing in the Loft.
-/

set_option linter.unusedTactic false
set_option linter.unreachableTactic false
set_option linter.unusedVariables false

namespace Sys2Proof.Machine

variable {Q : KMap Byte → KMap Bool → Prop} {ql : List Instr}

theorem kept_State_setStw (s : State) (v : Nat) (hs : Kept Q ql s) : Kept Q ql (State.setStw s v) := by
  unfold State.setStw
  grind -ring -linarith [kept_State_setFld, kept_intro, of_kept]

theorem kept_State_enterChecked (s : State) (hs : Kept Q ql s) : Kept Q ql (State.enterChecked s) := by
  unfold State.enterChecked
  grind -ring -linarith [kept_State_setFld, kept_State_setStw, kept_intro, of_kept]

theorem kept_State_afterTransient (s : State) (hs : Kept Q ql s) : Kept Q ql (State.afterTransient s) := by
  unfold State.afterTransient
  grind -ring -linarith [kept_State_setStw, kept_State_enterChecked, kept_intro, of_kept]

theorem kept_State_answerQueued (s : State) (x1 : List (Nat × Plane)) (hs : Kept Q ql s) : Kept Q ql (State.answerQueued s x1) := by
  induction x1 generalizing s with
  | nil => grind -ring -linarith [State.answerQueued, kept_State_emit, kept_foldl, kept_intro, of_kept]
  | cons x l ih => grind -ring -linarith [State.answerQueued, kept_State_emit, kept_foldl, kept_intro, of_kept]

theorem kept_State_beginOutage (s : State) (hs : Kept Q ql s) : Kept Q ql (State.beginOutage s) := by
  unfold State.beginOutage
  grind -ring -linarith [kept_intro, of_kept]

theorem kept_State_noteOutage (s : State) (us : Nat) (hs : Kept Q ql s) : Kept Q ql (State.noteOutage s us) := by
  unfold State.noteOutage
  grind -ring -linarith [kept_State_setNum, kept_State_setMax, kept_intro, of_kept]

theorem kept_State_serveWaiting (s : State) (hs : Kept Q ql s) : Kept Q ql (State.serveWaiting s) := by
  unfold State.serveWaiting
  grind -ring -linarith [kept_State_emit, kept_State_answerQueued, kept_intro, of_kept]

theorem kept_State_endOutage (s : State) (hs : Kept Q ql s) : Kept Q ql (State.endOutage s) := by
  unfold State.endOutage
  grind -ring -linarith [kept_State_noteOutage, kept_State_serveWaiting, kept_intro, of_kept]

theorem kept_State_showLog (s : State) (hs : Kept Q ql s) : Kept Q ql (State.showLog s) := by
  unfold State.showLog
  grind -ring -linarith [kept_State_setFld, kept_intro, of_kept]

theorem kept_State_takeCheckpoint (s : State) (k : Nat) (hs : Kept Q ql s) : Kept Q ql (State.takeCheckpoint s k) := by
  unfold State.takeCheckpoint
  grind -ring -linarith [kept_State_setFld, kept_State_bump, kept_State_showLog, kept_intro, of_kept]

theorem kept_State_coreBist (s : State) (i : Nat) (ok : Bool) (hs : Kept Q ql s) : Kept Q ql (State.coreBist s i ok) := by
  unfold State.coreBist
  grind -ring -linarith [kept_State_fire, kept_State_publish, kept_intro, of_kept]

theorem kept_State_corePg (s : State) (i : Nat) (v : Service) (hs : Kept Q ql s) : Kept Q ql (State.corePg s i v) := by
  unfold State.corePg
  grind -ring -linarith [kept_State_setPg, kept_intro, of_kept]

theorem kept_State_dropOutput (s : State) (hs : Kept Q ql s) : Kept Q ql (State.dropOutput s) := by
  unfold State.dropOutput
  grind -ring -linarith [kept_State_bump, kept_State_fireLimited, kept_intro, of_kept]

theorem kept_State_dropSwap (s : State) (hs : Kept Q ql s) : Kept Q ql (State.dropSwap s) := by
  unfold State.dropSwap
  grind -ring -linarith [kept_State_complete, kept_intro, of_kept]

theorem kept_State_enterUnchecked (s : State) (hs : Kept Q ql s) : Kept Q ql (State.enterUnchecked s) := by
  unfold State.enterUnchecked
  grind -ring -linarith [kept_State_fire, kept_State_setFld, kept_State_setStw, kept_intro, of_kept]

theorem kept_State_retireEpoch (s : State) (i : Nat) (hs : Kept Q ql s) : Kept Q ql (State.retireEpoch s i) := by
  unfold State.retireEpoch
  grind -ring -linarith [kept_State_setFld, kept_intro, of_kept]

theorem kept_State_failCore (s : State) (i : Nat) (hs : Kept Q ql s) : Kept Q ql (State.failCore s i) := by
  unfold State.failCore
  grind -ring -linarith [kept_State_setFld, kept_State_retirePage, kept_State_retireEpoch, kept_intro, of_kept]

theorem kept_State_showRole (s : State) (lead : Nat) (shadow : Nat) (spare : Nat) (i : Nat) (hs : Kept Q ql s) : Kept Q ql (State.showRole s lead shadow spare i) := by
  unfold State.showRole
  grind -ring -linarith [kept_State_setFld, kept_State_corePg, kept_intro, of_kept]

theorem kept_State_setRoles (s : State) (lead : Nat) (shadow : Nat) (spare : Nat) (hs : Kept Q ql s) : Kept Q ql (State.setRoles s lead shadow spare) := by
  unfold State.setRoles
  grind -ring -linarith [kept_State_setFld, kept_State_showRole, kept_intro, of_kept]

theorem kept_State_rollBack (s : State) (hs : Kept Q ql s) : Kept Q ql (State.rollBack s) := by
  unfold State.rollBack
  grind -ring -linarith [kept_State_fire, kept_State_complete, kept_State_setRoles, kept_intro, of_kept]

theorem kept_State_finishSwap (s : State) (op : Nat) (core : Nat) (retire : Bool) (hs : Kept Q ql s) : Kept Q ql (State.finishSwap s op core retire) := by
  unfold State.finishSwap
  grind -ring -linarith (splits := 20) (gen := 16) (ematch := 12) [kept_State_fire, kept_State_complete, kept_State_fresh, kept_State_enterChecked, kept_State_noteOutage, kept_State_serveWaiting, kept_State_takeCheckpoint, kept_State_retireEpoch, kept_State_failCore, kept_State_setRoles, kept_intro, of_kept]

theorem kept_State_flushAlone (s : State) (hs : Kept Q ql s) : Kept Q ql (State.flushAlone s) := by
  unfold State.flushAlone
  grind -ring -linarith [kept_State_endOutage, kept_State_dropSwap, kept_State_enterUnchecked, kept_State_setRoles, kept_State_rollBack, kept_intro, of_kept]

theorem kept_State_noteTransient (s : State) (hs : Kept Q ql s) : Kept Q ql (State.noteTransient s) := by
  unfold State.noteTransient
  grind -ring -linarith [kept_State_setFld, kept_intro, of_kept]

theorem kept_State_noteUndo (s : State) (x1 : List Nat) (hs : Kept Q ql s) : Kept Q ql (State.noteUndo s x1) := by
  induction x1 generalizing s with
  | nil => exact hs
  | cons x l ih =>
    unfold State.noteUndo
    split
    · exact ih _ hs
    · exact ih _ hs

theorem kept_State_release (s : State) (kind : OutputKind) (addr : Nat) (data : List Byte) (inputs : Nat) (hs : Kept Q ql s) : Kept Q ql (State.release s kind addr data inputs) := by
  unfold State.release
  grind -ring -linarith [kept_State_showLog, kept_State_noteUndo, kept_intro, of_kept]

theorem kept_State_restart (s : State) (hs : Kept Q ql s) : Kept Q ql (State.restart s) := by
  unfold State.restart
  grind -ring -linarith [kept_State_bump, kept_State_endOutage, kept_intro, of_kept]

theorem kept_State_spareBack (s : State) (i : Nat) (hs : Kept Q ql s) : Kept Q ql (State.spareBack s i) := by
  unfold State.spareBack
  grind -ring -linarith [kept_State_setStw, kept_State_beginOutage, kept_State_takeCheckpoint, kept_State_setRoles, kept_intro, of_kept]

theorem kept_State_surviveWith (s : State) (good : Nat) (bad : Nat) (hs : Kept Q ql s) : Kept Q ql (State.surviveWith s good bad) := by
  unfold State.surviveWith
  grind -ring -linarith [kept_State_setStw, kept_State_enterUnchecked, kept_State_failCore, kept_State_setRoles, kept_State_restart, kept_intro, of_kept]

theorem kept_State_unretire (s : State) (page : Nat) (hs : Kept Q ql s) : Kept Q ql (State.unretire s page) := by
  unfold State.unretire
  grind -ring -linarith [kept_State_setPg, kept_intro, of_kept]

theorem kept_execWdogWrite (req : Requester) (s : State) (hs : Kept Q ql s) : ∀ out, execWdogWrite req s = .next out → Kept Q ql out := by
  intro out e
  unfold execWdogWrite at e
  grind -ring -linarith [kept_State_guarded, kept_intro, of_kept]

theorem kept_execCheckpoint (early : Bool) (s : State) (hs : Kept Q ql s) : ∀ out, execCheckpoint early s = .next out → Kept Q ql out := by
  intro out e
  unfold execCheckpoint at e
  grind -ring -linarith [kept_State_bump, kept_State_takeCheckpoint, kept_intro, of_kept]

theorem kept_execCoreBistDone (leadOk : Bool) (shadowOk : Bool) (s : State) (hs : Kept Q ql s) : ∀ out, execCoreBistDone leadOk shadowOk s = .next out → Kept Q ql out := by
  intro out e
  unfold execCoreBistDone at e
  grind -ring -linarith (splits := 20) (gen := 16) (ematch := 12) [kept_State_afterTransient, kept_State_coreBist, kept_State_enterUnchecked, kept_State_failCore, kept_State_setRoles, kept_State_noteTransient, kept_State_restart, kept_State_surviveWith, kept_intro, of_kept]

theorem kept_execCoreSwap (c : AdminCmd) (s : State) (hs : Kept Q ql s) : ∀ out, execCoreSwap c s = .next out → Kept Q ql out := by
  intro out e
  unfold execCoreSwap at e
  grind -ring -linarith [kept_State_adminRun, kept_State_setStw, kept_intro, of_kept]

theorem kept_execFenceOutput (slot : Nat) (epoch : Nat) (kind : OutputKind) (addr : Nat) (data : List Byte) (inputs : Nat) (s : State) (hs : Kept Q ql s) : ∀ out, execFenceOutput slot epoch kind addr data inputs s = .next out → Kept Q ql out := by
  intro out e
  unfold execFenceOutput at e
  grind -ring -linarith [kept_State_publish, kept_State_dropOutput, kept_State_release, kept_intro, of_kept]

theorem kept_execMiscompare (s : State) (hs : Kept Q ql s) : ∀ out, execMiscompare s = .next out → Kept Q ql out := by
  intro out e
  unfold execMiscompare at e
  grind -ring -linarith [kept_State_fire, kept_State_bump, kept_State_setStw, kept_State_beginOutage, kept_State_dropSwap, kept_State_rollBack, kept_intro, of_kept]

theorem kept_execPageBistDone (page : Nat) (passed : Bool) (s : State) (hs : Kept Q ql s) : ∀ out, execPageBistDone page passed s = .next out → Kept Q ql out := by
  intro out e
  unfold execPageBistDone at e
  grind -ring -linarith [kept_State_setPg, kept_State_coreBist, kept_State_spareBack, kept_State_unretire, kept_intro, of_kept]

theorem kept_execReplayEnd (matched : Bool) (s : State) (hs : Kept Q ql s) : ∀ out, execReplayEnd matched s = .next out → Kept Q ql out := by
  intro out e
  unfold execReplayEnd at e
  grind -ring -linarith [kept_State_fire, kept_State_serveWaiting, kept_intro, of_kept]

theorem kept_execRunBist (c : AdminCmd) (s : State) (hs : Kept Q ql s) : ∀ out, execRunBist c s = .next out → Kept Q ql out := by
  intro out e
  unfold execRunBist at e
  grind -ring -linarith [kept_State_adminRun, kept_intro, of_kept]

theorem kept_execSpareLoaded (ok : Bool) (s : State) (hs : Kept Q ql s) : ∀ out, execSpareLoaded ok s = .next out → Kept Q ql out := by
  intro out e
  unfold execSpareLoaded at e
  grind -ring -linarith (splits := 20) (gen := 16) (ematch := 12) [kept_State_enterChecked, kept_State_coreBist, kept_State_dropSwap, kept_State_enterUnchecked, kept_State_failCore, kept_State_setRoles, kept_State_finishSwap, kept_State_restart, kept_intro, of_kept]

theorem kept_execStewardWatchdog (s : State) (hs : Kept Q ql s) : ∀ out, execStewardWatchdog s = .next out → Kept Q ql out := by
  intro out e
  unfold execStewardWatchdog at e
  grind -ring -linarith [kept_State_fire, kept_intro, of_kept]

end Sys2Proof.Machine
end

