-- ==== Sys2Proof/Laws/KeptReads.lean ====
section
/-!
SUPPORT. What the operations of Reads keep (KeptBase.lean): the queue, a canonical register file, and a canonical Loft; a lemma that holds for every Q says the operation writes nothing in the Loft.
-/

set_option linter.unusedTactic false
set_option linter.unreachableTactic false
set_option linter.unusedVariables false

namespace Sys2Proof.Machine

variable {Q : KMap Byte → KMap Bool → Prop} {ql : List Instr}

theorem kept_State_batch (s : State) (x1 : List Nat) (hs : Kept Q ql s) : Kept Q ql (State.batch s x1) := by
  induction x1 generalizing s with
  | nil => grind -ring -linarith [State.batch, kept_State_bump, kept_State_fireLimited, kept_State_setPp, kept_intro, of_kept]
  | cons x l ih => grind -ring -linarith [State.batch, kept_State_bump, kept_State_fireLimited, kept_State_setPp, kept_intro, of_kept]

theorem kept_State_buildResponses (fuel : Nat) (s : State) (j : ReadJob) (hs : Kept Q ql s) : Kept Q ql (State.buildResponses fuel s j) := by
  induction fuel generalizing s j with
  | zero => grind -ring -linarith (splits := 20) (gen := 16) (ematch := 12) [State.buildResponses, kept_State_setQp, kept_State_setPlane, kept_State_setJob, kept_State_askPiece, kept_intro, of_kept]
  | succ n ih => grind -ring -linarith (splits := 20) (gen := 16) (ematch := 12) [State.buildResponses, kept_State_setQp, kept_State_setPlane, kept_State_setJob, kept_State_askPiece, kept_intro, of_kept]

theorem kept_State_unqueue (s : State) (plane : Nat) (r : Response) (hs : Kept Q ql s) : Kept Q ql (State.unqueue s plane r) := by
  unfold State.unqueue
  grind -ring -linarith [kept_State_setPlane, kept_intro, of_kept]

theorem kept_State_depart (s : State) (plane : Nat) (r : Response) (hs : Kept Q ql s) : Kept Q ql (State.depart s plane r) := by
  unfold State.depart
  grind -ring -linarith (splits := 20) (gen := 16) (ematch := 12) [kept_State_setQp, kept_State_emit, kept_State_failMessage, kept_State_bump, kept_State_setPp, kept_State_noteExhausted, kept_State_sealCount, kept_State_settleAll, kept_State_tallyAdd, kept_State_completeMsgs, kept_State_setTracker, kept_State_setPlane, kept_State_unqueue, kept_intro, of_kept]

theorem kept_State_visit (fuel : Nat) (s : State) (plane : Nat) (x3 : List Nat) (hs : Kept Q ql s) : Kept Q ql (State.visit fuel s plane x3) := by
  induction fuel generalizing s plane x3 with
  | zero =>
    unfold State.visit
    try dsimp only
    repeat' (first | with_reducible assumption | with_reducible apply ih | with_reducible apply kept_State_bump | with_reducible apply kept_State_setPlane | with_reducible apply kept_State_depart | split | intro _ | (apply kept_intro; dsimp only; apply of_kept))
    all_goals grind -ring -linarith [kept_State_bump, kept_State_setPlane, kept_State_depart, kept_intro, of_kept]
  | succ n ih =>
    unfold State.visit
    try dsimp only
    repeat' (first | with_reducible assumption | with_reducible apply ih | with_reducible apply kept_State_bump | with_reducible apply kept_State_setPlane | with_reducible apply kept_State_depart | split | intro _ | (apply kept_intro; dsimp only; apply of_kept))
    all_goals grind -ring -linarith [kept_State_bump, kept_State_setPlane, kept_State_depart, kept_intro, of_kept]

theorem kept_execRateProbeWrite (req : Requester) (data : Word) (s : State) (hs : Kept Q ql s) : ∀ out, execRateProbeWrite req data s = .next out → Kept Q ql out := by
  intro out e
  unfold execRateProbeWrite at e
  grind -ring -linarith [kept_State_publish, kept_State_guarded, kept_intro, of_kept]

theorem kept_execRateBatch (done : Bool) (s : State) (hs : Kept Q ql s) : ∀ out, execRateBatch done s = .next out → Kept Q ql out := by
  intro out e
  unfold execRateBatch at e
  grind -ring -linarith [kept_State_bump, kept_State_fireLimited, kept_State_batch, kept_intro, of_kept]

theorem kept_execReadDataReady (qpn : Nat) (msn : Nat) (resend : Bool) (s : State) (hs : Kept Q ql s) : ∀ out, execReadDataReady qpn msn resend s = .next out → Kept Q ql out := by
  intro out e
  unfold execReadDataReady at e
  grind -ring -linarith [kept_State_buildResponses, kept_intro, of_kept]

theorem kept_execReadRespDepart (plane : Nat) (s : State) (hs : Kept Q ql s) : ∀ out, execReadRespDepart plane s = .next out → Kept Q ql out := by
  intro out e
  unfold execReadRespDepart at e
  grind -ring -linarith [kept_State_setPlane, kept_State_depart, kept_State_visit, kept_intro, of_kept]

end Sys2Proof.Machine
end

