-- ==== Sys2Proof/Laws/KeptAccess.lean ====
section
/-!
SUPPORT. What the operations of Access keep (KeptBase.lean): the queue, a canonical register file, and a canonical Loft; a lemma that holds for every Q says the operation writes nothing in the Loft.
-/

set_option linter.unusedTactic false
set_option linter.unreachableTactic false
set_option linter.unusedVariables false

namespace Sys2Proof.Machine

variable {Q : KMap Byte → KMap Bool → Prop} {ql : List Instr}

theorem kept_Res_state (s : State) (x1 : Res) (hs : Kept Q ql s) (hx1 : ∀ t, x1 = .next t → Kept Q ql t) : Kept Q ql (Res.state s x1) := by
  unfold Res.state
  grind -ring -linarith [kept_intro, of_kept]

theorem kept_State_writeAttic (s : State) (req : Requester) (data : Word) (hs : Kept Q ql s) : Kept Q ql (State.writeAttic s req data) := by
  unfold State.writeAttic
  grind -ring -linarith [kept_State_writeFields, kept_intro, of_kept]

theorem kept_State_writeCounter (s : State) (req : Requester) (page : Nat) (off : Nat) (data : Word) (hs : Kept Q ql s) : Kept Q ql (State.writeCounter s req page off data) := by
  unfold State.writeCounter
  grind -ring -linarith [kept_Res_state, kept_execCounterClearWrite, kept_execCounterOverflowClear, kept_execCounterSelectWrite, kept_intro, of_kept]

theorem kept_State_writeFc (s : State) (req : Requester) (off : Nat) (data : Word) (hs : Kept CanonLoft ql s) : Kept CanonLoft ql (State.writeFc s req off data) := by
  unfold State.writeFc
  grind -ring -linarith [kept_Res_state, kept_State_showClass, kept_State_writeFields, kept_execClassAckWrite, kept_execClassCfgWrite, kept_execFaultNClrWrite, kept_execFcInjectWrite, kept_intro, of_kept]

theorem kept_State_writeScan (s : State) (req : Requester) (data : Word) (hs : Kept Q ql s) : Kept Q ql (State.writeScan s req data) := by
  unfold State.writeScan
  grind -ring -linarith [kept_Res_state, kept_State_writeFields, kept_execScanAbort, kept_execScanStart, kept_intro, of_kept]

theorem kept_State_writeBlock (s : State) (req : Requester) (page : Nat) (off : Nat) (data : Word) (hs : Kept CanonLoft ql s) : Kept CanonLoft ql (State.writeBlock s req page off data) := by
  unfold State.writeBlock
  dsimp only
  split
  · exact kept_Res_state _ _ hs (kept_execResultAckWrite _ _ _ _ _ hs)
  split
  · exact kept_State_writeCounter _ _ _ _ _ hs
  split
  · exact kept_State_writeFc _ _ _ _ hs
  split
  · exact kept_Res_state _ _ hs (kept_execRateProbeWrite _ _ _ hs)
  · exact kept_Res_state _ _ hs (kept_execTenantDirtyProbe _ _ _ hs)
  · exact kept_Res_state _ _ hs (kept_execWitnessVerdictWrite _ _ _ hs)
  · exact kept_Res_state _ _ hs (kept_execPortEnWrite _ _ _ hs)
  · exact kept_Res_state _ _ hs (kept_execLunRetireWrite _ _ _ _ hs)
  · exact kept_Res_state _ _ hs (kept_execRetrainReqWrite _ _ _ _ hs)
  · exact kept_State_writeScan _ _ _ hs
  · exact kept_Res_state _ _ hs (kept_execSlotProbeWrite _ _ _ hs)
  · exact kept_Res_state _ _ hs (kept_execWdogWrite _ _ hs)
  · exact kept_State_writeAttic _ _ _ hs
  · exact kept_Res_state _ _ hs (kept_execTallyRingHeadWrite _ _ _ hs)
  · exact kept_Res_state _ _ hs (kept_execTallyProbeWrite _ _ _ hs)
  · exact kept_Res_state _ _ hs (kept_execRtcSetGo _ _ _ hs)
  · split
    · exact kept_Res_state _ _ hs (kept_execFreqReqWrite _ _ _ _ hs)
    · exact kept_State_writeFields _ _ _ _ hs
  · exact kept_State_writeFields _ _ _ _ hs

theorem kept_State_writeCtrl (s : State) (req : Requester) (page : Nat) (data : Word) (hs : Kept CanonLoft ql s) : Kept CanonLoft ql (State.writeCtrl s req page data) := by
  unfold State.writeCtrl
  grind -ring -linarith [kept_Res_state, kept_execBypassEnd, kept_execBypassReq, kept_execPgCtrlDrain, kept_execPgCtrlDrill, kept_execPgCtrlEnable, kept_execResetReq, kept_intro, of_kept]

theorem kept_State_writeHeader (s : State) (req : Requester) (page : Nat) (off : Nat) (data : Word) (hs : Kept CanonLoft ql s) : Kept CanonLoft ql (State.writeHeader s req page off data) := by
  unfold State.writeHeader
  grind -ring -linarith [kept_Res_state, kept_State_setReg, kept_State_writeCtrl, kept_execEvFirstWrite, kept_execEvInjectWrite, kept_execEvStatusWrite, kept_intro, of_kept]

theorem kept_State_writeMsix (s : State) (fn : Fn) (addr : Nat) (data : Word) (hs : Kept Q ql s) : Kept Q ql (State.writeMsix s fn addr data) := by
  unfold State.writeMsix
  grind -ring -linarith [kept_State_emit, kept_State_setMsixPend, kept_State_setMsixWord, kept_intro, of_kept]

theorem kept_State_writePx (s : State) (fn : Fn) (off : Nat) (data : Word) (hs : Kept Q ql s) : Kept Q ql (State.writePx s fn off data) := by
  unfold State.writePx
  grind -ring -linarith [kept_Res_state, kept_State_writeFields, kept_execApertureBaseWrite, kept_execAqEnableClear, kept_execAqEnableSet, kept_execCqHeadDoorbell, kept_execSqTailDoorbell, kept_intro, of_kept]

theorem kept_State_writeRegister (s : State) (req : Requester) (page : Nat) (off : Nat) (data : Word) (hs : Kept CanonLoft ql s) : Kept CanonLoft ql (State.writeRegister s req page off data) := by
  unfold State.writeRegister
  grind -ring -linarith [kept_Res_state, kept_State_lockDrop, kept_State_writeBlock, kept_State_writeHeader, kept_State_writePx, kept_execPgLockWrite, kept_intro, of_kept]

theorem kept_execRegisterWrite (req : Requester) (bar : Nat) (addr : Nat) (data : Word) (s : State) (hs : Kept CanonLoft ql s) : ∀ out, execRegisterWrite req bar addr data s = .next out → Kept CanonLoft ql out := by
  intro out e
  unfold execRegisterWrite at e
  grind -ring -linarith [kept_Res_state, kept_State_writeMsix, kept_State_writeRegister, kept_execBar2Write, kept_intro, of_kept]

end Sys2Proof.Machine
end

