-- ==== Sys2Proof/Laws/KeptGranary.lean ====
section
/-!
SUPPORT. What the operations of Granary keep (KeptBase.lean): the queue, a canonical register file, and a canonical Loft; a lemma that holds for every Q says the operation writes nothing in the Loft.
-/

set_option linter.unusedTactic false
set_option linter.unreachableTactic false
set_option linter.unusedVariables false

namespace Sys2Proof.Machine

variable {Q : KMap Byte → KMap Bool → Prop} {ql : List Instr}

theorem kept_State_setCharging (s : State) (v : Bool) (hs : Kept Q ql s) : Kept Q ql (State.setCharging s v) := by
  unfold State.setCharging
  grind -ring -linarith [kept_State_setFld, kept_intro, of_kept]

theorem kept_State_endBank (s : State) (hs : Kept Q ql s) : Kept Q ql (State.endBank s) := by
  unfold State.endBank
  grind -ring -linarith [kept_State_setFld, kept_State_setCharging, kept_intro, of_kept]

theorem kept_State_endRuns (s : State) (status : Nat) (r0 : Nat) (x3 : List Nat) (hs : Kept Q ql s) : Kept Q ql (State.endRuns s status r0 x3) := by
  induction x3 generalizing s status r0 with
  | nil => grind -ring -linarith [State.endRuns, kept_State_complete, kept_intro, of_kept]
  | cons x l ih => grind -ring -linarith [State.endRuns, kept_State_complete, kept_intro, of_kept]

theorem kept_State_abandonAll (s : State) (hs : Kept Q ql s) : Kept Q ql (State.abandonAll s) := by
  unfold State.abandonAll
  grind -ring -linarith [kept_State_endBank, kept_State_endRuns, kept_intro, of_kept]

theorem kept_State_dropResets (s : State) (x1 : List Nat) (hs : Kept Q ql s) : Kept Q ql (State.dropResets s x1) := by
  induction x1 generalizing s with
  | nil => grind -ring -linarith [State.dropResets, kept_State_setFld, kept_State_setRegion, kept_intro, of_kept]
  | cons x l ih => grind -ring -linarith [State.dropResets, kept_State_setFld, kept_State_setRegion, kept_intro, of_kept]

theorem kept_State_endOps (s : State) (status : Nat) (x2 : List Nat) (hs : Kept Q ql s) : Kept Q ql (State.endOps s status x2) := by
  induction x2 generalizing s status with
  | nil => grind -ring -linarith [State.endOps, kept_State_complete, kept_intro, of_kept]
  | cons x l ih => grind -ring -linarith [State.endOps, kept_State_complete, kept_intro, of_kept]

theorem kept_State_cancelResets (s : State) (hs : Kept Q ql s) : Kept Q ql (State.cancelResets s) := by
  unfold State.cancelResets
  grind -ring -linarith [kept_State_dropResets, kept_State_endOps, kept_intro, of_kept]

theorem kept_State_setPhase (s : State) (v : Nat) (hs : Kept Q ql s) : Kept Q ql (State.setPhase s v) := by
  unfold State.setPhase
  grind -ring -linarith [kept_State_setFld, kept_State_abandonAll, kept_intro, of_kept]

theorem kept_State_endStay (s : State) (hs : Kept Q ql s) : Kept Q ql (State.endStay s) := by
  unfold State.endStay
  grind -ring -linarith [kept_State_setFaultN, kept_State_setSeqBit, kept_intro, of_kept]

theorem kept_State_enterTc (s : State) (hs : Kept CanonLoft ql s) : Kept CanonLoft ql (State.enterTc s) := by
  unfold State.enterTc
  grind -ring -linarith [kept_State_setFld, kept_State_checkTc, kept_intro, of_kept]

theorem kept_State_eraseZones (s : State) (i : Image) (x2 : List Nat) (hs : Kept Q ql s) : Kept Q ql (State.eraseZones s i x2) := by
  induction x2 generalizing s i with
  | nil => grind -ring -linarith [State.eraseZones, kept_intro, of_kept]
  | cons x l ih => grind -ring -linarith [State.eraseZones, kept_intro, of_kept]

theorem kept_State_eraseImages (s : State) (x1 : List Image) (hs : Kept Q ql s) : Kept Q ql (State.eraseImages s x1) := by
  induction x1 generalizing s with
  | nil => grind -ring -linarith [State.eraseImages, kept_State_eraseZones, kept_intro, of_kept]
  | cons x l ih => grind -ring -linarith [State.eraseImages, kept_State_eraseZones, kept_intro, of_kept]

theorem kept_State_stopHarvests (s : State) (x1 : List Nat) (hs : Kept Q ql s) : Kept Q ql (State.stopHarvests s x1) := by
  induction x1 generalizing s with
  | nil => grind -ring -linarith [State.stopHarvests, kept_State_setDirty, kept_intro, of_kept]
  | cons x l ih => grind -ring -linarith [State.stopHarvests, kept_State_setDirty, kept_intro, of_kept]

theorem kept_State_stopEngines (s : State) (hs : Kept CanonLoft ql s) : Kept CanonLoft ql (State.stopEngines s) := by
  unfold State.stopEngines
  grind -ring -linarith (splits := 20) (gen := 16) (ematch := 12) [kept_State_poisonPages, kept_State_setLocks, kept_State_breakBypasses, kept_State_stopHarvests, kept_intro, of_kept]

theorem kept_State_startFlush (s : State) (hs : Kept CanonLoft ql s) : Kept CanonLoft ql (State.startFlush s) := by
  unfold State.startFlush
  try dsimp only
  repeat' (first | with_reducible assumption | with_reducible apply kept_State_setNum | with_reducible apply kept_State_fire | with_reducible apply kept_State_setFld | with_reducible apply kept_State_setCharging | with_reducible apply kept_State_bump | with_reducible apply kept_State_notice | with_reducible apply kept_State_writeBackAll | with_reducible apply kept_State_cancelResets | with_reducible apply kept_State_setPhase | with_reducible apply kept_State_copyHist | with_reducible apply kept_State_copyTally | with_reducible apply kept_State_flushAlone | with_reducible apply kept_State_stopEngines | split | intro _ | (apply kept_intro; dsimp only; apply of_kept))

theorem kept_State_flushDown (s : State) (hs : Kept CanonLoft ql s) : Kept CanonLoft ql (State.flushDown s) := by
  unfold State.flushDown
  grind -ring -linarith [kept_State_beginDown, kept_State_setPhase, kept_State_startFlush, kept_intro, of_kept]

theorem kept_State_lateLedger (s : State) (hs : Kept CanonLoft ql s) : Kept CanonLoft ql (State.lateLedger s) := by
  unfold State.lateLedger
  grind -ring -linarith [kept_State_fire, kept_State_setFld, kept_State_bump, kept_State_fireLimited, kept_State_setBudget, kept_intro, of_kept]

theorem kept_State_ledgerSamples (s : State) (vbus : Nat) (vb : Nat) (pIn : Nat) (hs : Kept Q ql s) : Kept Q ql (State.ledgerSamples s vbus vb pIn) := by
  unfold State.ledgerSamples
  grind -ring -linarith [kept_State_sample, kept_foldl, kept_intro, of_kept]

theorem kept_State_loadAways (s : State) (x1 : List Nat) (hs : Kept CanonLoft ql s) : Kept CanonLoft ql (State.loadAways s x1) := by
  induction x1 generalizing s with
  | nil => grind -ring -linarith [State.loadAways, kept_State_loadAway, kept_intro, of_kept]
  | cons x l ih => grind -ring -linarith [State.loadAways, kept_State_loadAway, kept_intro, of_kept]

theorem kept_State_loadImageKey (s : State) (i : Image) (hs : Kept Q ql s) : Kept Q ql (State.loadImageKey s i) := by
  unfold State.loadImageKey
  grind -ring -linarith [kept_State_setSlot, kept_intro, of_kept]

theorem kept_State_mergeGathers (s : State) (x1 : List ZonePage) (hs : Kept CanonLoft ql s) : Kept CanonLoft ql (State.mergeGathers s x1) := by
  induction x1 generalizing s with
  | nil => grind -ring -linarith [State.mergeGathers, kept_State_fillLines, kept_intro, of_kept]
  | cons x l ih => grind -ring -linarith [State.mergeGathers, kept_State_fillLines, kept_intro, of_kept]

theorem kept_State_noteFlushEnergy (s : State) (pages : Nat) (hs : Kept Q ql s) : Kept Q ql (State.noteFlushEnergy s pages) := by
  unfold State.noteFlushEnergy
  grind -ring -linarith [kept_State_fresh, kept_intro, of_kept]

theorem kept_State_noteTrip (s : State) (hs : Kept Q ql s) : Kept Q ql (State.noteTrip s) := by
  unfold State.noteTrip
  grind -ring -linarith [kept_intro, of_kept]

theorem kept_State_poisonBehind (s : State) (x1 : List Nat) (hs : Kept CanonLoft ql s) : Kept CanonLoft ql (State.poisonBehind s x1) := by
  induction x1 generalizing s with
  | nil => grind -ring -linarith [State.poisonBehind, kept_State_loadPage, kept_intro, of_kept]
  | cons x l ih => grind -ring -linarith [State.poisonBehind, kept_State_loadPage, kept_intro, of_kept]

theorem kept_State_ride (s : State) (hs : Kept CanonLoft ql s) : Kept CanonLoft ql (State.ride s) := by
  unfold State.ride
  grind -ring -linarith (splits := 20) (gen := 16) (ematch := 12) [kept_State_setFld, kept_State_setCharging, kept_State_bump, kept_State_checkTc, kept_State_notice, kept_State_setPhase, kept_State_powerDown, kept_intro, of_kept]

theorem kept_State_rideDown (s : State) (hs : Kept Q ql s) : Kept Q ql (State.rideDown s) := by
  unfold State.rideDown
  grind -ring -linarith [kept_State_setFld, kept_State_setCharging, kept_State_bump, kept_State_notice, kept_intro, of_kept]

theorem kept_State_powerLoss (s : State) (hs : Kept CanonLoft ql s) : Kept CanonLoft ql (State.powerLoss s) := by
  unfold State.powerLoss
  grind -ring -linarith (splits := 20) (gen := 16) (ematch := 12) [kept_State_fire, kept_State_endBank, kept_State_bump, kept_State_holdSync, kept_State_noteTrip, kept_State_ride, kept_State_rideDown, kept_State_seqFault, kept_intro, of_kept]

theorem kept_State_setCeilings (s : State) (v : Nat) (x2 : List Nat) (hs : Kept Q ql s) : Kept Q ql (State.setCeilings s v x2) := by
  induction x2 generalizing s v with
  | nil => grind -ring -linarith [State.setCeilings, kept_State_setFld, kept_intro, of_kept]
  | cons x l ih => grind -ring -linarith [State.setCeilings, kept_State_setFld, kept_intro, of_kept]

theorem kept_State_setLimits (s : State) (v : Nat) (x2 : List Nat) (hs : Kept Q ql s) : Kept Q ql (State.setLimits s v x2) := by
  induction x2 generalizing s v with
  | nil => grind -ring -linarith [State.setLimits, kept_State_setFld, kept_intro, of_kept]
  | cons x l ih => grind -ring -linarith [State.setLimits, kept_State_setFld, kept_intro, of_kept]

theorem kept_State_setStep (s : State) (n : Nat) (hs : Kept Q ql s) : Kept Q ql (State.setStep s n) := by
  unfold State.setStep
  grind -ring -linarith [kept_State_setFld, kept_State_setCeilings, kept_State_setLimits, kept_intro, of_kept]

theorem kept_State_powerStep (s : State) (pIn : Nat) (hs : Kept Q ql s) : Kept Q ql (State.powerStep s pIn) := by
  unfold State.powerStep
  grind -ring -linarith [kept_State_fire, kept_State_bump, kept_State_fireLimited, kept_State_setStep, kept_intro, of_kept]

theorem kept_State_rechargeMarked (s : State) (x1 : List Nat) (hs : Kept Q ql s) : Kept Q ql (State.rechargeMarked s x1) := by
  induction x1 generalizing s with
  | nil => grind -ring -linarith [State.rechargeMarked, kept_State_setDirty, kept_intro, of_kept]
  | cons x l ih => grind -ring -linarith [State.rechargeMarked, kept_State_setDirty, kept_intro, of_kept]

theorem kept_State_rechargePages (s : State) (x1 : List ZonePage) (hs : Kept Q ql s) : Kept Q ql (State.rechargePages s x1) := by
  induction x1 generalizing s with
  | nil => grind -ring -linarith [State.rechargePages, kept_State_setDirty, kept_intro, of_kept]
  | cons x l ih => grind -ring -linarith [State.rechargePages, kept_State_setDirty, kept_intro, of_kept]

theorem kept_State_replayBuffers (s : State) (x1 : List Image) (hs : Kept CanonLoft ql s) : Kept CanonLoft ql (State.replayBuffers s x1) := by
  induction x1 generalizing s with
  | nil => grind -ring -linarith [State.replayBuffers, kept_State_markWritten, kept_State_loftPutByte, kept_State_countLines, kept_foldl, kept_intro, of_kept]
  | cons x l ih => grind -ring -linarith [State.replayBuffers, kept_State_markWritten, kept_State_loftPutByte, kept_State_countLines, kept_foldl, kept_intro, of_kept]

theorem kept_State_restorePage (s : State) (z : ZonePage) (hs : Kept CanonLoft ql s) : Kept CanonLoft ql (State.restorePage s z) := by
  unfold State.restorePage
  grind -ring -linarith [kept_State_changeMap, kept_State_loadPage, kept_intro, of_kept]

theorem kept_State_restorePages (s : State) (x1 : List ZonePage) (hs : Kept CanonLoft ql s) : Kept CanonLoft ql (State.restorePages s x1) := by
  induction x1 generalizing s with
  | nil => grind -ring -linarith [State.restorePages, kept_State_restorePage, kept_intro, of_kept]
  | cons x l ih => grind -ring -linarith [State.restorePages, kept_State_restorePage, kept_intro, of_kept]

theorem kept_State_restoreImages (s : State) (bad : List (Nat × Nat)) (x2 : List Image) (hs : Kept CanonLoft ql s) : Kept CanonLoft ql (State.restoreImages s bad x2) := by
  induction x2 generalizing s bad with
  | nil => grind -ring -linarith (splits := 20) (gen := 16) (ematch := 12) [State.restoreImages, kept_State_loadImageKey, kept_State_restorePages, kept_intro, of_kept]
  | cons x l ih => grind -ring -linarith (splits := 20) (gen := 16) (ematch := 12) [State.restoreImages, kept_State_loadImageKey, kept_State_restorePages, kept_intro, of_kept]

theorem kept_State_uniteBitmaps (s : State) (x1 : List Image) (hs : Kept Q ql s) : Kept Q ql (State.uniteBitmaps s x1) := by
  induction x1 generalizing s with
  | nil => grind -ring -linarith [State.uniteBitmaps, kept_State_rechargeMarked, kept_State_rechargePages, kept_intro, of_kept]
  | cons x l ih => grind -ring -linarith [State.uniteBitmaps, kept_State_rechargeMarked, kept_State_rechargePages, kept_intro, of_kept]

theorem kept_State_restoreEffect (s : State) (n : Nat) (bad : List (Nat × Nat)) (hs : Kept CanonLoft ql s) : Kept CanonLoft ql (State.restoreEffect s n bad) := by
  unfold State.restoreEffect
  dsimp only
  split
  · apply kept_State_setCharging
    grind -ring -linarith [kept_State_loadImageKey, kept_State_fire]
  · exact kept_intro ⟨hs.1, hs.2.1, canonLoft_empty⟩
  · exact kept_State_uniteBitmaps _ _ hs
  · apply kept_State_releasePages
    exact kept_intro (of_kept (kept_State_loadAways _ _ (kept_State_restorePages _ _ hs)))
  · exact kept_State_showRestoreKey _ _ _ (kept_State_replayBuffers _ _ hs)
  · apply kept_State_askBehind
    apply kept_State_mergeGathers
    apply kept_State_replayBuffers
    apply kept_State_restoreImages
    split
    · exact hs
    · exact kept_State_fireLimited _ _ _ _ _ (kept_State_bump _ _ _ _ hs)
  · exact kept_State_loadAways _ _ hs
  · exact hs

theorem kept_State_showBank (s : State) (mon : Nat) (adc : Nat) (vbus : Nat) (ibus : Nat) (hs : Kept Q ql s) : Kept Q ql (State.showBank s mon adc vbus ibus) := by
  unfold State.showBank
  grind -ring -linarith [kept_State_setNum, kept_State_setFld, kept_State_setCharging, kept_intro, of_kept]

theorem kept_State_takeZones (s : State) (i : Image) (x2 : List Nat) (hs : Kept Q ql s) : Kept Q ql (State.takeZones s i x2) := by
  induction x2 generalizing s i with
  | nil => grind -ring -linarith [State.takeZones, kept_State_setNum, kept_intro, of_kept]
  | cons x l ih => grind -ring -linarith [State.takeZones, kept_State_setNum, kept_intro, of_kept]

theorem kept_execChargerFault (s : State) (hs : Kept Q ql s) : ∀ out, execChargerFault s = .next out → Kept Q ql out := by
  intro out e
  unfold execChargerFault at e
  grind -ring -linarith [kept_State_fire, kept_State_setFld, kept_intro, of_kept]

theorem kept_execChargerRestart (s : State) (hs : Kept Q ql s) : ∀ out, execChargerRestart s = .next out → Kept Q ql out := by
  intro out e
  unfold execChargerRestart at e
  grind -ring -linarith [kept_State_setCharging, kept_intro, of_kept]

theorem kept_execCouplerFault (s : State) (hs : Kept CanonLoft ql s) : ∀ out, execCouplerFault s = .next out → Kept CanonLoft ql out := by
  intro out e
  unfold execCouplerFault at e
  grind -ring -linarith [kept_State_fire, kept_State_setFld, kept_State_lateLedger, kept_intro, of_kept]

theorem kept_execDetectorRecovery (s : State) (hs : Kept Q ql s) : ∀ out, execDetectorRecovery s = .next out → Kept Q ql out := by
  intro out e
  unfold execDetectorRecovery at e
  grind -ring -linarith [kept_State_notice, kept_State_endStay, kept_intro, of_kept]

theorem kept_execFlushDataEnd (s : State) (hs : Kept Q ql s) : ∀ out, execFlushDataEnd s = .next out → Kept Q ql out := by
  intro out e
  unfold execFlushDataEnd at e
  grind -ring -linarith (splits := 20) (gen := 16) (ematch := 12) [kept_State_setNum, kept_State_setFld, kept_State_setPhase, kept_State_noteFlushEnergy, kept_State_saveWear, kept_State_takeZones, kept_foldl, kept_intro, of_kept]

theorem kept_execFlushStop (region : Nat) (pages : Nat) (cause : Nat) (s : State) (hs : Kept Q ql s) : ∀ out, execFlushStop region pages cause s = .next out → Kept Q ql out := by
  intro out e
  unfold execFlushStop at e
  grind -ring -linarith [kept_State_fire, kept_intro, of_kept]

theorem kept_execImageRelease (s : State) (hs : Kept Q ql s) : ∀ out, execImageRelease s = .next out → Kept Q ql out := by
  intro out e
  unfold execImageRelease at e
  grind -ring -linarith (splits := 20) (gen := 16) (ematch := 12) [kept_State_setNum, kept_State_fire, kept_State_setFld, kept_State_notice, kept_State_zeroSlot, kept_State_setPhase, kept_State_eraseImages, kept_State_showRestoreKey, kept_intro, of_kept]

theorem kept_execLedgerPeriod (done : Bool) (mon : Nat) (adc : Nat) (vbus : Nat) (ibus : Nat) (pIn : Nat) (s : State) (hs : Kept CanonLoft ql s) : ∀ out, execLedgerPeriod done mon adc vbus ibus pIn s = .next out → Kept CanonLoft ql out := by
  intro out e
  unfold execLedgerPeriod at e
  cases e
  dsimp only
  repeat' (first | with_reducible assumption | with_reducible apply kept_State_setNum | with_reducible apply kept_State_fire | with_reducible apply kept_State_setFld | with_reducible apply kept_State_bump | with_reducible apply kept_State_setBudget | with_reducible apply kept_State_enterTc | with_reducible apply kept_State_lateLedger | with_reducible apply kept_State_ledgerSamples | with_reducible apply kept_State_powerStep | with_reducible apply kept_State_showBank | split | intro _ | (apply kept_intro; dsimp only; apply of_kept))

theorem kept_execLoftPageLoadDone (page : Nat) (ok : Bool) (s : State) (hs : Kept CanonLoft ql s) : ∀ out, execLoftPageLoadDone page ok s = .next out → Kept CanonLoft ql out := by
  intro out e
  unfold execLoftPageLoadDone at e
  grind -ring -linarith [kept_State_park, kept_State_loadPage, kept_intro, of_kept]

theorem kept_execManagedPowerDown (s : State) (hs : Kept CanonLoft ql s) : ∀ out, execManagedPowerDown s = .next out → Kept CanonLoft ql out := by
  intro out e
  unfold execManagedPowerDown at e
  grind -ring -linarith [kept_State_setPhase, kept_State_powerDown, kept_intro, of_kept]

theorem kept_execPolicySet (c : AdminCmd) (s : State) (hs : Kept CanonLoft ql s) : ∀ out, execPolicySet c s = .next out → Kept CanonLoft ql out := by
  intro out e
  unfold execPolicySet at e
  grind -ring -linarith [kept_State_setFld, kept_State_checkTc, kept_State_adminRun, kept_intro, of_kept]

theorem kept_execPowerCapSet (c : AdminCmd) (s : State) (hs : Kept Q ql s) : ∀ out, execPowerCapSet c s = .next out → Kept Q ql out := by
  intro out e
  unfold execPowerCapSet at e
  grind -ring -linarith [kept_State_setNum, kept_State_adminRun, kept_intro, of_kept]

theorem kept_execPowerLoss (s : State) (hs : Kept CanonLoft ql s) : ∀ out, execPowerLoss s = .next out → Kept CanonLoft ql out := by
  intro out e
  unfold execPowerLoss at e
  grind -ring -linarith [kept_State_powerLoss, kept_intro, of_kept]

theorem kept_execRegionRestoreReady (region : Nat) (s : State) (hs : Kept CanonLoft ql s) : ∀ out, execRegionRestoreReady region s = .next out → Kept CanonLoft ql out := by
  intro out e
  unfold execRegionRestoreReady at e
  grind -ring -linarith [kept_State_wakeBar2, kept_State_drainBuffer, kept_State_setPageInfo, kept_State_setPg, kept_intro, of_kept]

theorem kept_execRestoreStepDone (n : Nat) (bad : List (Nat × Nat)) (s : State) (hs : Kept CanonLoft ql s) : ∀ out, execRestoreStepDone n bad s = .next out → Kept CanonLoft ql out := by
  intro out e
  unfold execRestoreStepDone at e
  grind -ring -linarith [kept_State_restoreEffect, kept_intro, of_kept]

theorem kept_execRideExpire (s : State) (hs : Kept CanonLoft ql s) : ∀ out, execRideExpire s = .next out → Kept CanonLoft ql out := by
  intro out e
  unfold execRideExpire at e
  grind -ring -linarith [kept_State_startFlush, kept_intro, of_kept]

theorem kept_execRideRecovered (s : State) (hs : Kept CanonLoft ql s) : ∀ out, execRideRecovered s = .next out → Kept CanonLoft ql out := by
  intro out e
  unfold execRideRecovered at e
  grind -ring -linarith (splits := 20) (gen := 16) (ematch := 12) [kept_State_fire, kept_State_setFld, kept_State_setCharging, kept_State_bump, kept_State_checkTc, kept_State_notice, kept_State_setPhase, kept_intro, of_kept]

theorem kept_execSenseMismatch (s : State) (hs : Kept Q ql s) : ∀ out, execSenseMismatch s = .next out → Kept Q ql out := by
  intro out e
  unfold execSenseMismatch at e
  grind -ring -linarith [kept_State_fire, kept_State_setFld, kept_intro, of_kept]

theorem kept_execTwinWaitExpire (s : State) (hs : Kept CanonLoft ql s) : ∀ out, execTwinWaitExpire s = .next out → Kept CanonLoft ql out := by
  intro out e
  unfold execTwinWaitExpire at e
  grind -ring -linarith [kept_State_fire, kept_State_poisonBehind, kept_intro, of_kept]

theorem kept_execVbankOv (mon : Nat) (adc : Nat) (s : State) (hs : Kept Q ql s) : ∀ out, execVbankOv mon adc s = .next out → Kept Q ql out := by
  intro out e
  unfold execVbankOv at e
  grind -ring -linarith [kept_State_setNum, kept_State_fire, kept_State_setCharging, kept_intro, of_kept]

theorem kept_execVbusDip (s : State) (hs : Kept Q ql s) : ∀ out, execVbusDip s = .next out → Kept Q ql out := by
  intro out e
  unfold execVbusDip at e
  grind -ring -linarith [kept_intro, of_kept]

theorem kept_execVbusOv (s : State) (hs : Kept Q ql s) : ∀ out, execVbusOv s = .next out → Kept Q ql out := by
  intro out e
  unfold execVbusOv at e
  grind -ring -linarith [kept_State_fire, kept_intro, of_kept]

theorem kept_execVbusReturnCountDone (s : State) (hs : Kept Q ql s) : ∀ out, execVbusReturnCountDone s = .next out → Kept Q ql out := by
  intro out e
  unfold execVbusReturnCountDone at e
  grind -ring -linarith [kept_State_requestChip, kept_intro, of_kept]

theorem kept_execVbusReturnWaitExpire (s : State) (hs : Kept CanonLoft ql s) : ∀ out, execVbusReturnWaitExpire s = .next out → Kept CanonLoft ql out := by
  intro out e
  unfold execVbusReturnWaitExpire at e
  grind -ring -linarith [kept_State_setPhase, kept_State_powerDown, kept_intro, of_kept]

theorem kept_execZoneEraseDone (region : Nat) (mib : Nat) (s : State) (hs : Kept Q ql s) : ∀ out, execZoneEraseDone region mib s = .next out → Kept Q ql out := by
  intro out e
  unfold execZoneEraseDone at e
  grind -ring -linarith [kept_State_setNum, kept_intro, of_kept]

end Sys2Proof.Machine
end

