-- ==== Sys2Proof/Laws/KeptAgeing.lean ====
section
/-!
SUPPORT. What the operations of Ageing keep (KeptBase.lean): the queue, a canonical register file, and a canonical Loft; a lemma that holds for every Q says the operation writes nothing in the Loft.
-/

set_option linter.unusedTactic false
set_option linter.unreachableTactic false
set_option linter.unusedVariables false

namespace Sys2Proof.Machine

variable {Q : KMap Byte → KMap Bool → Prop} {ql : List Instr}

theorem kept_State_acceptResult (s : State) (fig : Nat) (x : Nat) (hs : Kept Q ql s) : Kept Q ql (State.acceptResult s fig x) := by
  unfold State.acceptResult
  grind -ring -linarith [kept_intro, of_kept]

theorem kept_State_amplify (s : State) (r : Nat) (hs : Kept Q ql s) : Kept Q ql (State.amplify s r).2 := by
  unfold State.amplify
  grind -ring -linarith [kept_State_fresh, kept_foldl, kept_intro, of_kept]

theorem kept_State_setWearDay (s : State) (r : Nat) (v : Nat) (hs : Kept Q ql s) : Kept Q ql (State.setWearDay s r v) := by
  unfold State.setWearDay
  grind -ring -linarith [kept_State_setNum, kept_State_setDirty, kept_State_showWearCredit, kept_intro, of_kept]

theorem kept_State_putItem (s : State) (item : Nat) (idx : Nat) (v : Int) (hs : Kept Q ql s) : Kept Q ql (State.putItem s item idx v) := by
  unfold State.putItem
  grind -ring -linarith [kept_State_setNum, kept_State_setFld, kept_State_setWearDay, kept_intro, of_kept]

theorem kept_State_setItem (s : State) (item : Nat) (idx : Nat) (v : Int) (cause : Nat) (hs : Kept Q ql s) : Kept Q ql (State.setItem s item idx v cause) := by
  unfold State.setItem
  grind -ring -linarith [kept_State_bump, kept_State_putItem, kept_intro, of_kept]

theorem kept_State_startRetrain (s : State) (l : Lane) (hs : Kept CanonLoft ql s) : Kept CanonLoft ql (State.startRetrain s l) := by
  unfold State.startRetrain
  grind -ring -linarith (splits := 20) (gen := 16) (ematch := 12) [kept_State_fire, kept_State_setFld, kept_State_bump, kept_State_setPg, kept_State_portStops, kept_State_setPlane, kept_State_setItem, kept_intro, of_kept]

theorem kept_State_askRetrain (s : State) (l : Lane) (hs : Kept CanonLoft ql s) : Kept CanonLoft ql (State.askRetrain s l) := by
  unfold State.askRetrain
  grind -ring -linarith [kept_State_startRetrain, kept_intro, of_kept]

theorem kept_State_chooseTables (s : State) (c : Nat) (x2 : List (List Nat)) (hs : Kept Q ql s) : Kept Q ql (State.chooseTables s c x2) := by
  induction x2 generalizing s c with
  | nil => grind -ring -linarith [State.chooseTables, kept_intro, of_kept]
  | cons x l ih => grind -ring -linarith [State.chooseTables, kept_intro, of_kept]

theorem kept_State_setDone (s : State) (m : Nat) (v : Nat) (hs : Kept Q ql s) : Kept Q ql (State.setDone s m v) := by
  unfold State.setDone
  grind -ring -linarith [kept_State_setFld, kept_intro, of_kept]

theorem kept_State_clearDone (s : State) (x1 : List Nat) (hs : Kept Q ql s) : Kept Q ql (State.clearDone s x1) := by
  induction x1 generalizing s with
  | nil => grind -ring -linarith [State.clearDone, kept_State_setDone, kept_intro, of_kept]
  | cons x l ih => grind -ring -linarith [State.clearDone, kept_State_setDone, kept_intro, of_kept]

theorem kept_State_recordChanges (fuel : Nat) (s : State) (l : List ChangeRec) (hs : Kept Q ql s) : Kept Q ql (State.recordChanges fuel s l) := by
  induction fuel generalizing s l with
  | zero =>
    unfold State.recordChanges
    try dsimp only
    repeat' (first | with_reducible assumption | with_reducible apply ih | with_reducible apply kept_State_queueRec | split | intro _ | (apply kept_intro; dsimp only; apply of_kept))
    all_goals grind -ring -linarith [kept_State_queueRec, kept_intro, of_kept]
  | succ n ih =>
    unfold State.recordChanges
    try dsimp only
    repeat' (first | with_reducible assumption | with_reducible apply ih | with_reducible apply kept_State_queueRec | split | intro _ | (apply kept_intro; dsimp only; apply of_kept))
    all_goals grind -ring -linarith [kept_State_queueRec, kept_intro, of_kept]

theorem kept_State_endChanges (s : State) (hs : Kept Q ql s) : Kept Q ql (State.endChanges s) := by
  unfold State.endChanges
  grind -ring -linarith [kept_State_fire, kept_State_recordChanges, kept_intro, of_kept]

theorem kept_State_noteDay (s : State) (r : Nat) (hs : Kept Q ql s) : Kept Q ql (State.noteDay s r) := by
  unfold State.noteDay
  grind -ring -linarith [kept_intro, of_kept]

theorem kept_State_noteDays (s : State) (x1 : List Nat) (hs : Kept Q ql s) : Kept Q ql (State.noteDays s x1) := by
  induction x1 generalizing s with
  | nil => grind -ring -linarith [State.noteDays, kept_State_noteDay, kept_intro, of_kept]
  | cons x l ih => grind -ring -linarith [State.noteDays, kept_State_noteDay, kept_intro, of_kept]

theorem kept_State_planAttic (s : State) (daily : Bool) (hs : Kept Q ql s) : Kept Q ql (State.planAttic s daily) := by
  unfold State.planAttic
  grind -ring -linarith [kept_State_fire, kept_State_retireAttic, kept_intro, of_kept]

theorem kept_State_publishFigure (s : State) (item : Nat) (idx : Nat) (l : List Nat) (least : Bool) (hs : Kept Q ql s) : Kept Q ql (State.publishFigure s item idx l least) := by
  unfold State.publishFigure
  grind -ring -linarith [kept_State_setItem, kept_intro, of_kept]

theorem kept_State_publishRates (s : State) (x1 : List Nat) (hs : Kept Q ql s) : Kept Q ql (State.publishRates s x1) := by
  induction x1 generalizing s with
  | nil => grind -ring -linarith [State.publishRates, kept_State_publishFigure, kept_intro, of_kept]
  | cons x l ih => grind -ring -linarith [State.publishRates, kept_State_publishFigure, kept_intro, of_kept]

theorem kept_State_planBank (s : State) (hs : Kept Q ql s) : Kept Q ql (State.planBank s) := by
  unfold State.planBank
  grind -ring -linarith [kept_State_fire, kept_State_setItem, kept_State_publishFigure, kept_State_publishRates, kept_intro, of_kept]

theorem kept_State_planChannel (s : State) (c : Nat) (hs : Kept Q ql s) : Kept Q ql (State.planChannel s c) := by
  unfold State.planChannel
  grind -ring -linarith [kept_State_fire, kept_State_setItem, kept_State_makeDue, kept_intro, of_kept]

theorem kept_State_planChannels (s : State) (x1 : List Nat) (hs : Kept Q ql s) : Kept Q ql (State.planChannels s x1) := by
  induction x1 generalizing s with
  | nil => grind -ring -linarith [State.planChannels, kept_State_planChannel, kept_intro, of_kept]
  | cons x l ih => grind -ring -linarith [State.planChannels, kept_State_planChannel, kept_intro, of_kept]

theorem kept_State_moveOffsets (s : State) (k : Nat) (d : Int) (x3 : List Nat) (hs : Kept Q ql s) : Kept Q ql (State.moveOffsets s k d x3) := by
  induction x3 generalizing s k d with
  | nil => grind -ring -linarith [State.moveOffsets, kept_State_setItem, kept_intro, of_kept]
  | cons x l ih => grind -ring -linarith [State.moveOffsets, kept_State_setItem, kept_intro, of_kept]

theorem kept_State_planIslands (s : State) (x1 : List Nat) (hs : Kept Q ql s) : Kept Q ql (State.planIslands s x1) := by
  induction x1 generalizing s with
  | nil => grind -ring -linarith [State.planIslands, kept_State_moveOffsets, kept_intro, of_kept]
  | cons x l ih => grind -ring -linarith [State.planIslands, kept_State_moveOffsets, kept_intro, of_kept]

theorem kept_State_planTables (s : State) (x1 : List Nat) (hs : Kept Q ql s) : Kept Q ql (State.planTables s x1) := by
  induction x1 generalizing s with
  | nil => grind -ring -linarith [State.planTables, kept_State_setItem, kept_intro, of_kept]
  | cons x l ih => grind -ring -linarith [State.planTables, kept_State_setItem, kept_intro, of_kept]

theorem kept_State_planRegion (s : State) (r : Nat) (hs : Kept Q ql s) : Kept Q ql (State.planRegion s r) := by
  unfold State.planRegion
  try dsimp only
  repeat' (first | with_reducible assumption | with_reducible apply kept_State_fire | with_reducible apply kept_State_amplify | with_reducible apply kept_State_setItem | with_reducible apply kept_State_planTables | split | intro _ | (apply kept_intro; dsimp only; apply of_kept))

theorem kept_State_planRegions (s : State) (x1 : List Nat) (hs : Kept Q ql s) : Kept Q ql (State.planRegions s x1) := by
  induction x1 generalizing s with
  | nil => grind -ring -linarith [State.planRegions, kept_State_planRegion, kept_intro, of_kept]
  | cons x l ih => grind -ring -linarith [State.planRegions, kept_State_planRegion, kept_intro, of_kept]

theorem kept_State_plan (s : State) (ms : List Nat) (daily : Bool) (hs : Kept Q ql s) : Kept Q ql (State.plan s ms daily) := by
  unfold State.plan
  grind -ring -linarith (splits := 20) (gen := 16) (ematch := 12) [kept_State_setNum, kept_State_clearDone, kept_State_endChanges, kept_State_noteDays, kept_State_planAttic, kept_State_planBank, kept_State_planChannels, kept_State_planIslands, kept_State_planRegions, kept_State_showDays, kept_intro, of_kept]

theorem kept_State_finishRuns (s : State) (x1 : List (Nat × Nat × List Nat)) (hs : Kept Q ql s) : Kept Q ql (State.finishRuns s x1) := by
  induction x1 generalizing s with
  | nil => grind -ring -linarith [State.finishRuns, kept_State_complete, kept_State_plan, kept_intro, of_kept]
  | cons x l ih => grind -ring -linarith [State.finishRuns, kept_State_complete, kept_State_plan, kept_intro, of_kept]

theorem kept_State_completeCode (s : State) (c : Nat) (hs : Kept Q ql s) : Kept Q ql (State.completeCode s c) := by
  unfold State.completeCode
  grind -ring -linarith [kept_State_setDone, kept_State_finishRuns, kept_intro, of_kept]

theorem kept_State_judgeFigure (s : State) (fig : Nat) (x : Nat) (pub : Nat) (up : Bool) (lo : Nat) (hi : Nat) (hs : Kept Q ql s) : Kept Q ql (State.judgeFigure s fig x pub up lo hi) := by
  unfold State.judgeFigure
  grind -ring -linarith [kept_State_fire, kept_State_acceptResult, kept_intro, of_kept]

theorem kept_State_judgeRates (s : State) (r : Nat) (x2 : List Nat) (hs : Kept Q ql s) : Kept Q ql (State.judgeRates s r x2) := by
  induction x2 generalizing s r with
  | nil => grind -ring -linarith [State.judgeRates, kept_State_judgeFigure, kept_intro, of_kept]
  | cons x l ih => grind -ring -linarith [State.judgeRates, kept_State_judgeFigure, kept_intro, of_kept]

theorem kept_State_nextRetrain (s : State) (l : Lane) (hs : Kept CanonLoft ql s) : Kept CanonLoft ql (State.nextRetrain s l) := by
  unfold State.nextRetrain
  grind -ring -linarith [kept_State_startRetrain, kept_intro, of_kept]

theorem kept_State_noteEye (s : State) (l : Lane) (h : Nat) (w : Nat) (hs : Kept Q ql s) : Kept Q ql (State.noteEye s l h w) := by
  unfold State.noteEye
  grind -ring -linarith [kept_State_setNum, kept_intro, of_kept]

theorem kept_State_retirePort (s : State) (page : Nat) (hs : Kept CanonLoft ql s) : Kept CanonLoft ql (State.retirePort s page) := by
  unfold State.retirePort
  grind -ring -linarith [kept_State_fire, kept_State_settleAll, kept_State_discardQueue, kept_State_setPlaneBits, kept_State_writePorts, kept_intro, of_kept]

theorem kept_State_retireLane (s : State) (l : Lane) (hs : Kept CanonLoft ql s) : Kept CanonLoft ql (State.retireLane s l) := by
  unfold State.retireLane
  grind -ring -linarith [kept_State_fire, kept_State_setFld, kept_State_setItem, kept_State_retirePort, kept_intro, of_kept]

theorem kept_State_returnPort (s : State) (page : Nat) (hs : Kept CanonLoft ql s) : Kept CanonLoft ql (State.returnPort s page) := by
  unfold State.returnPort
  grind -ring -linarith [kept_State_setFld, kept_State_setPlane, kept_State_linkPlane, kept_State_linkTwin, kept_intro, of_kept]

theorem kept_State_shortSlack (s : State) (k : Nat) (hs : Kept Q ql s) : Kept Q ql (State.shortSlack s k) := by
  unfold State.shortSlack
  extract_lets f req t
  have h : Kept Q ql t := kept_State_fire _ pPKG 5 (kept_State_setFld s pPKG (0x140 + 4 * k) 31 31 1 hs)
  clear_value t
  split
  · exact kept_State_moveOffsets _ _ _ _ hs
  · split
    · exact kept_State_beginFreq _ _ _ (kept_with_age _ h)
    · exact kept_with_age _ h

theorem kept_State_startBank (s : State) (op : Nat) (hs : Kept Q ql s) : Kept Q ql (State.startBank s op) := by
  unfold State.startBank
  grind -ring -linarith [kept_State_setFld, kept_State_setCharging, kept_State_bump, kept_intro, of_kept]

theorem kept_State_tryCode (s : State) (c : Nat) (hs : Kept Q ql s) : Kept Q ql (State.tryCode s c) := by
  unfold State.tryCode
  grind -ring -linarith [kept_State_completeCode, kept_State_startBank, kept_intro, of_kept]

theorem kept_State_tryCodes (s : State) (x1 : List Nat) (hs : Kept Q ql s) : Kept Q ql (State.tryCodes s x1) := by
  induction x1 generalizing s with
  | nil => grind -ring -linarith [State.tryCodes, kept_State_tryCode, kept_intro, of_kept]
  | cons x l ih => grind -ring -linarith [State.tryCodes, kept_State_tryCode, kept_intro, of_kept]

theorem kept_execAgeingRetryTimer (s : State) (hs : Kept Q ql s) : ∀ out, execAgeingRetryTimer s = .next out → Kept Q ql out := by
  intro out e
  unfold execAgeingRetryTimer at e
  grind -ring -linarith [kept_State_tryCodes, kept_intro, of_kept]

theorem kept_execAgeingRun (c : AdminCmd) (s : State) (hs : Kept Q ql s) : ∀ out, execAgeingRun c s = .next out → Kept Q ql out := by
  intro out e
  unfold execAgeingRun at e
  grind -ring -linarith [kept_State_fresh, kept_State_adminRun, kept_State_plan, kept_State_startBank, kept_State_tryCodes, kept_foldl, kept_intro, of_kept]

theorem kept_execAgeingWindowClose (s : State) (hs : Kept Q ql s) : ∀ out, execAgeingWindowClose s = .next out → Kept Q ql out := by
  intro out e
  unfold execAgeingWindowClose at e
  grind -ring -linarith [kept_State_endBank, kept_State_endRuns, kept_State_bump, kept_State_fireLimited, kept_State_plan, kept_intro, of_kept]

theorem kept_execAgeingWindowOpen (s : State) (hs : Kept Q ql s) : ∀ out, execAgeingWindowOpen s = .next out → Kept Q ql out := by
  intro out e
  unfold execAgeingWindowOpen at e
  grind -ring -linarith [kept_State_showDays, kept_State_tryCodes, kept_intro, of_kept]

theorem kept_execBankMeasAbort (s : State) (hs : Kept Q ql s) : ∀ out, execBankMeasAbort s = .next out → Kept Q ql out := by
  intro out e
  unfold execBankMeasAbort at e
  grind -ring -linarith [kept_State_endBank, kept_State_complete, kept_intro, of_kept]

theorem kept_execBankMeasDone (drop : Nat) (step : Nat) (charge : Nat) (vint : Nat) (energy : Nat) (rehearsal : Nat) (times : List Nat) (s : State) (hs : Kept Q ql s) : ∀ out, execBankMeasDone drop step charge vint energy rehearsal times s = .next out → Kept Q ql out := by
  intro out e
  unfold execBankMeasDone at e
  grind -ring -linarith (splits := 20) (gen := 16) (ematch := 12) [kept_State_endBank, kept_State_complete, kept_State_plan, kept_State_completeCode, kept_State_judgeFigure, kept_State_judgeRates, kept_intro, of_kept]

theorem kept_execEyeMeasure (page : Nat) (lane : Nat) (height : Nat) (width : Nat) (s : State) (hs : Kept CanonLoft ql s) : ∀ out, execEyeMeasure page lane height width s = .next out → Kept CanonLoft ql out := by
  intro out e
  unfold execEyeMeasure at e
  grind -ring -linarith [kept_State_askRetrain, kept_State_setDone, kept_State_endChanges, kept_State_noteEye, kept_State_retireLane, kept_intro, of_kept]

theorem kept_execLaneRetrainDone (page : Nat) (lane : Nat) (height : Nat) (width : Nat) (s : State) (hs : Kept CanonLoft ql s) : ∀ out, execLaneRetrainDone page lane height width s = .next out → Kept CanonLoft ql out := by
  intro out e
  unfold execLaneRetrainDone at e
  grind -ring -linarith [kept_State_setItem, kept_State_endChanges, kept_State_nextRetrain, kept_State_noteEye, kept_State_retireLane, kept_State_returnPort, kept_intro, of_kept]

theorem kept_execMarginPlanRead (c : AdminCmd) (s : State) (hs : Kept Q ql s) : ∀ out, execMarginPlanRead c s = .next out → Kept Q ql out := by
  intro out e
  unfold execMarginPlanRead at e
  grind -ring -linarith [kept_State_adminRun, kept_State_toBuffer, kept_intro, of_kept]

theorem kept_execRetryProbeDone (region : Nat) (counts : List (List Nat)) (slow : Bool) (s : State) (hs : Kept Q ql s) : ∀ out, execRetryProbeDone region counts slow s = .next out → Kept Q ql out := by
  intro out e
  unfold execRetryProbeDone at e
  grind -ring -linarith [kept_State_chooseTables, kept_State_completeCode, kept_intro, of_kept]

theorem kept_execSenseProbeDone (channel : Nat) (margin : Nat) (s : State) (hs : Kept Q ql s) : ∀ out, execSenseProbeDone channel margin s = .next out → Kept Q ql out := by
  intro out e
  unfold execSenseProbeDone at e
  grind -ring -linarith [kept_State_setFld, kept_State_completeCode, kept_intro, of_kept]

theorem kept_execSlackMonitor (island : Nat) (slack : Int) (s : State) (hs : Kept Q ql s) : ∀ out, execSlackMonitor island slack s = .next out → Kept Q ql out := by
  intro out e
  unfold execSlackMonitor at e
  grind -ring -linarith [kept_State_setDone, kept_State_endChanges, kept_State_shortSlack, kept_intro, of_kept]

end Sys2Proof.Machine
end

