-- ==== Sys2Proof/Laws/KeptBoot.lean ====
section
/-!
SUPPORT. What the operations of Boot keep (KeptBase.lean): the queue, a canonical register file, and a canonical Loft; a lemma that holds for every Q says the operation writes nothing in the Loft.
-/

set_option linter.unusedTactic false
set_option linter.unreachableTactic false
set_option linter.unusedVariables false

namespace Sys2Proof.Machine

variable {Q : KMap Byte → KMap Bool → Prop} {ql : List Instr}

theorem kept_State_abandonOps (s : State) (x1 : List Nat) (hs : Kept Q ql s) : Kept Q ql (State.abandonOps s x1) := by
  induction x1 generalizing s with
  | nil => grind -ring -linarith [State.abandonOps, kept_intro, of_kept]
  | cons x l ih => grind -ring -linarith [State.abandonOps, kept_intro, of_kept]

theorem kept_State_setHoldover (s : State) (v : Nat) (x2 : List Nat) (hs : Kept Q ql s) : Kept Q ql (State.setHoldover s v x2) := by
  induction x2 generalizing s v with
  | nil => grind -ring -linarith [State.setHoldover, kept_State_setFld, kept_intro, of_kept]
  | cons x l ih => grind -ring -linarith [State.setHoldover, kept_State_setFld, kept_intro, of_kept]

theorem kept_State_clearArch (s : State) (hs : Kept Q ql s) : Kept Q ql (State.clearArch s) := by
  unfold State.clearArch
  grind -ring -linarith (splits := 20) (gen := 16) (ematch := 12) [kept_State_setFld, kept_State_setFaultN, kept_State_loseRegs, kept_State_startClocks, kept_State_setHoldover, kept_intro, of_kept]

theorem kept_State_clearHost (s : State) (hs : Kept Q ql s) : Kept Q ql (State.clearHost s) := by
  unfold State.clearHost
  grind -ring -linarith [kept_intro, of_kept]

theorem kept_State_resetRegions (s : State) (x1 : List Nat) (hs : Kept Q ql s) : Kept Q ql (State.resetRegions s x1) := by
  induction x1 generalizing s with
  | nil => grind -ring -linarith [State.resetRegions, kept_State_resetRegion, kept_intro, of_kept]
  | cons x l ih => grind -ring -linarith [State.resetRegions, kept_State_resetRegion, kept_intro, of_kept]

theorem kept_State_clearUnits (s : State) (hs : Kept CanonLoft ql s) : Kept CanonLoft ql (State.clearUnits s) := by
  unfold State.clearUnits
  grind -ring -linarith [kept_State_resetAttic, kept_State_resetSteward, kept_State_resetTc, kept_State_resetTwin, kept_State_resetRegions, kept_intro, of_kept]

theorem kept_State_settleForChip (s : State) (hs : Kept CanonLoft ql s) : Kept CanonLoft ql (State.settleForChip s) := by
  unfold State.settleForChip
  grind -ring -linarith (splits := 20) (gen := 16) (ematch := 12) [kept_State_abandonOps, kept_State_poisonPages, kept_State_postBar2, kept_State_endOps, kept_State_copyHist, kept_State_copyTally, kept_intro, of_kept]

theorem kept_State_showDirty (s : State) (x1 : List Nat) (hs : Kept Q ql s) : Kept Q ql (State.showDirty s x1) := by
  induction x1 generalizing s with
  | nil => grind -ring -linarith [State.showDirty, kept_State_dueRepairs, kept_State_setDirty, kept_intro, of_kept]
  | cons x l ih => grind -ring -linarith [State.showDirty, kept_State_dueRepairs, kept_State_setDirty, kept_intro, of_kept]

theorem kept_State_chipReset (s : State) (d : ChipDue) (hs : Kept CanonLoft ql s) : Kept CanonLoft ql (State.chipReset s d) := by
  unfold State.chipReset
  try dsimp only
  repeat' (first | with_reducible assumption | with_reducible apply kept_State_setNum | with_reducible apply kept_State_freshPeers | with_reducible apply kept_State_set64 | with_reducible apply kept_State_setBudget | with_reducible apply kept_State_setPg | with_reducible apply kept_State_reloadSlots | with_reducible apply kept_State_resumeHist | with_reducible apply kept_State_resumeTally | with_reducible apply kept_State_ringOff | with_reducible apply kept_State_showKeys | with_reducible apply kept_State_loseAgeing | with_reducible apply kept_State_clearArch | with_reducible apply kept_State_clearHost | with_reducible apply kept_State_clearUnits | with_reducible apply kept_State_setPhase | with_reducible apply kept_State_settleForChip | with_reducible apply kept_State_showDirty | split | intro _ | (apply kept_intro; dsimp only; apply of_kept))

theorem kept_State_planesDown (s : State) (x1 : List Nat) (hs : Kept Q ql s) : Kept Q ql (State.planesDown s x1) := by
  induction x1 generalizing s with
  | nil => grind -ring -linarith [State.planesDown, kept_State_discardQueue, kept_State_setPlaneBits, kept_intro, of_kept]
  | cons x l ih => grind -ring -linarith [State.planesDown, kept_State_discardQueue, kept_State_setPlaneBits, kept_intro, of_kept]

theorem kept_State_portsDown (s : State) (x1 : List Nat) (hs : Kept CanonLoft ql s) : Kept CanonLoft ql (State.portsDown s x1) := by
  induction x1 generalizing s with
  | nil => grind -ring -linarith [State.portsDown, kept_State_fire, kept_State_setFld, kept_State_portStops, kept_intro, of_kept]
  | cons x l ih => grind -ring -linarith [State.portsDown, kept_State_fire, kept_State_setFld, kept_State_portStops, kept_intro, of_kept]

theorem kept_State_portsOff (s : State) (x1 : List Nat) (hs : Kept CanonLoft ql s) : Kept CanonLoft ql (State.portsOff s x1) := by
  induction x1 generalizing s with
  | nil => grind -ring -linarith [State.portsOff, kept_State_setFld, kept_State_setPg, kept_State_portStops, kept_State_discardQueue, kept_State_setPlaneBits, kept_intro, of_kept]
  | cons x l ih => grind -ring -linarith [State.portsOff, kept_State_setFld, kept_State_setPg, kept_State_portStops, kept_State_discardQueue, kept_State_setPlaneBits, kept_intro, of_kept]

theorem kept_State_resetList (s : State) (x1 : List Nat) (hs : Kept CanonLoft ql s) : Kept CanonLoft ql (State.resetList s x1) := by
  induction x1 generalizing s with
  | nil => grind -ring -linarith [State.resetList, kept_State_requestReset, kept_intro, of_kept]
  | cons x l ih => grind -ring -linarith [State.resetList, kept_State_requestReset, kept_intro, of_kept]

theorem kept_execCascDelayExpire (s : State) (hs : Kept Q ql s) : ∀ out, execCascDelayExpire s = .next out → Kept Q ql out := by
  intro out e
  unfold execCascDelayExpire at e
  grind -ring -linarith [kept_State_setSeqOut, kept_intro, of_kept]

theorem kept_execCascDownWaitExpire (s : State) (hs : Kept Q ql s) : ∀ out, execCascDownWaitExpire s = .next out → Kept Q ql out := by
  intro out e
  unfold execCascDownWaitExpire at e
  grind -ring -linarith [kept_State_tryCage, kept_intro, of_kept]

theorem kept_execChipReset (s : State) (hs : Kept CanonLoft ql s) : ∀ out, execChipReset s = .next out → Kept CanonLoft ql out := by
  intro out e
  unfold execChipReset at e
  grind -ring -linarith [kept_State_chipReset, kept_intro, of_kept]

theorem kept_execColdStart (casc : Bool) (waiting : List Handshake) (s : State) (hs : Kept CanonLoft ql s) : ∀ out, execColdStart casc waiting s = .next out → Kept CanonLoft ql out := by
  intro out e
  unfold execColdStart at e
  cases e
  dsimp only
  repeat' (first | with_reducible assumption | with_reducible apply kept_State_fire | with_reducible apply kept_State_setFld | with_reducible apply kept_State_abortHandshakes | with_reducible apply kept_State_setFaultN | with_reducible apply kept_State_loseRegs | with_reducible apply kept_State_loseVolatile | with_reducible apply kept_State_holdSync | with_reducible apply kept_State_setRails | with_reducible apply kept_State_setSeqOut | split | intro _ | (apply kept_intro; dsimp only; apply of_kept))

theorem kept_execDischargeTimeout (rail : Nat) (s : State) (hs : Kept CanonLoft ql s) : ∀ out, execDischargeTimeout rail s = .next out → Kept CanonLoft ql out := by
  intro out e
  unfold execDischargeTimeout at e
  grind -ring -linarith [kept_State_setFld, kept_State_bump, kept_State_seqFire, kept_State_railDown, kept_intro, of_kept]

theorem kept_execFaultHoldExpire (s : State) (hs : Kept Q ql s) : ∀ out, execFaultHoldExpire s = .next out → Kept Q ql out := by
  intro out e
  unfold execFaultHoldExpire at e
  grind -ring -linarith [kept_State_freeSync, kept_intro, of_kept]

theorem kept_execFaultRetry (s : State) (hs : Kept Q ql s) : ∀ out, execFaultRetry s = .next out → Kept Q ql out := by
  intro out e
  unfold execFaultRetry at e
  cases e
  dsimp only
  repeat' (first | with_reducible assumption | with_reducible apply kept_State_setNum | with_reducible apply kept_State_setFaultN | with_reducible apply kept_State_setSeqBit | with_reducible apply kept_State_seqFire | split | intro _ | (apply kept_intro; dsimp only; apply of_kept))

theorem kept_execIslandClocksLocked (s : State) (hs : Kept Q ql s) : ∀ out, execIslandClocksLocked s = .next out → Kept Q ql out := by
  intro out e
  unfold execIslandClocksLocked at e
  grind -ring -linarith [kept_State_freeSync, kept_intro, of_kept]

theorem kept_execIslandUnlock (k : Nat) (s : State) (hs : Kept CanonLoft ql s) : ∀ out, execIslandUnlock k s = .next out → Kept CanonLoft ql out := by
  intro out e
  unfold execIslandUnlock at e
  cases e
  dsimp only
  repeat' (first | with_reducible assumption | with_reducible apply kept_State_fire | with_reducible apply kept_State_setFld | with_reducible apply kept_State_requestChip | with_reducible apply kept_State_resetList | split | intro _ | (apply kept_intro; dsimp only; apply of_kept))

theorem kept_execPgInputLow (rail : Nat) (s : State) (hs : Kept Q ql s) : ∀ out, execPgInputLow rail s = .next out → Kept Q ql out := by
  intro out e
  unfold execPgInputLow at e
  grind -ring -linarith [kept_State_setFld, kept_State_bump, kept_intro, of_kept]

theorem kept_execPgStable (rail : Nat) (s : State) (hs : Kept Q ql s) : ∀ out, execPgStable rail s = .next out → Kept Q ql out := by
  intro out e
  unfold execPgStable at e
  grind -ring -linarith [kept_State_setFld, kept_State_freeSync, kept_intro, of_kept]

theorem kept_execRailDischarged (rail : Nat) (s : State) (hs : Kept CanonLoft ql s) : ∀ out, execRailDischarged rail s = .next out → Kept CanonLoft ql out := by
  intro out e
  unfold execRailDischarged at e
  grind -ring -linarith [kept_State_railDown, kept_intro, of_kept]

theorem kept_execRailLost (rail : Nat) (s : State) (hs : Kept CanonLoft ql s) : ∀ out, execRailLost rail s = .next out → Kept CanonLoft ql out := by
  intro out e
  unfold execRailLost at e
  grind -ring -linarith [kept_State_setFld, kept_State_settleAll, kept_State_beginDown, kept_State_setPhase, kept_State_startFlush, kept_State_portsOff, kept_State_seqFire, kept_State_recordFault, kept_State_powerLoss, kept_intro, of_kept]

theorem kept_execRefclkLoss (ref : Nat) (s : State) (hs : Kept CanonLoft ql s) : ∀ out, execRefclkLoss ref s = .next out → Kept CanonLoft ql out := by
  intro out e
  unfold execRefclkLoss at e
  grind -ring -linarith [kept_State_setFld, kept_State_bump, kept_State_fireLimited, kept_State_settleAll, kept_State_setHoldover, kept_State_planesDown, kept_State_portsDown, kept_intro, of_kept]

theorem kept_execRefclkReturn (ref : Nat) (s : State) (hs : Kept Q ql s) : ∀ out, execRefclkReturn ref s = .next out → Kept Q ql out := by
  intro out e
  unfold execRefclkReturn at e
  grind -ring -linarith [kept_State_setFld, kept_State_setHoldover, kept_intro, of_kept]

theorem kept_execResetPowerCycle (c : AdminCmd) (s : State) (hs : Kept CanonLoft ql s) : ∀ out, execResetPowerCycle c s = .next out → Kept CanonLoft ql out := by
  intro out e
  unfold execResetPowerCycle at e
  grind -ring -linarith [kept_State_complete, kept_State_adminRun, kept_State_flushDown, kept_State_silence, kept_intro, of_kept]

theorem kept_execResetPowerDown (c : AdminCmd) (s : State) (hs : Kept CanonLoft ql s) : ∀ out, execResetPowerDown c s = .next out → Kept CanonLoft ql out := by
  intro out e
  unfold execResetPowerDown at e
  grind -ring -linarith (splits := 20) (gen := 16) (ematch := 12) [kept_State_complete, kept_State_adminRun, kept_State_flushDown, kept_State_silence, kept_intro, of_kept]

theorem kept_execSeqDownRequest (s : State) (hs : Kept CanonLoft ql s) : ∀ out, execSeqDownRequest s = .next out → Kept CanonLoft ql out := by
  intro out e
  unfold execSeqDownRequest at e
  grind -ring -linarith [kept_State_flushDown, kept_intro, of_kept]

theorem kept_execSeqInFall (s : State) (hs : Kept CanonLoft ql s) : ∀ out, execSeqInFall s = .next out → Kept CanonLoft ql out := by
  intro out e
  unfold execSeqInFall at e
  cases e
  dsimp only
  repeat' (first | with_reducible assumption | with_reducible apply kept_State_setSeqBit | with_reducible apply kept_State_flushDown | split | intro _ | (apply kept_intro; dsimp only; apply of_kept))

theorem kept_execSeqInRise (s : State) (hs : Kept Q ql s) : ∀ out, execSeqInRise s = .next out → Kept Q ql out := by
  intro out e
  unfold execSeqInRise at e
  cases e
  dsimp only
  repeat' (first | with_reducible assumption | with_reducible apply kept_State_setSeqBit | with_reducible apply kept_State_endStay | split | intro _ | (apply kept_intro; dsimp only; apply of_kept))

theorem kept_execSeqStall (s : State) (hs : Kept CanonLoft ql s) : ∀ out, execSeqStall s = .next out → Kept CanonLoft ql out := by
  intro out e
  unfold execSeqStall at e
  grind -ring -linarith [kept_State_bump, kept_State_enterDown, kept_State_seqFire, kept_intro, of_kept]

theorem kept_execSeqStepTimeout (s : State) (hs : Kept Q ql s) : ∀ out, execSeqStepTimeout s = .next out → Kept Q ql out := by
  intro out e
  unfold execSeqStepTimeout at e
  grind -ring -linarith [kept_State_seqFault, kept_intro, of_kept]

theorem kept_execSeqSyncRise (bifur : Bool) (ftm : Bool) (s : State) (hs : Kept CanonLoft ql s) : ∀ out, execSeqSyncRise bifur ftm s = .next out → Kept CanonLoft ql out := by
  intro out e
  unfold execSeqSyncRise at e
  grind -ring -linarith [kept_State_enterDown, kept_State_enterUp, kept_intro, of_kept]

theorem kept_execStartConditionsMet (s : State) (hs : Kept Q ql s) : ∀ out, execStartConditionsMet s = .next out → Kept Q ql out := by
  intro out e
  unfold execStartConditionsMet at e
  grind -ring -linarith [kept_State_freeSync, kept_intro, of_kept]

end Sys2Proof.Machine
end

