-- ==== Sys2Proof/Laws/KeptRevoke.lean ====
section
/-!
SUPPORT. What the operations of Revoke keep (KeptBase.lean): the queue, a canonical register file, and a canonical Loft; a lemma that holds for every Q says the operation writes nothing in the Loft.
-/

set_option linter.unusedTactic false
set_option linter.unreachableTactic false
set_option linter.unusedVariables false

namespace Sys2Proof.Machine

variable {Q : KMap Byte → KMap Bool → Prop} {ql : List Instr}

theorem kept_State_abandon (s : State) (x1 : List (Nat × Nat)) (hs : Kept Q ql s) : Kept Q ql (State.abandon s x1) := by
  induction x1 generalizing s with
  | nil => grind -ring -linarith [State.abandon, kept_State_failMessage, kept_intro, of_kept]
  | cons x l ih => grind -ring -linarith [State.abandon, kept_State_failMessage, kept_intro, of_kept]

theorem kept_State_leavePools (s : State) (x1 : List Nat) (hs : Kept Q ql s) : Kept Q ql (State.leavePools s x1) := by
  induction x1 generalizing s with
  | nil => grind -ring -linarith [State.leavePools, kept_State_setDirty, kept_intro, of_kept]
  | cons x l ih => grind -ring -linarith [State.leavePools, kept_State_setDirty, kept_intro, of_kept]

theorem kept_State_destroy (s : State) (id : Nat) (hs : Kept Q ql s) : Kept Q ql (State.destroy s id).2 := by
  unfold State.destroy
  grind -ring -linarith [kept_State_mirrorMeta, kept_State_transInvalidate, kept_State_setObject, kept_State_endDestroy, kept_State_leavePools, kept_State_releasePages, kept_State_stopMigration, kept_intro, of_kept]

theorem kept_State_destroys (s : State) (x1 : List Nat) (hs : Kept Q ql s) : Kept Q ql (State.destroys s x1).2 := by
  induction x1 generalizing s with
  | nil => grind -ring -linarith [State.destroys, kept_State_destroy, kept_intro, of_kept]
  | cons x l ih => grind -ring -linarith [State.destroys, kept_State_destroy, kept_intro, of_kept]

theorem kept_State_dropReads (s : State) (f : Fence) (hs : Kept Q ql s) : Kept Q ql (State.dropReads s f) := by
  unfold State.dropReads
  grind -ring -linarith [kept_intro, of_kept]

theorem kept_State_endErases (s : State) (x1 : List Withdraw) (hs : Kept Q ql s) : Kept Q ql (State.endErases s x1) := by
  induction x1 generalizing s with
  | nil => grind -ring -linarith [State.endErases, kept_State_complete, kept_State_countHeld, kept_State_tallyEnd, kept_intro, of_kept]
  | cons x l ih => grind -ring -linarith [State.endErases, kept_State_complete, kept_State_countHeld, kept_State_tallyEnd, kept_intro, of_kept]

theorem kept_State_endWindow (s : State) (idx : Nat) (hs : Kept Q ql s) : Kept Q ql (State.endWindow s idx).2 := by
  unfold State.endWindow
  grind -ring -linarith [kept_State_mirrorMeta, kept_State_setObject, kept_State_setWindow, kept_State_destroy, kept_intro, of_kept]

theorem kept_State_setWithdraw (s : State) (w : Withdraw) (hs : Kept Q ql s) : Kept Q ql (State.setWithdraw s w) := by
  unfold State.setWithdraw
  grind -ring -linarith [kept_intro, of_kept]

theorem kept_State_zeroiseAll (s : State) (x1 : List Nat) (hs : Kept CanonLoft ql s) : Kept CanonLoft ql (State.zeroiseAll s x1).2 := by
  induction x1 generalizing s with
  | nil => grind -ring -linarith [State.zeroiseAll, kept_State_zeroise, kept_intro, of_kept]
  | cons x l ih => grind -ring -linarith [State.zeroiseAll, kept_State_zeroise, kept_intro, of_kept]

theorem kept_State_endWithdraw (s : State) (w : Withdraw) (hs : Kept CanonLoft ql s) : Kept CanonLoft ql (State.endWithdraw s w) := by
  unfold State.endWithdraw
  grind -ring -linarith (splits := 20) (gen := 16) (ematch := 12) [kept_State_complete, kept_State_afterMirror, kept_State_destroys, kept_State_setWithdraw, kept_State_zeroiseAll, kept_intro, of_kept]

theorem kept_State_revoke (s : State) (idx : Nat) (op : Nat) (hs : Kept Q ql s) : Kept Q ql (State.revoke s idx op) := by
  unfold State.revoke
  grind -ring -linarith [kept_State_freeCached, kept_State_setWindow, kept_intro, of_kept]

theorem kept_State_goOn (s : State) (op : Nat) (hs : Kept CanonLoft ql s) : Kept CanonLoft ql (State.goOn s op) := by
  unfold State.goOn
  grind -ring -linarith [kept_State_endWithdraw, kept_State_revoke, kept_intro, of_kept]

theorem kept_State_fenceDone (s : State) (f : Fence) (hs : Kept CanonLoft ql s) : Kept CanonLoft ql (State.fenceDone s f) := by
  unfold State.fenceDone
  grind -ring -linarith (splits := 20) (gen := 16) (ematch := 12) [kept_State_abandon, kept_State_complete, kept_State_afterMirror, kept_State_dropReads, kept_State_endWindow, kept_State_setWithdraw, kept_State_goOn, kept_intro, of_kept]

theorem kept_State_fencesDone (s : State) (x1 : List Fence) (hs : Kept CanonLoft ql s) : Kept CanonLoft ql (State.fencesDone s x1) := by
  induction x1 generalizing s with
  | nil => grind -ring -linarith [State.fencesDone, kept_State_fenceDone, kept_intro, of_kept]
  | cons x l ih => grind -ring -linarith [State.fencesDone, kept_State_fenceDone, kept_intro, of_kept]

theorem kept_execKeyRecordBlockErase (s : State) (hs : Kept Q ql s) : ∀ out, execKeyRecordBlockErase s = .next out → Kept Q ql out := by
  intro out e
  unfold execKeyRecordBlockErase at e
  grind -ring -linarith [kept_State_endErases, kept_intro, of_kept]

theorem kept_execRevokeFenceDrained (idx : Nat) (s : State) (hs : Kept CanonLoft ql s) : ∀ out, execRevokeFenceDrained idx s = .next out → Kept CanonLoft ql out := by
  intro out e
  unfold execRevokeFenceDrained at e
  grind -ring -linarith [kept_State_wakeBar2, kept_State_settleAll, kept_State_fencesDone, kept_intro, of_kept]

theorem kept_execRevokeLate (idx : Nat) (s : State) (hs : Kept Q ql s) : ∀ out, execRevokeLate idx s = .next out → Kept Q ql out := by
  intro out e
  unfold execRevokeLate at e
  grind -ring -linarith [kept_State_fire, kept_intro, of_kept]

theorem kept_execTenantErase (c : AdminCmd) (s : State) (hs : Kept CanonLoft ql s) : ∀ out, execTenantErase c s = .next out → Kept CanonLoft ql out := by
  intro out e
  unfold execTenantErase at e
  grind -ring -linarith (splits := 20) (gen := 16) (ematch := 12) [kept_State_failStreams, kept_State_adminRun, kept_State_clearQps, kept_State_goOn, kept_intro, of_kept]

theorem kept_execWindowRevoke (c : AdminCmd) (s : State) (hs : Kept Q ql s) : ∀ out, execWindowRevoke c s = .next out → Kept Q ql out := by
  intro out e
  unfold execWindowRevoke at e
  grind -ring -linarith [kept_State_adminRun, kept_State_revoke, kept_intro, of_kept]

theorem kept_execWindowRevokeObject (c : AdminCmd) (s : State) (hs : Kept CanonLoft ql s) : ∀ out, execWindowRevokeObject c s = .next out → Kept CanonLoft ql out := by
  intro out e
  unfold execWindowRevokeObject at e
  grind -ring -linarith [kept_State_adminRun, kept_State_goOn, kept_intro, of_kept]

end Sys2Proof.Machine
end

