-- ==== Sys2Proof/Laws/KeptSteward.lean ====
section
/-!
SUPPORT. What the operations of Steward keep (KeptBase.lean): the queue, a canonical register file, and a canonical Loft; a lemma that holds for every Q says the operation writes nothing in the Loft.
-/

set_option linter.unusedTactic false
set_option linter.unreachableTactic false
set_option linter.unusedVariables false

namespace Sys2Proof.Machine

variable {Q : KMap Byte → KMap Bool → Prop} {ql : List Instr}

theorem kept_State_commitLive (s : State) (op : Nat) (hs : Kept Q ql s) : Kept Q ql (State.commitLive s op) := by
  unfold State.commitLive
  grind -ring -linarith (splits := 20) (gen := 16) (ematch := 12) [kept_State_setNum, kept_State_setFld, kept_State_complete, kept_State_enterChecked, kept_State_endOutage, kept_State_takeCheckpoint, kept_intro, of_kept]

theorem kept_State_copyCode (s : State) (hs : Kept Q ql s) : Kept Q ql (State.copyCode s) := by
  unfold State.copyCode
  grind -ring -linarith [kept_intro, of_kept]

theorem kept_State_eraseBlocks (s : State) (x1 : List Nat) (hs : Kept Q ql s) : Kept Q ql (State.eraseBlocks s x1) := by
  induction x1 generalizing s with
  | nil => grind -ring -linarith (splits := 20) (gen := 16) (ematch := 12) [State.eraseBlocks, kept_State_bump, kept_State_eraseAttic, kept_State_noteErase, kept_State_dropXip, kept_intro, of_kept]
  | cons x l ih => grind -ring -linarith (splits := 20) (gen := 16) (ematch := 12) [State.eraseBlocks, kept_State_bump, kept_State_eraseAttic, kept_State_noteErase, kept_State_dropXip, kept_intro, of_kept]

theorem kept_State_programAt (s : State) (p : Nat) (bs : List Byte) (hs : Kept Q ql s) : Kept Q ql (State.programAt s p bs) := by
  unfold State.programAt
  grind -ring -linarith [kept_State_bump, kept_State_setAtticBlock, kept_intro, of_kept]

theorem kept_State_programRun (s : State) (bs : List Byte) (x2 : List Nat) (hs : Kept Q ql s) : Kept Q ql (State.programRun s bs x2) := by
  induction x2 generalizing s bs with
  | nil => grind -ring -linarith [State.programRun, kept_State_dropXip, kept_State_programAt, kept_intro, of_kept]
  | cons x l ih => grind -ring -linarith [State.programRun, kept_State_dropXip, kept_State_programAt, kept_intro, of_kept]

theorem kept_State_writeChunk (s : State) (off : Nat) (bs : List Byte) (hs : Kept Q ql s) : Kept Q ql (State.writeChunk s off bs) := by
  unfold State.writeChunk
  grind -ring -linarith [kept_State_programRun, kept_intro, of_kept]

theorem kept_State_copyStage1 (s : State) (hs : Kept Q ql s) : Kept Q ql (State.copyStage1 s) := by
  unfold State.copyStage1
  grind -ring -linarith [kept_State_eraseBlocks, kept_State_writeChunk, kept_intro, of_kept]

theorem kept_State_enablePages (s : State) (x1 : List Nat) (hs : Kept Q ql s) : Kept Q ql (State.enablePages s x1) := by
  induction x1 generalizing s with
  | nil => grind -ring -linarith [State.enablePages, kept_State_setFld, kept_State_setPg, kept_State_tryStart, kept_intro, of_kept]
  | cons x l ih => grind -ring -linarith [State.enablePages, kept_State_setFld, kept_State_setPg, kept_State_tryStart, kept_intro, of_kept]

theorem kept_State_failCores (s : State) (x1 : List Nat) (hs : Kept Q ql s) : Kept Q ql (State.failCores s x1) := by
  induction x1 generalizing s with
  | nil => grind -ring -linarith [State.failCores, kept_State_coreBist, kept_State_failCore, kept_intro, of_kept]
  | cons x l ih => grind -ring -linarith [State.failCores, kept_State_coreBist, kept_State_failCore, kept_intro, of_kept]

theorem kept_State_failLive (s : State) (hs : Kept Q ql s) : Kept Q ql (State.failLive s) := by
  unfold State.failLive
  grind -ring -linarith [kept_State_enterChecked, kept_State_endOutage, kept_State_rollBack, kept_intro, of_kept]

theorem kept_State_newRoles (s : State) (hs : Kept Q ql s) : Kept Q ql (State.newRoles s) := by
  unfold State.newRoles
  grind -ring -linarith [kept_State_retireEpoch, kept_State_setRoles, kept_intro, of_kept]

theorem kept_State_putData (s : State) (x1 : List (Nat × Byte)) (hs : Kept Q ql s) : Kept Q ql (State.putData s x1) := by
  induction x1 generalizing s with
  | nil =>
    unfold State.putData
    try dsimp only
    repeat' (first | with_reducible assumption | with_reducible apply ih | split | intro _ | (apply kept_intro; dsimp only; apply of_kept))
  | cons x l ih =>
    unfold State.putData
    try dsimp only
    repeat' (first | with_reducible assumption | with_reducible apply ih | split | intro _ | (apply kept_intro; dsimp only; apply of_kept))

theorem kept_State_liveStep (s : State) (op : Nat) (step : Nat) (data : List (Nat × Byte)) (hs : Kept Q ql s) : Kept Q ql (State.liveStep s op step data) := by
  unfold State.liveStep
  grind -ring -linarith (splits := 20) (gen := 16) (ematch := 12) [kept_State_beginOutage, kept_State_takeCheckpoint, kept_State_commitLive, kept_State_copyCode, kept_State_coreBist, kept_State_journalStep, kept_State_newRoles, kept_State_putData, kept_intro, of_kept]

theorem kept_State_markBank (s : State) (b : Nat) (ok : Bool) (hs : Kept Q ql s) : Kept Q ql (State.markBank s b ok) := by
  unfold State.markBank
  grind -ring -linarith [kept_intro, of_kept]

theorem kept_State_setBoot (s : State) (stage : Nat) (status : Nat) (hs : Kept Q ql s) : Kept Q ql (State.setBoot s stage status) := by
  unfold State.setBoot
  grind -ring -linarith [kept_State_setNum, kept_intro, of_kept]

theorem kept_State_startPair (s : State) (cores : List Nat) (hs : Kept Q ql s) : Kept Q ql (State.startPair s cores) := by
  unfold State.startPair
  grind -ring -linarith [kept_State_setFld, kept_State_enterChecked, kept_State_takeCheckpoint, kept_State_enterUnchecked, kept_State_setRoles, kept_intro, of_kept]

theorem kept_State_runMain (s : State) (bank : Nat) (bist : Nat) (version : Nat) (status : Nat) (hs : Kept Q ql s) : Kept Q ql (State.runMain s bank bist version status) := by
  unfold State.runMain
  grind -ring -linarith (splits := 20) (gen := 16) (ematch := 12) [kept_State_setNum, kept_State_setFld, kept_State_serveWaiting, kept_State_enablePages, kept_State_failCores, kept_State_setBoot, kept_State_startPair, kept_intro, of_kept]

theorem kept_State_stageBoot (s : State) (off : Nat) (bs : List Byte) (last : Bool) (hs : Kept Q ql s) : Kept Q ql (State.stageBoot s off bs last).1 := by
  unfold State.stageBoot
  try dsimp only
  repeat' (first | with_reducible assumption | with_reducible apply kept_State_eraseBlocks | with_reducible apply kept_State_writeChunk | with_reducible apply kept_State_copyStage1 | split | intro _ | (apply kept_intro; dsimp only; apply of_kept))

theorem kept_State_stageMain (s : State) (off : Nat) (bs : List Byte) (last : Bool) (hs : Kept Q ql s) : Kept Q ql (State.stageMain s off bs last).1 := by
  unfold State.stageMain
  grind -ring -linarith [kept_State_eraseBlocks, kept_State_writeChunk, kept_State_markBank, kept_intro, of_kept]

theorem kept_execBootRomStart (ok0 : Bool) (ok1 : Bool) (s : State) (hs : Kept Q ql s) : ∀ out, execBootRomStart ok0 ok1 s = .next out → Kept Q ql out := by
  intro out e
  unfold execBootRomStart at e
  grind -ring -linarith [kept_State_setFaultN, kept_State_setBoot, kept_intro, of_kept]

theorem kept_execConfigRead (c : AdminCmd) (s : State) (hs : Kept Q ql s) : ∀ out, execConfigRead c s = .next out → Kept Q ql out := by
  intro out e
  unfold execConfigRead at e
  grind -ring -linarith [kept_State_emit, kept_State_fresh, kept_State_adminRun, kept_State_toBuffer, kept_intro, of_kept]

theorem kept_execConfigWrite (c : AdminCmd) (s : State) (hs : Kept Q ql s) : ∀ out, execConfigWrite c s = .next out → Kept Q ql out := by
  intro out e
  unfold execConfigWrite at e
  grind -ring -linarith [kept_State_setFld, kept_State_adminRun, kept_intro, of_kept]

theorem kept_execFwActivateLive (c : AdminCmd) (s : State) (hs : Kept Q ql s) : ∀ out, execFwActivateLive c s = .next out → Kept Q ql out := by
  intro out e
  unfold execFwActivateLive at e
  grind -ring -linarith [kept_State_adminRun, kept_State_setStw, kept_intro, of_kept]

theorem kept_execFwActivateNextReset (c : AdminCmd) (s : State) (hs : Kept Q ql s) : ∀ out, execFwActivateNextReset c s = .next out → Kept Q ql out := by
  intro out e
  unfold execFwActivateNextReset at e
  grind -ring -linarith [kept_State_adminRun, kept_intro, of_kept]

theorem kept_execFwStage (c : AdminCmd) (s : State) (hs : Kept Q ql s) : ∀ out, execFwStage c s = .next out → Kept Q ql out := by
  intro out e
  unfold execFwStage at e
  grind -ring -linarith [kept_State_adminRun, kept_State_stageBoot, kept_State_stageMain, kept_intro, of_kept]

theorem kept_execLiveActivationStepDone (step : Nat) (ok : Bool) (data : List (Nat × Byte)) (s : State) (hs : Kept Q ql s) : ∀ out, execLiveActivationStepDone step ok data s = .next out → Kept Q ql out := by
  intro out e
  unfold execLiveActivationStepDone at e
  grind -ring -linarith [kept_State_failLive, kept_State_liveStep, kept_intro, of_kept]

theorem kept_execMainImageStart (okA : Bool) (okB : Bool) (recoveryOk : Bool) (bist : Nat) (version : Nat) (s : State) (hs : Kept Q ql s) : ∀ out, execMainImageStart okA okB recoveryOk bist version s = .next out → Kept Q ql out := by
  intro out e
  unfold execMainImageStart at e
  grind -ring -linarith [kept_State_fire, kept_State_setFld, kept_State_setStw, kept_State_setBoot, kept_State_runMain, kept_intro, of_kept]

theorem kept_execProbationEnd (s : State) (hs : Kept Q ql s) : ∀ out, execProbationEnd s = .next out → Kept Q ql out := by
  intro out e
  unfold execProbationEnd at e
  grind -ring -linarith [kept_State_setFld, kept_intro, of_kept]

end Sys2Proof.Machine
end

