-- ==== Sys2Proof/Laws/State.lean ====
section
/-!
SUPPORT. What the plain updates of the state leave as it was, one lemma per update and part of the state.
-/

namespace Sys2Proof.Machine

variable (s : State)

/-! ### Parts of the state -/

@[simp] theorem setReg_pending (page off : Nat) (w : Word) : (s.setReg page off w).pending = s.pending := rfl
@[simp] theorem setReg_now (page off : Nat) (w : Word) : (s.setReg page off w).now = s.now := rfl
@[simp] theorem setReg_free (page off : Nat) (w : Word) : (s.setReg page off w).free = s.free := rfl
@[simp] theorem setReg_out (page off : Nat) (w : Word) : (s.setReg page off w).out = s.out := rfl
@[simp] theorem setReg_arch (page off : Nat) (w : Word) : (s.setReg page off w).arch = s.arch := rfl
@[simp] theorem setReg_host (page off : Nat) (w : Word) : (s.setReg page off w).host = s.host := rfl
@[simp] theorem setReg_stw (page off : Nat) (w : Word) : (s.setReg page off w).stw = s.stw := rfl
@[simp] theorem setReg_attic (page off : Nat) (w : Word) : (s.setReg page off w).attic = s.attic := rfl
@[simp] theorem setReg_seq (page off : Nat) (w : Word) : (s.setReg page off w).seq = s.seq := rfl
@[simp] theorem setReg_fc (page off : Nat) (w : Word) : (s.setReg page off w).fc = s.fc := rfl
@[simp] theorem setReg_win (page off : Nat) (w : Word) : (s.setReg page off w).win = s.win := rfl
@[simp] theorem setReg_fab (page off : Nat) (w : Word) : (s.setReg page off w).fab = s.fab := rfl
@[simp] theorem setReg_dur (page off : Nat) (w : Word) : (s.setReg page off w).dur = s.dur := rfl
@[simp] theorem setReg_twin (page off : Nat) (w : Word) : (s.setReg page off w).twin = s.twin := rfl
@[simp] theorem setReg_larder (page off : Nat) (w : Word) : (s.setReg page off w).larder = s.larder := rfl
@[simp] theorem setReg_loft (page off : Nat) (w : Word) : (s.setReg page off w).loft = s.loft := rfl
@[simp] theorem setReg_cellar (page off : Nat) (w : Word) : (s.setReg page off w).cellar = s.cellar := rfl
@[simp] theorem setReg_dram (page off : Nat) (w : Word) : (s.setReg page off w).dram = s.dram := rfl
@[simp] theorem setReg_power (page off : Nat) (w : Word) : (s.setReg page off w).power = s.power := rfl
@[simp] theorem setReg_integ (page off : Nat) (w : Word) : (s.setReg page off w).integ = s.integ := rfl
@[simp] theorem setReg_clock (page off : Nat) (w : Word) : (s.setReg page off w).clock = s.clock := rfl
@[simp] theorem setReg_hist (page off : Nat) (w : Word) : (s.setReg page off w).hist = s.hist := rfl
@[simp] theorem setReg_tally (page off : Nat) (w : Word) : (s.setReg page off w).tally = s.tally := rfl
@[simp] theorem setReg_perf (page off : Nat) (w : Word) : (s.setReg page off w).perf = s.perf := rfl
@[simp] theorem setReg_age (page off : Nat) (w : Word) : (s.setReg page off w).age = s.age := rfl

@[simp] theorem setFld_pending (page off hi lo v : Nat) : (s.setFld page off hi lo v).pending = s.pending := rfl
@[simp] theorem setFld_now (page off hi lo v : Nat) : (s.setFld page off hi lo v).now = s.now := rfl
@[simp] theorem setFld_free (page off hi lo v : Nat) : (s.setFld page off hi lo v).free = s.free := rfl
@[simp] theorem setFld_out (page off hi lo v : Nat) : (s.setFld page off hi lo v).out = s.out := rfl
@[simp] theorem setFld_arch (page off hi lo v : Nat) : (s.setFld page off hi lo v).arch = s.arch := rfl
@[simp] theorem setFld_host (page off hi lo v : Nat) : (s.setFld page off hi lo v).host = s.host := rfl
@[simp] theorem setFld_stw (page off hi lo v : Nat) : (s.setFld page off hi lo v).stw = s.stw := rfl
@[simp] theorem setFld_attic (page off hi lo v : Nat) : (s.setFld page off hi lo v).attic = s.attic := rfl
@[simp] theorem setFld_seq (page off hi lo v : Nat) : (s.setFld page off hi lo v).seq = s.seq := rfl
@[simp] theorem setFld_fc (page off hi lo v : Nat) : (s.setFld page off hi lo v).fc = s.fc := rfl
@[simp] theorem setFld_win (page off hi lo v : Nat) : (s.setFld page off hi lo v).win = s.win := rfl
@[simp] theorem setFld_fab (page off hi lo v : Nat) : (s.setFld page off hi lo v).fab = s.fab := rfl
@[simp] theorem setFld_dur (page off hi lo v : Nat) : (s.setFld page off hi lo v).dur = s.dur := rfl
@[simp] theorem setFld_twin (page off hi lo v : Nat) : (s.setFld page off hi lo v).twin = s.twin := rfl
@[simp] theorem setFld_larder (page off hi lo v : Nat) : (s.setFld page off hi lo v).larder = s.larder := rfl
@[simp] theorem setFld_loft (page off hi lo v : Nat) : (s.setFld page off hi lo v).loft = s.loft := rfl
@[simp] theorem setFld_cellar (page off hi lo v : Nat) : (s.setFld page off hi lo v).cellar = s.cellar := rfl
@[simp] theorem setFld_dram (page off hi lo v : Nat) : (s.setFld page off hi lo v).dram = s.dram := rfl
@[simp] theorem setFld_power (page off hi lo v : Nat) : (s.setFld page off hi lo v).power = s.power := rfl
@[simp] theorem setFld_integ (page off hi lo v : Nat) : (s.setFld page off hi lo v).integ = s.integ := rfl
@[simp] theorem setFld_clock (page off hi lo v : Nat) : (s.setFld page off hi lo v).clock = s.clock := rfl
@[simp] theorem setFld_hist (page off hi lo v : Nat) : (s.setFld page off hi lo v).hist = s.hist := rfl
@[simp] theorem setFld_tally (page off hi lo v : Nat) : (s.setFld page off hi lo v).tally = s.tally := rfl
@[simp] theorem setFld_perf (page off hi lo v : Nat) : (s.setFld page off hi lo v).perf = s.perf := rfl
@[simp] theorem setFld_age (page off hi lo v : Nat) : (s.setFld page off hi lo v).age = s.age := rfl

@[simp] theorem setNum_pending (page off v : Nat) : (s.setNum page off v).pending = s.pending := rfl
@[simp] theorem setNum_now (page off v : Nat) : (s.setNum page off v).now = s.now := rfl
@[simp] theorem setNum_free (page off v : Nat) : (s.setNum page off v).free = s.free := rfl
@[simp] theorem setNum_out (page off v : Nat) : (s.setNum page off v).out = s.out := rfl
@[simp] theorem setNum_arch (page off v : Nat) : (s.setNum page off v).arch = s.arch := rfl
@[simp] theorem setNum_host (page off v : Nat) : (s.setNum page off v).host = s.host := rfl
@[simp] theorem setNum_stw (page off v : Nat) : (s.setNum page off v).stw = s.stw := rfl
@[simp] theorem setNum_attic (page off v : Nat) : (s.setNum page off v).attic = s.attic := rfl
@[simp] theorem setNum_seq (page off v : Nat) : (s.setNum page off v).seq = s.seq := rfl
@[simp] theorem setNum_fc (page off v : Nat) : (s.setNum page off v).fc = s.fc := rfl
@[simp] theorem setNum_win (page off v : Nat) : (s.setNum page off v).win = s.win := rfl
@[simp] theorem setNum_fab (page off v : Nat) : (s.setNum page off v).fab = s.fab := rfl
@[simp] theorem setNum_dur (page off v : Nat) : (s.setNum page off v).dur = s.dur := rfl
@[simp] theorem setNum_twin (page off v : Nat) : (s.setNum page off v).twin = s.twin := rfl
@[simp] theorem setNum_larder (page off v : Nat) : (s.setNum page off v).larder = s.larder := rfl
@[simp] theorem setNum_loft (page off v : Nat) : (s.setNum page off v).loft = s.loft := rfl
@[simp] theorem setNum_cellar (page off v : Nat) : (s.setNum page off v).cellar = s.cellar := rfl
@[simp] theorem setNum_dram (page off v : Nat) : (s.setNum page off v).dram = s.dram := rfl
@[simp] theorem setNum_power (page off v : Nat) : (s.setNum page off v).power = s.power := rfl
@[simp] theorem setNum_integ (page off v : Nat) : (s.setNum page off v).integ = s.integ := rfl
@[simp] theorem setNum_clock (page off v : Nat) : (s.setNum page off v).clock = s.clock := rfl
@[simp] theorem setNum_hist (page off v : Nat) : (s.setNum page off v).hist = s.hist := rfl
@[simp] theorem setNum_tally (page off v : Nat) : (s.setNum page off v).tally = s.tally := rfl
@[simp] theorem setNum_perf (page off v : Nat) : (s.setNum page off v).perf = s.perf := rfl
@[simp] theorem setNum_age (page off v : Nat) : (s.setNum page off v).age = s.age := rfl

@[simp] theorem set64_pending (page lo hi v : Nat) : (s.set64 page lo hi v).pending = s.pending := rfl
@[simp] theorem set64_now (page lo hi v : Nat) : (s.set64 page lo hi v).now = s.now := rfl
@[simp] theorem set64_free (page lo hi v : Nat) : (s.set64 page lo hi v).free = s.free := rfl
@[simp] theorem set64_out (page lo hi v : Nat) : (s.set64 page lo hi v).out = s.out := rfl
@[simp] theorem set64_arch (page lo hi v : Nat) : (s.set64 page lo hi v).arch = s.arch := rfl
@[simp] theorem set64_host (page lo hi v : Nat) : (s.set64 page lo hi v).host = s.host := rfl
@[simp] theorem set64_stw (page lo hi v : Nat) : (s.set64 page lo hi v).stw = s.stw := rfl
@[simp] theorem set64_attic (page lo hi v : Nat) : (s.set64 page lo hi v).attic = s.attic := rfl
@[simp] theorem set64_seq (page lo hi v : Nat) : (s.set64 page lo hi v).seq = s.seq := rfl
@[simp] theorem set64_fc (page lo hi v : Nat) : (s.set64 page lo hi v).fc = s.fc := rfl
@[simp] theorem set64_win (page lo hi v : Nat) : (s.set64 page lo hi v).win = s.win := rfl
@[simp] theorem set64_fab (page lo hi v : Nat) : (s.set64 page lo hi v).fab = s.fab := rfl
@[simp] theorem set64_dur (page lo hi v : Nat) : (s.set64 page lo hi v).dur = s.dur := rfl
@[simp] theorem set64_twin (page lo hi v : Nat) : (s.set64 page lo hi v).twin = s.twin := rfl
@[simp] theorem set64_larder (page lo hi v : Nat) : (s.set64 page lo hi v).larder = s.larder := rfl
@[simp] theorem set64_loft (page lo hi v : Nat) : (s.set64 page lo hi v).loft = s.loft := rfl
@[simp] theorem set64_cellar (page lo hi v : Nat) : (s.set64 page lo hi v).cellar = s.cellar := rfl
@[simp] theorem set64_dram (page lo hi v : Nat) : (s.set64 page lo hi v).dram = s.dram := rfl
@[simp] theorem set64_power (page lo hi v : Nat) : (s.set64 page lo hi v).power = s.power := rfl
@[simp] theorem set64_integ (page lo hi v : Nat) : (s.set64 page lo hi v).integ = s.integ := rfl
@[simp] theorem set64_clock (page lo hi v : Nat) : (s.set64 page lo hi v).clock = s.clock := rfl
@[simp] theorem set64_hist (page lo hi v : Nat) : (s.set64 page lo hi v).hist = s.hist := rfl
@[simp] theorem set64_tally (page lo hi v : Nat) : (s.set64 page lo hi v).tally = s.tally := rfl
@[simp] theorem set64_perf (page lo hi v : Nat) : (s.set64 page lo hi v).perf = s.perf := rfl
@[simp] theorem set64_age (page lo hi v : Nat) : (s.set64 page lo hi v).age = s.age := rfl

@[simp] theorem emit_pending (o : Output) : (s.emit o).pending = s.pending := rfl
@[simp] theorem emit_now (o : Output) : (s.emit o).now = s.now := rfl
@[simp] theorem emit_free (o : Output) : (s.emit o).free = s.free := rfl
@[simp] theorem emit_regs (o : Output) : (s.emit o).regs = s.regs := rfl
@[simp] theorem emit_arch (o : Output) : (s.emit o).arch = s.arch := rfl
@[simp] theorem emit_host (o : Output) : (s.emit o).host = s.host := rfl
@[simp] theorem emit_stw (o : Output) : (s.emit o).stw = s.stw := rfl
@[simp] theorem emit_attic (o : Output) : (s.emit o).attic = s.attic := rfl
@[simp] theorem emit_seq (o : Output) : (s.emit o).seq = s.seq := rfl
@[simp] theorem emit_fc (o : Output) : (s.emit o).fc = s.fc := rfl
@[simp] theorem emit_win (o : Output) : (s.emit o).win = s.win := rfl
@[simp] theorem emit_fab (o : Output) : (s.emit o).fab = s.fab := rfl
@[simp] theorem emit_dur (o : Output) : (s.emit o).dur = s.dur := rfl
@[simp] theorem emit_twin (o : Output) : (s.emit o).twin = s.twin := rfl
@[simp] theorem emit_larder (o : Output) : (s.emit o).larder = s.larder := rfl
@[simp] theorem emit_loft (o : Output) : (s.emit o).loft = s.loft := rfl
@[simp] theorem emit_cellar (o : Output) : (s.emit o).cellar = s.cellar := rfl
@[simp] theorem emit_dram (o : Output) : (s.emit o).dram = s.dram := rfl
@[simp] theorem emit_power (o : Output) : (s.emit o).power = s.power := rfl
@[simp] theorem emit_integ (o : Output) : (s.emit o).integ = s.integ := rfl
@[simp] theorem emit_clock (o : Output) : (s.emit o).clock = s.clock := rfl
@[simp] theorem emit_hist (o : Output) : (s.emit o).hist = s.hist := rfl
@[simp] theorem emit_tally (o : Output) : (s.emit o).tally = s.tally := rfl
@[simp] theorem emit_perf (o : Output) : (s.emit o).perf = s.perf := rfl
@[simp] theorem emit_age (o : Output) : (s.emit o).age = s.age := rfl

@[simp] theorem setPageInfo_pending (page : Nat) (v : PageInfo) : (s.setPageInfo page v).pending = s.pending := rfl
@[simp] theorem setPageInfo_now (page : Nat) (v : PageInfo) : (s.setPageInfo page v).now = s.now := rfl
@[simp] theorem setPageInfo_free (page : Nat) (v : PageInfo) : (s.setPageInfo page v).free = s.free := rfl
@[simp] theorem setPageInfo_out (page : Nat) (v : PageInfo) : (s.setPageInfo page v).out = s.out := rfl
@[simp] theorem setPageInfo_regs (page : Nat) (v : PageInfo) : (s.setPageInfo page v).regs = s.regs := rfl
@[simp] theorem setPageInfo_host (page : Nat) (v : PageInfo) : (s.setPageInfo page v).host = s.host := rfl
@[simp] theorem setPageInfo_stw (page : Nat) (v : PageInfo) : (s.setPageInfo page v).stw = s.stw := rfl
@[simp] theorem setPageInfo_attic (page : Nat) (v : PageInfo) : (s.setPageInfo page v).attic = s.attic := rfl
@[simp] theorem setPageInfo_seq (page : Nat) (v : PageInfo) : (s.setPageInfo page v).seq = s.seq := rfl
@[simp] theorem setPageInfo_fc (page : Nat) (v : PageInfo) : (s.setPageInfo page v).fc = s.fc := rfl
@[simp] theorem setPageInfo_win (page : Nat) (v : PageInfo) : (s.setPageInfo page v).win = s.win := rfl
@[simp] theorem setPageInfo_fab (page : Nat) (v : PageInfo) : (s.setPageInfo page v).fab = s.fab := rfl
@[simp] theorem setPageInfo_dur (page : Nat) (v : PageInfo) : (s.setPageInfo page v).dur = s.dur := rfl
@[simp] theorem setPageInfo_twin (page : Nat) (v : PageInfo) : (s.setPageInfo page v).twin = s.twin := rfl
@[simp] theorem setPageInfo_larder (page : Nat) (v : PageInfo) : (s.setPageInfo page v).larder = s.larder := rfl
@[simp] theorem setPageInfo_loft (page : Nat) (v : PageInfo) : (s.setPageInfo page v).loft = s.loft := rfl
@[simp] theorem setPageInfo_cellar (page : Nat) (v : PageInfo) : (s.setPageInfo page v).cellar = s.cellar := rfl
@[simp] theorem setPageInfo_dram (page : Nat) (v : PageInfo) : (s.setPageInfo page v).dram = s.dram := rfl
@[simp] theorem setPageInfo_power (page : Nat) (v : PageInfo) : (s.setPageInfo page v).power = s.power := rfl
@[simp] theorem setPageInfo_integ (page : Nat) (v : PageInfo) : (s.setPageInfo page v).integ = s.integ := rfl
@[simp] theorem setPageInfo_clock (page : Nat) (v : PageInfo) : (s.setPageInfo page v).clock = s.clock := rfl
@[simp] theorem setPageInfo_hist (page : Nat) (v : PageInfo) : (s.setPageInfo page v).hist = s.hist := rfl
@[simp] theorem setPageInfo_tally (page : Nat) (v : PageInfo) : (s.setPageInfo page v).tally = s.tally := rfl
@[simp] theorem setPageInfo_perf (page : Nat) (v : PageInfo) : (s.setPageInfo page v).perf = s.perf := rfl
@[simp] theorem setPageInfo_age (page : Nat) (v : PageInfo) : (s.setPageInfo page v).age = s.age := rfl

@[simp] theorem setRegion_pending (r : Nat) (v : RegionState) : (s.setRegion r v).pending = s.pending := rfl
@[simp] theorem setRegion_now (r : Nat) (v : RegionState) : (s.setRegion r v).now = s.now := rfl
@[simp] theorem setRegion_free (r : Nat) (v : RegionState) : (s.setRegion r v).free = s.free := rfl
@[simp] theorem setRegion_out (r : Nat) (v : RegionState) : (s.setRegion r v).out = s.out := rfl
@[simp] theorem setRegion_regs (r : Nat) (v : RegionState) : (s.setRegion r v).regs = s.regs := rfl
@[simp] theorem setRegion_host (r : Nat) (v : RegionState) : (s.setRegion r v).host = s.host := rfl
@[simp] theorem setRegion_stw (r : Nat) (v : RegionState) : (s.setRegion r v).stw = s.stw := rfl
@[simp] theorem setRegion_attic (r : Nat) (v : RegionState) : (s.setRegion r v).attic = s.attic := rfl
@[simp] theorem setRegion_seq (r : Nat) (v : RegionState) : (s.setRegion r v).seq = s.seq := rfl
@[simp] theorem setRegion_fc (r : Nat) (v : RegionState) : (s.setRegion r v).fc = s.fc := rfl
@[simp] theorem setRegion_win (r : Nat) (v : RegionState) : (s.setRegion r v).win = s.win := rfl
@[simp] theorem setRegion_fab (r : Nat) (v : RegionState) : (s.setRegion r v).fab = s.fab := rfl
@[simp] theorem setRegion_dur (r : Nat) (v : RegionState) : (s.setRegion r v).dur = s.dur := rfl
@[simp] theorem setRegion_twin (r : Nat) (v : RegionState) : (s.setRegion r v).twin = s.twin := rfl
@[simp] theorem setRegion_larder (r : Nat) (v : RegionState) : (s.setRegion r v).larder = s.larder := rfl
@[simp] theorem setRegion_loft (r : Nat) (v : RegionState) : (s.setRegion r v).loft = s.loft := rfl
@[simp] theorem setRegion_cellar (r : Nat) (v : RegionState) : (s.setRegion r v).cellar = s.cellar := rfl
@[simp] theorem setRegion_dram (r : Nat) (v : RegionState) : (s.setRegion r v).dram = s.dram := rfl
@[simp] theorem setRegion_power (r : Nat) (v : RegionState) : (s.setRegion r v).power = s.power := rfl
@[simp] theorem setRegion_integ (r : Nat) (v : RegionState) : (s.setRegion r v).integ = s.integ := rfl
@[simp] theorem setRegion_clock (r : Nat) (v : RegionState) : (s.setRegion r v).clock = s.clock := rfl
@[simp] theorem setRegion_hist (r : Nat) (v : RegionState) : (s.setRegion r v).hist = s.hist := rfl
@[simp] theorem setRegion_tally (r : Nat) (v : RegionState) : (s.setRegion r v).tally = s.tally := rfl
@[simp] theorem setRegion_perf (r : Nat) (v : RegionState) : (s.setRegion r v).perf = s.perf := rfl
@[simp] theorem setRegion_age (r : Nat) (v : RegionState) : (s.setRegion r v).age = s.age := rfl

@[simp] theorem setIsland_pending (k : Nat) (v : Island) : (s.setIsland k v).pending = s.pending := rfl
@[simp] theorem setIsland_now (k : Nat) (v : Island) : (s.setIsland k v).now = s.now := rfl
@[simp] theorem setIsland_free (k : Nat) (v : Island) : (s.setIsland k v).free = s.free := rfl
@[simp] theorem setIsland_out (k : Nat) (v : Island) : (s.setIsland k v).out = s.out := rfl
@[simp] theorem setIsland_regs (k : Nat) (v : Island) : (s.setIsland k v).regs = s.regs := rfl
@[simp] theorem setIsland_host (k : Nat) (v : Island) : (s.setIsland k v).host = s.host := rfl
@[simp] theorem setIsland_stw (k : Nat) (v : Island) : (s.setIsland k v).stw = s.stw := rfl
@[simp] theorem setIsland_attic (k : Nat) (v : Island) : (s.setIsland k v).attic = s.attic := rfl
@[simp] theorem setIsland_seq (k : Nat) (v : Island) : (s.setIsland k v).seq = s.seq := rfl
@[simp] theorem setIsland_fc (k : Nat) (v : Island) : (s.setIsland k v).fc = s.fc := rfl
@[simp] theorem setIsland_win (k : Nat) (v : Island) : (s.setIsland k v).win = s.win := rfl
@[simp] theorem setIsland_fab (k : Nat) (v : Island) : (s.setIsland k v).fab = s.fab := rfl
@[simp] theorem setIsland_dur (k : Nat) (v : Island) : (s.setIsland k v).dur = s.dur := rfl
@[simp] theorem setIsland_twin (k : Nat) (v : Island) : (s.setIsland k v).twin = s.twin := rfl
@[simp] theorem setIsland_larder (k : Nat) (v : Island) : (s.setIsland k v).larder = s.larder := rfl
@[simp] theorem setIsland_loft (k : Nat) (v : Island) : (s.setIsland k v).loft = s.loft := rfl
@[simp] theorem setIsland_cellar (k : Nat) (v : Island) : (s.setIsland k v).cellar = s.cellar := rfl
@[simp] theorem setIsland_dram (k : Nat) (v : Island) : (s.setIsland k v).dram = s.dram := rfl
@[simp] theorem setIsland_power (k : Nat) (v : Island) : (s.setIsland k v).power = s.power := rfl
@[simp] theorem setIsland_integ (k : Nat) (v : Island) : (s.setIsland k v).integ = s.integ := rfl
@[simp] theorem setIsland_clock (k : Nat) (v : Island) : (s.setIsland k v).clock = s.clock := rfl
@[simp] theorem setIsland_hist (k : Nat) (v : Island) : (s.setIsland k v).hist = s.hist := rfl
@[simp] theorem setIsland_tally (k : Nat) (v : Island) : (s.setIsland k v).tally = s.tally := rfl
@[simp] theorem setIsland_perf (k : Nat) (v : Island) : (s.setIsland k v).perf = s.perf := rfl
@[simp] theorem setIsland_age (k : Nat) (v : Island) : (s.setIsland k v).age = s.age := rfl

/-! ### Registers -/

/-- Two registers of the map are told apart by page and offset. -/
theorem regKey_inj {p o p' o' : Nat} (h : o < 4096) (h' : o' < 4096) : regKey p o = regKey p' o' ↔ p = p' ∧ o = o' := by
  unfold regKey; omega

@[simp] theorem reg_setReg_self (page off : Nat) (w : Word) : (s.setReg page off w).reg page off = w := by
  simp [State.reg, State.setReg]

theorem reg_setReg_ne {p o page off : Nat} (w : Word) (h : regKey p o ≠ regKey page off) : (s.setReg page off w).reg p o = s.reg p o := by
  simp [State.reg, State.setReg, KM.getD_putD_ne _ _ _ _ h]

/-- A register of another page, or another register of the page, after a write. -/
theorem reg_setReg {p o page off : Nat} (w : Word) (h : o < 4096) (h' : off < 4096) :
    (s.setReg page off w).reg p o = if p = page ∧ o = off then w else s.reg p o := by
  by_cases e : regKey p o = regKey page off
  · have e' := (regKey_inj h h').1 e
    obtain ⟨rfl, rfl⟩ := e'
    simp
  · rw [reg_setReg_ne s w e, if_neg (fun c => e ((regKey_inj h h').2 c))]

theorem reg_setNum {p o page off v : Nat} (h : o < 4096) (h' : off < 4096) :
    (s.setNum page off v).reg p o = if p = page ∧ o = off then BitVec.ofNat 32 v else s.reg p o := reg_setReg s _ h h'

theorem reg_setFld {p o page off hi lo v : Nat} (h : o < 4096) (h' : off < 4096) :
    (s.setFld page off hi lo v).reg p o = if p = page ∧ o = off then setBits (s.reg page off) hi lo v else s.reg p o := reg_setReg s _ h h'

@[simp] theorem reg_emit (o : Output) (p off : Nat) : (s.emit o).reg p off = s.reg p off := rfl

end Sys2Proof.Machine
end

