-- ==== Sys2Proof/Laws/Ops.lean ====
section
/-!
SUPPORT. What the shared operations can do: registers, counters, events, interrupts and result records change nothing but the register file, the counters, what is sent, and what is
pending of each; said once for each operation.
-/

namespace Sys2Proof.Machine

/-- From s to t nothing changed but registers, counters, outputs, interrupts pending, events handed to the Fault Collector, times of limited events, and result records waiting. -/
structure Noted (s t : State) : Prop where
  pending : t.pending = s.pending
  now : t.now = s.now
  free : t.free = s.free
  arch : t.arch = s.arch
  stw : t.stw = s.stw
  attic : t.attic = s.attic
  seq : t.seq = s.seq
  fc : t.fc = s.fc
  win : t.win = s.win
  fab : t.fab = s.fab
  dur : t.dur = s.dur
  twin : t.twin = s.twin
  larder : t.larder = s.larder
  loft : t.loft = s.loft
  cellar : t.cellar = s.cellar
  dram : t.dram = s.dram
  power : t.power = s.power
  integ : t.integ = s.integ
  clock : t.clock = s.clock
  hist : t.hist = s.hist
  tally : t.tally = s.tally
  age : t.age = s.age
  qps0 : t.host.qps0 = s.host.qps0
  qps1 : t.host.qps1 = s.host.qps1
  cmds : t.host.cmds = s.host.cmds
  journal : t.host.journal = s.host.journal
  nextJseq : t.host.nextJseq = s.host.nextJseq
  nextOp : t.host.nextOp = s.host.nextOp
  challenges : t.host.challenges = s.host.challenges
  grants : t.host.grants = s.host.grants
  msix0 : t.host.msix0 = s.host.msix0
  msix1 : t.host.msix1 = s.host.msix1
  vectors0 : t.host.vectors0 = s.host.vectors0
  vectors1 : t.host.vectors1 = s.host.vectors1
  bistRuns : t.host.bistRuns = s.host.bistRuns

theorem Noted.rfl (s : State) : Noted s s := by constructor <;> exact Eq.refl _

theorem Noted.trans {s t u : State} (h : Noted s t) (k : Noted t u) : Noted s u := by
  constructor
  · exact k.pending.trans h.pending
  · exact k.now.trans h.now
  · exact k.free.trans h.free
  · exact k.arch.trans h.arch
  · exact k.stw.trans h.stw
  · exact k.attic.trans h.attic
  · exact k.seq.trans h.seq
  · exact k.fc.trans h.fc
  · exact k.win.trans h.win
  · exact k.fab.trans h.fab
  · exact k.dur.trans h.dur
  · exact k.twin.trans h.twin
  · exact k.larder.trans h.larder
  · exact k.loft.trans h.loft
  · exact k.cellar.trans h.cellar
  · exact k.dram.trans h.dram
  · exact k.power.trans h.power
  · exact k.integ.trans h.integ
  · exact k.clock.trans h.clock
  · exact k.hist.trans h.hist
  · exact k.tally.trans h.tally
  · exact k.age.trans h.age
  · exact k.qps0.trans h.qps0
  · exact k.qps1.trans h.qps1
  · exact k.cmds.trans h.cmds
  · exact k.journal.trans h.journal
  · exact k.nextJseq.trans h.nextJseq
  · exact k.nextOp.trans h.nextOp
  · exact k.challenges.trans h.challenges
  · exact k.grants.trans h.grants
  · exact k.msix0.trans h.msix0
  · exact k.msix1.trans h.msix1
  · exact k.vectors0.trans h.vectors0
  · exact k.vectors1.trans h.vectors1
  · exact k.bistRuns.trans h.bistRuns

variable (s : State)

/-- A change of the register file alone. -/
theorem noted_regs (r : KMap Word) : Noted s { s with regs := r } := by constructor <;> exact Eq.refl _

theorem noted_perf (p : PerfState) : Noted s { s with perf := p } := by constructor <;> exact Eq.refl _

theorem setReg_noted (page off : Nat) (w : Word) : Noted s (s.setReg page off w) := noted_regs s _
theorem setNum_noted (page off v : Nat) : Noted s (s.setNum page off v) := noted_regs s _
theorem setFld_noted (page off hi lo v : Nat) : Noted s (s.setFld page off hi lo v) := noted_regs s _
theorem set64_noted (page lo hi v : Nat) : Noted s (s.set64 page lo hi v) := (setNum_noted s _ _ _).trans (setNum_noted _ _ _ _)
theorem emit_noted (o : Output) : Noted s (s.emit o) := by constructor <;> exact Eq.refl _

theorem setMax_noted (page off v : Nat) : Noted s (s.setMax page off v) := by
  unfold State.setMax; split
  · exact setNum_noted s _ _ _
  · exact Noted.rfl s

theorem perfCount_noted (page code n : Nat) : Noted s (s.perfCount page code n) := by
  unfold State.perfCount; split
  · exact Noted.rfl s
  · exact noted_perf s _

theorem bump_noted (page off n : Nat) : Noted s (s.bump page off n) := (setReg_noted s _ _ _).trans (perfCount_noted _ _ _ _)

theorem lockDrop_noted : Noted s s.lockDrop := bump_noted s _ _ _

theorem countSources_noted (page : Nat) (l : List Nat) : Noted s (s.countSources page l) := by
  induction l generalizing s with
  | nil => exact Noted.rfl s
  | cons i l ih => exact (perfCount_noted s _ _ _).trans (ih _)

/-! ### Events (R38) -/

theorem signal_noted (fn : Fn) (vec : Nat) : Noted s (s.signal fn vec) := by
  unfold State.signal State.setMsixPend
  split
  · cases fn <;> constructor <;> exact Eq.refl _
  · exact emit_noted s _

theorem signalBoth_noted (vec : Nat) : Noted s (s.signalBoth vec) := (signal_noted s _ _).trans (signal_noted _ _ _)

theorem route_noted (page src : Nat) : Noted s (s.route page src) := by
  unfold State.route
  split
  · have h (t : State) (fn : Fn) (v : Option Nat) (ht : Noted s t) :
        Noted s (match v with | some v => if page = pFC then t else t.signal fn v | none => t) := by
      cases v with
      | none => exact ht
      | some v => dsimp only; split
                  · exact ht
                  · exact ht.trans (signal_noted t fn v)
    have h0 : Noted s { s with host.routed := s.host.routed ++ [(page, src, s.severity page src)] } := by constructor <;> exact Eq.refl _
    apply h
    apply h
    split
    · exact h0.trans (signalBoth_noted _ _)
    · exact h0
  · exact Noted.rfl s

theorem routeAll_noted (page : Nat) (l : List Nat) : Noted s (s.routeAll page l) := by
  induction l generalizing s with
  | nil => exact Noted.rfl s
  | cons i l ih => exact (route_noted s _ _).trans (ih _)

theorem fireMask_noted (page : Nat) (m : Word) : Noted s (s.fireMask page m) := by
  unfold State.fireMask
  split
  · exact Noted.rfl s
  · refine Noted.trans ?_ (routeAll_noted _ _ _)
    refine Noted.trans ?_ (countSources_noted _ _ _)
    refine Noted.trans ?_ (perfCount_noted _ _ _ _)
    refine Noted.trans ?_ (setReg_noted _ _ _ _)
    split
    · exact setReg_noted s _ _ _
    · exact (setReg_noted s _ _ _).trans (setNum_noted _ _ _ _)

theorem fire_noted (page src : Nat) : Noted s (s.fire page src) := fireMask_noted s _ _

theorem fireLimited_noted (page src period sub : Nat) : Noted s (s.fireLimited page src period sub) := by
  have h (l : KMap Nat) : Noted s (({ s with host.limits := l } : State).fire page src) :=
    Noted.trans (by constructor <;> exact Eq.refl _) (fire_noted _ _ _)
  unfold State.fireLimited
  dsimp only
  split
  · split
    · exact Noted.rfl s
    · exact h _
  · exact h _

/-! ### Result registers (R43) -/

theorem putWords_noted (page off : Nat) (l : List Nat) : Noted s (s.putWords page off l) := by
  induction l generalizing s off with
  | nil => exact Noted.rfl s
  | cons w l ih => exact (setNum_noted s _ _ _).trans (ih _ _)

theorem present_noted (page off : Nat) (ws : List Nat) : Noted s (s.present page off ws) := by
  unfold State.present
  refine Noted.trans (t := { s with host.overflow := s.host.overflow.filter (· ≠ regKey page off) }) ?_ ?_
  · constructor <;> exact Eq.refl _
  · exact (setNum_noted _ _ _ _).trans (putWords_noted _ _ _ _)

theorem publish_noted (page off : Nat) (ws : List Nat) (cap : Nat) : Noted s (s.publish page off ws cap) := by
  unfold State.publish
  dsimp only
  split
  · exact present_noted s _ _ _
  · split <;> constructor <;> exact Eq.refl _

theorem consume_noted (page off : Nat) : Noted s (s.consume page off) := by
  unfold State.consume
  dsimp only
  refine Noted.trans (setReg_noted s page off (setBits (s.reg page off) 31 31 0)) ?_
  split
  · exact Noted.rfl _
  · refine Noted.trans ?_ (present_noted _ _ _ _)
    constructor <;> exact Eq.refl _

theorem ack_noted (page off seq : Nat) : Noted s (s.ack page off seq) := by
  unfold State.ack; split
  · exact consume_noted s _ _
  · exact bump_noted s _ _ _

/-! ### Parts of the state after them -/

@[simp] theorem bump_pending (page off n : Nat) : (s.bump page off n).pending = s.pending := (bump_noted s page off n).pending
@[simp] theorem bump_now (page off n : Nat) : (s.bump page off n).now = s.now := (bump_noted s page off n).now
@[simp] theorem bump_free (page off n : Nat) : (s.bump page off n).free = s.free := (bump_noted s page off n).free
@[simp] theorem bump_arch (page off n : Nat) : (s.bump page off n).arch = s.arch := (bump_noted s page off n).arch
@[simp] theorem bump_stw (page off n : Nat) : (s.bump page off n).stw = s.stw := (bump_noted s page off n).stw
@[simp] theorem bump_attic (page off n : Nat) : (s.bump page off n).attic = s.attic := (bump_noted s page off n).attic
@[simp] theorem bump_seq (page off n : Nat) : (s.bump page off n).seq = s.seq := (bump_noted s page off n).seq
@[simp] theorem bump_fc (page off n : Nat) : (s.bump page off n).fc = s.fc := (bump_noted s page off n).fc
@[simp] theorem bump_win (page off n : Nat) : (s.bump page off n).win = s.win := (bump_noted s page off n).win
@[simp] theorem bump_fab (page off n : Nat) : (s.bump page off n).fab = s.fab := (bump_noted s page off n).fab
@[simp] theorem bump_dur (page off n : Nat) : (s.bump page off n).dur = s.dur := (bump_noted s page off n).dur
@[simp] theorem bump_twin (page off n : Nat) : (s.bump page off n).twin = s.twin := (bump_noted s page off n).twin
@[simp] theorem bump_larder (page off n : Nat) : (s.bump page off n).larder = s.larder := (bump_noted s page off n).larder
@[simp] theorem bump_loft (page off n : Nat) : (s.bump page off n).loft = s.loft := (bump_noted s page off n).loft
@[simp] theorem bump_cellar (page off n : Nat) : (s.bump page off n).cellar = s.cellar := (bump_noted s page off n).cellar
@[simp] theorem bump_dram (page off n : Nat) : (s.bump page off n).dram = s.dram := (bump_noted s page off n).dram
@[simp] theorem bump_power (page off n : Nat) : (s.bump page off n).power = s.power := (bump_noted s page off n).power
@[simp] theorem bump_integ (page off n : Nat) : (s.bump page off n).integ = s.integ := (bump_noted s page off n).integ
@[simp] theorem bump_clock (page off n : Nat) : (s.bump page off n).clock = s.clock := (bump_noted s page off n).clock
@[simp] theorem bump_hist (page off n : Nat) : (s.bump page off n).hist = s.hist := (bump_noted s page off n).hist
@[simp] theorem bump_tally (page off n : Nat) : (s.bump page off n).tally = s.tally := (bump_noted s page off n).tally
@[simp] theorem bump_age (page off n : Nat) : (s.bump page off n).age = s.age := (bump_noted s page off n).age
@[simp] theorem bump_cmds (page off n : Nat) : (s.bump page off n).host.cmds = s.host.cmds := (bump_noted s page off n).cmds
@[simp] theorem bump_qps0 (page off n : Nat) : (s.bump page off n).host.qps0 = s.host.qps0 := (bump_noted s page off n).qps0
@[simp] theorem bump_qps1 (page off n : Nat) : (s.bump page off n).host.qps1 = s.host.qps1 := (bump_noted s page off n).qps1
@[simp] theorem bump_challenges (page off n : Nat) : (s.bump page off n).host.challenges = s.host.challenges := (bump_noted s page off n).challenges
@[simp] theorem bump_grants (page off n : Nat) : (s.bump page off n).host.grants = s.host.grants := (bump_noted s page off n).grants
@[simp] theorem bump_vectors0 (page off n : Nat) : (s.bump page off n).host.vectors0 = s.host.vectors0 := (bump_noted s page off n).vectors0
@[simp] theorem bump_vectors1 (page off n : Nat) : (s.bump page off n).host.vectors1 = s.host.vectors1 := (bump_noted s page off n).vectors1

@[simp] theorem setMax_pending (page off v : Nat) : (s.setMax page off v).pending = s.pending := (setMax_noted s page off v).pending
@[simp] theorem setMax_now (page off v : Nat) : (s.setMax page off v).now = s.now := (setMax_noted s page off v).now
@[simp] theorem setMax_free (page off v : Nat) : (s.setMax page off v).free = s.free := (setMax_noted s page off v).free
@[simp] theorem setMax_arch (page off v : Nat) : (s.setMax page off v).arch = s.arch := (setMax_noted s page off v).arch
@[simp] theorem setMax_stw (page off v : Nat) : (s.setMax page off v).stw = s.stw := (setMax_noted s page off v).stw
@[simp] theorem setMax_attic (page off v : Nat) : (s.setMax page off v).attic = s.attic := (setMax_noted s page off v).attic
@[simp] theorem setMax_seq (page off v : Nat) : (s.setMax page off v).seq = s.seq := (setMax_noted s page off v).seq
@[simp] theorem setMax_fc (page off v : Nat) : (s.setMax page off v).fc = s.fc := (setMax_noted s page off v).fc
@[simp] theorem setMax_win (page off v : Nat) : (s.setMax page off v).win = s.win := (setMax_noted s page off v).win
@[simp] theorem setMax_fab (page off v : Nat) : (s.setMax page off v).fab = s.fab := (setMax_noted s page off v).fab
@[simp] theorem setMax_dur (page off v : Nat) : (s.setMax page off v).dur = s.dur := (setMax_noted s page off v).dur
@[simp] theorem setMax_twin (page off v : Nat) : (s.setMax page off v).twin = s.twin := (setMax_noted s page off v).twin
@[simp] theorem setMax_larder (page off v : Nat) : (s.setMax page off v).larder = s.larder := (setMax_noted s page off v).larder
@[simp] theorem setMax_loft (page off v : Nat) : (s.setMax page off v).loft = s.loft := (setMax_noted s page off v).loft
@[simp] theorem setMax_cellar (page off v : Nat) : (s.setMax page off v).cellar = s.cellar := (setMax_noted s page off v).cellar
@[simp] theorem setMax_dram (page off v : Nat) : (s.setMax page off v).dram = s.dram := (setMax_noted s page off v).dram
@[simp] theorem setMax_power (page off v : Nat) : (s.setMax page off v).power = s.power := (setMax_noted s page off v).power
@[simp] theorem setMax_integ (page off v : Nat) : (s.setMax page off v).integ = s.integ := (setMax_noted s page off v).integ
@[simp] theorem setMax_clock (page off v : Nat) : (s.setMax page off v).clock = s.clock := (setMax_noted s page off v).clock
@[simp] theorem setMax_hist (page off v : Nat) : (s.setMax page off v).hist = s.hist := (setMax_noted s page off v).hist
@[simp] theorem setMax_tally (page off v : Nat) : (s.setMax page off v).tally = s.tally := (setMax_noted s page off v).tally
@[simp] theorem setMax_age (page off v : Nat) : (s.setMax page off v).age = s.age := (setMax_noted s page off v).age
@[simp] theorem setMax_cmds (page off v : Nat) : (s.setMax page off v).host.cmds = s.host.cmds := (setMax_noted s page off v).cmds
@[simp] theorem setMax_qps0 (page off v : Nat) : (s.setMax page off v).host.qps0 = s.host.qps0 := (setMax_noted s page off v).qps0
@[simp] theorem setMax_qps1 (page off v : Nat) : (s.setMax page off v).host.qps1 = s.host.qps1 := (setMax_noted s page off v).qps1
@[simp] theorem setMax_challenges (page off v : Nat) : (s.setMax page off v).host.challenges = s.host.challenges := (setMax_noted s page off v).challenges
@[simp] theorem setMax_grants (page off v : Nat) : (s.setMax page off v).host.grants = s.host.grants := (setMax_noted s page off v).grants
@[simp] theorem setMax_vectors0 (page off v : Nat) : (s.setMax page off v).host.vectors0 = s.host.vectors0 := (setMax_noted s page off v).vectors0
@[simp] theorem setMax_vectors1 (page off v : Nat) : (s.setMax page off v).host.vectors1 = s.host.vectors1 := (setMax_noted s page off v).vectors1

@[simp] theorem fire_pending (page src : Nat) : (s.fire page src).pending = s.pending := (fire_noted s page src).pending
@[simp] theorem fire_now (page src : Nat) : (s.fire page src).now = s.now := (fire_noted s page src).now
@[simp] theorem fire_free (page src : Nat) : (s.fire page src).free = s.free := (fire_noted s page src).free
@[simp] theorem fire_arch (page src : Nat) : (s.fire page src).arch = s.arch := (fire_noted s page src).arch
@[simp] theorem fire_stw (page src : Nat) : (s.fire page src).stw = s.stw := (fire_noted s page src).stw
@[simp] theorem fire_attic (page src : Nat) : (s.fire page src).attic = s.attic := (fire_noted s page src).attic
@[simp] theorem fire_seq (page src : Nat) : (s.fire page src).seq = s.seq := (fire_noted s page src).seq
@[simp] theorem fire_fc (page src : Nat) : (s.fire page src).fc = s.fc := (fire_noted s page src).fc
@[simp] theorem fire_win (page src : Nat) : (s.fire page src).win = s.win := (fire_noted s page src).win
@[simp] theorem fire_fab (page src : Nat) : (s.fire page src).fab = s.fab := (fire_noted s page src).fab
@[simp] theorem fire_dur (page src : Nat) : (s.fire page src).dur = s.dur := (fire_noted s page src).dur
@[simp] theorem fire_twin (page src : Nat) : (s.fire page src).twin = s.twin := (fire_noted s page src).twin
@[simp] theorem fire_larder (page src : Nat) : (s.fire page src).larder = s.larder := (fire_noted s page src).larder
@[simp] theorem fire_loft (page src : Nat) : (s.fire page src).loft = s.loft := (fire_noted s page src).loft
@[simp] theorem fire_cellar (page src : Nat) : (s.fire page src).cellar = s.cellar := (fire_noted s page src).cellar
@[simp] theorem fire_dram (page src : Nat) : (s.fire page src).dram = s.dram := (fire_noted s page src).dram
@[simp] theorem fire_power (page src : Nat) : (s.fire page src).power = s.power := (fire_noted s page src).power
@[simp] theorem fire_integ (page src : Nat) : (s.fire page src).integ = s.integ := (fire_noted s page src).integ
@[simp] theorem fire_clock (page src : Nat) : (s.fire page src).clock = s.clock := (fire_noted s page src).clock
@[simp] theorem fire_hist (page src : Nat) : (s.fire page src).hist = s.hist := (fire_noted s page src).hist
@[simp] theorem fire_tally (page src : Nat) : (s.fire page src).tally = s.tally := (fire_noted s page src).tally
@[simp] theorem fire_age (page src : Nat) : (s.fire page src).age = s.age := (fire_noted s page src).age
@[simp] theorem fire_cmds (page src : Nat) : (s.fire page src).host.cmds = s.host.cmds := (fire_noted s page src).cmds
@[simp] theorem fire_qps0 (page src : Nat) : (s.fire page src).host.qps0 = s.host.qps0 := (fire_noted s page src).qps0
@[simp] theorem fire_qps1 (page src : Nat) : (s.fire page src).host.qps1 = s.host.qps1 := (fire_noted s page src).qps1
@[simp] theorem fire_challenges (page src : Nat) : (s.fire page src).host.challenges = s.host.challenges := (fire_noted s page src).challenges
@[simp] theorem fire_grants (page src : Nat) : (s.fire page src).host.grants = s.host.grants := (fire_noted s page src).grants
@[simp] theorem fire_vectors0 (page src : Nat) : (s.fire page src).host.vectors0 = s.host.vectors0 := (fire_noted s page src).vectors0
@[simp] theorem fire_vectors1 (page src : Nat) : (s.fire page src).host.vectors1 = s.host.vectors1 := (fire_noted s page src).vectors1

@[simp] theorem fireMask_pending (page : Nat) (m : Word) : (s.fireMask page m).pending = s.pending := (fireMask_noted s page m).pending
@[simp] theorem fireMask_now (page : Nat) (m : Word) : (s.fireMask page m).now = s.now := (fireMask_noted s page m).now
@[simp] theorem fireMask_free (page : Nat) (m : Word) : (s.fireMask page m).free = s.free := (fireMask_noted s page m).free
@[simp] theorem fireMask_arch (page : Nat) (m : Word) : (s.fireMask page m).arch = s.arch := (fireMask_noted s page m).arch
@[simp] theorem fireMask_stw (page : Nat) (m : Word) : (s.fireMask page m).stw = s.stw := (fireMask_noted s page m).stw
@[simp] theorem fireMask_attic (page : Nat) (m : Word) : (s.fireMask page m).attic = s.attic := (fireMask_noted s page m).attic
@[simp] theorem fireMask_seq (page : Nat) (m : Word) : (s.fireMask page m).seq = s.seq := (fireMask_noted s page m).seq
@[simp] theorem fireMask_fc (page : Nat) (m : Word) : (s.fireMask page m).fc = s.fc := (fireMask_noted s page m).fc
@[simp] theorem fireMask_win (page : Nat) (m : Word) : (s.fireMask page m).win = s.win := (fireMask_noted s page m).win
@[simp] theorem fireMask_fab (page : Nat) (m : Word) : (s.fireMask page m).fab = s.fab := (fireMask_noted s page m).fab
@[simp] theorem fireMask_dur (page : Nat) (m : Word) : (s.fireMask page m).dur = s.dur := (fireMask_noted s page m).dur
@[simp] theorem fireMask_twin (page : Nat) (m : Word) : (s.fireMask page m).twin = s.twin := (fireMask_noted s page m).twin
@[simp] theorem fireMask_larder (page : Nat) (m : Word) : (s.fireMask page m).larder = s.larder := (fireMask_noted s page m).larder
@[simp] theorem fireMask_loft (page : Nat) (m : Word) : (s.fireMask page m).loft = s.loft := (fireMask_noted s page m).loft
@[simp] theorem fireMask_cellar (page : Nat) (m : Word) : (s.fireMask page m).cellar = s.cellar := (fireMask_noted s page m).cellar
@[simp] theorem fireMask_dram (page : Nat) (m : Word) : (s.fireMask page m).dram = s.dram := (fireMask_noted s page m).dram
@[simp] theorem fireMask_power (page : Nat) (m : Word) : (s.fireMask page m).power = s.power := (fireMask_noted s page m).power
@[simp] theorem fireMask_integ (page : Nat) (m : Word) : (s.fireMask page m).integ = s.integ := (fireMask_noted s page m).integ
@[simp] theorem fireMask_clock (page : Nat) (m : Word) : (s.fireMask page m).clock = s.clock := (fireMask_noted s page m).clock
@[simp] theorem fireMask_hist (page : Nat) (m : Word) : (s.fireMask page m).hist = s.hist := (fireMask_noted s page m).hist
@[simp] theorem fireMask_tally (page : Nat) (m : Word) : (s.fireMask page m).tally = s.tally := (fireMask_noted s page m).tally
@[simp] theorem fireMask_age (page : Nat) (m : Word) : (s.fireMask page m).age = s.age := (fireMask_noted s page m).age
@[simp] theorem fireMask_cmds (page : Nat) (m : Word) : (s.fireMask page m).host.cmds = s.host.cmds := (fireMask_noted s page m).cmds
@[simp] theorem fireMask_qps0 (page : Nat) (m : Word) : (s.fireMask page m).host.qps0 = s.host.qps0 := (fireMask_noted s page m).qps0
@[simp] theorem fireMask_qps1 (page : Nat) (m : Word) : (s.fireMask page m).host.qps1 = s.host.qps1 := (fireMask_noted s page m).qps1
@[simp] theorem fireMask_challenges (page : Nat) (m : Word) : (s.fireMask page m).host.challenges = s.host.challenges := (fireMask_noted s page m).challenges
@[simp] theorem fireMask_grants (page : Nat) (m : Word) : (s.fireMask page m).host.grants = s.host.grants := (fireMask_noted s page m).grants
@[simp] theorem fireMask_vectors0 (page : Nat) (m : Word) : (s.fireMask page m).host.vectors0 = s.host.vectors0 := (fireMask_noted s page m).vectors0
@[simp] theorem fireMask_vectors1 (page : Nat) (m : Word) : (s.fireMask page m).host.vectors1 = s.host.vectors1 := (fireMask_noted s page m).vectors1

@[simp] theorem fireLimited_pending (page src period sub : Nat) : (s.fireLimited page src period sub).pending = s.pending := (fireLimited_noted s page src period sub).pending
@[simp] theorem fireLimited_now (page src period sub : Nat) : (s.fireLimited page src period sub).now = s.now := (fireLimited_noted s page src period sub).now
@[simp] theorem fireLimited_free (page src period sub : Nat) : (s.fireLimited page src period sub).free = s.free := (fireLimited_noted s page src period sub).free
@[simp] theorem fireLimited_arch (page src period sub : Nat) : (s.fireLimited page src period sub).arch = s.arch := (fireLimited_noted s page src period sub).arch
@[simp] theorem fireLimited_stw (page src period sub : Nat) : (s.fireLimited page src period sub).stw = s.stw := (fireLimited_noted s page src period sub).stw
@[simp] theorem fireLimited_attic (page src period sub : Nat) : (s.fireLimited page src period sub).attic = s.attic := (fireLimited_noted s page src period sub).attic
@[simp] theorem fireLimited_seq (page src period sub : Nat) : (s.fireLimited page src period sub).seq = s.seq := (fireLimited_noted s page src period sub).seq
@[simp] theorem fireLimited_fc (page src period sub : Nat) : (s.fireLimited page src period sub).fc = s.fc := (fireLimited_noted s page src period sub).fc
@[simp] theorem fireLimited_win (page src period sub : Nat) : (s.fireLimited page src period sub).win = s.win := (fireLimited_noted s page src period sub).win
@[simp] theorem fireLimited_fab (page src period sub : Nat) : (s.fireLimited page src period sub).fab = s.fab := (fireLimited_noted s page src period sub).fab
@[simp] theorem fireLimited_dur (page src period sub : Nat) : (s.fireLimited page src period sub).dur = s.dur := (fireLimited_noted s page src period sub).dur
@[simp] theorem fireLimited_twin (page src period sub : Nat) : (s.fireLimited page src period sub).twin = s.twin := (fireLimited_noted s page src period sub).twin
@[simp] theorem fireLimited_larder (page src period sub : Nat) : (s.fireLimited page src period sub).larder = s.larder := (fireLimited_noted s page src period sub).larder
@[simp] theorem fireLimited_loft (page src period sub : Nat) : (s.fireLimited page src period sub).loft = s.loft := (fireLimited_noted s page src period sub).loft
@[simp] theorem fireLimited_cellar (page src period sub : Nat) : (s.fireLimited page src period sub).cellar = s.cellar := (fireLimited_noted s page src period sub).cellar
@[simp] theorem fireLimited_dram (page src period sub : Nat) : (s.fireLimited page src period sub).dram = s.dram := (fireLimited_noted s page src period sub).dram
@[simp] theorem fireLimited_power (page src period sub : Nat) : (s.fireLimited page src period sub).power = s.power := (fireLimited_noted s page src period sub).power
@[simp] theorem fireLimited_integ (page src period sub : Nat) : (s.fireLimited page src period sub).integ = s.integ := (fireLimited_noted s page src period sub).integ
@[simp] theorem fireLimited_clock (page src period sub : Nat) : (s.fireLimited page src period sub).clock = s.clock := (fireLimited_noted s page src period sub).clock
@[simp] theorem fireLimited_hist (page src period sub : Nat) : (s.fireLimited page src period sub).hist = s.hist := (fireLimited_noted s page src period sub).hist
@[simp] theorem fireLimited_tally (page src period sub : Nat) : (s.fireLimited page src period sub).tally = s.tally := (fireLimited_noted s page src period sub).tally
@[simp] theorem fireLimited_age (page src period sub : Nat) : (s.fireLimited page src period sub).age = s.age := (fireLimited_noted s page src period sub).age
@[simp] theorem fireLimited_cmds (page src period sub : Nat) : (s.fireLimited page src period sub).host.cmds = s.host.cmds := (fireLimited_noted s page src period sub).cmds
@[simp] theorem fireLimited_qps0 (page src period sub : Nat) : (s.fireLimited page src period sub).host.qps0 = s.host.qps0 := (fireLimited_noted s page src period sub).qps0
@[simp] theorem fireLimited_qps1 (page src period sub : Nat) : (s.fireLimited page src period sub).host.qps1 = s.host.qps1 := (fireLimited_noted s page src period sub).qps1
@[simp] theorem fireLimited_challenges (page src period sub : Nat) : (s.fireLimited page src period sub).host.challenges = s.host.challenges := (fireLimited_noted s page src period sub).challenges
@[simp] theorem fireLimited_grants (page src period sub : Nat) : (s.fireLimited page src period sub).host.grants = s.host.grants := (fireLimited_noted s page src period sub).grants
@[simp] theorem fireLimited_vectors0 (page src period sub : Nat) : (s.fireLimited page src period sub).host.vectors0 = s.host.vectors0 := (fireLimited_noted s page src period sub).vectors0
@[simp] theorem fireLimited_vectors1 (page src period sub : Nat) : (s.fireLimited page src period sub).host.vectors1 = s.host.vectors1 := (fireLimited_noted s page src period sub).vectors1

@[simp] theorem publish_pending (page off : Nat) (ws : List Nat) (cap : Nat) : (s.publish page off ws cap).pending = s.pending := (publish_noted s page off ws cap).pending
@[simp] theorem publish_now (page off : Nat) (ws : List Nat) (cap : Nat) : (s.publish page off ws cap).now = s.now := (publish_noted s page off ws cap).now
@[simp] theorem publish_free (page off : Nat) (ws : List Nat) (cap : Nat) : (s.publish page off ws cap).free = s.free := (publish_noted s page off ws cap).free
@[simp] theorem publish_arch (page off : Nat) (ws : List Nat) (cap : Nat) : (s.publish page off ws cap).arch = s.arch := (publish_noted s page off ws cap).arch
@[simp] theorem publish_stw (page off : Nat) (ws : List Nat) (cap : Nat) : (s.publish page off ws cap).stw = s.stw := (publish_noted s page off ws cap).stw
@[simp] theorem publish_attic (page off : Nat) (ws : List Nat) (cap : Nat) : (s.publish page off ws cap).attic = s.attic := (publish_noted s page off ws cap).attic
@[simp] theorem publish_seq (page off : Nat) (ws : List Nat) (cap : Nat) : (s.publish page off ws cap).seq = s.seq := (publish_noted s page off ws cap).seq
@[simp] theorem publish_fc (page off : Nat) (ws : List Nat) (cap : Nat) : (s.publish page off ws cap).fc = s.fc := (publish_noted s page off ws cap).fc
@[simp] theorem publish_win (page off : Nat) (ws : List Nat) (cap : Nat) : (s.publish page off ws cap).win = s.win := (publish_noted s page off ws cap).win
@[simp] theorem publish_fab (page off : Nat) (ws : List Nat) (cap : Nat) : (s.publish page off ws cap).fab = s.fab := (publish_noted s page off ws cap).fab
@[simp] theorem publish_dur (page off : Nat) (ws : List Nat) (cap : Nat) : (s.publish page off ws cap).dur = s.dur := (publish_noted s page off ws cap).dur
@[simp] theorem publish_twin (page off : Nat) (ws : List Nat) (cap : Nat) : (s.publish page off ws cap).twin = s.twin := (publish_noted s page off ws cap).twin
@[simp] theorem publish_larder (page off : Nat) (ws : List Nat) (cap : Nat) : (s.publish page off ws cap).larder = s.larder := (publish_noted s page off ws cap).larder
@[simp] theorem publish_loft (page off : Nat) (ws : List Nat) (cap : Nat) : (s.publish page off ws cap).loft = s.loft := (publish_noted s page off ws cap).loft
@[simp] theorem publish_cellar (page off : Nat) (ws : List Nat) (cap : Nat) : (s.publish page off ws cap).cellar = s.cellar := (publish_noted s page off ws cap).cellar
@[simp] theorem publish_dram (page off : Nat) (ws : List Nat) (cap : Nat) : (s.publish page off ws cap).dram = s.dram := (publish_noted s page off ws cap).dram
@[simp] theorem publish_power (page off : Nat) (ws : List Nat) (cap : Nat) : (s.publish page off ws cap).power = s.power := (publish_noted s page off ws cap).power
@[simp] theorem publish_integ (page off : Nat) (ws : List Nat) (cap : Nat) : (s.publish page off ws cap).integ = s.integ := (publish_noted s page off ws cap).integ
@[simp] theorem publish_clock (page off : Nat) (ws : List Nat) (cap : Nat) : (s.publish page off ws cap).clock = s.clock := (publish_noted s page off ws cap).clock
@[simp] theorem publish_hist (page off : Nat) (ws : List Nat) (cap : Nat) : (s.publish page off ws cap).hist = s.hist := (publish_noted s page off ws cap).hist
@[simp] theorem publish_tally (page off : Nat) (ws : List Nat) (cap : Nat) : (s.publish page off ws cap).tally = s.tally := (publish_noted s page off ws cap).tally
@[simp] theorem publish_age (page off : Nat) (ws : List Nat) (cap : Nat) : (s.publish page off ws cap).age = s.age := (publish_noted s page off ws cap).age
@[simp] theorem publish_cmds (page off : Nat) (ws : List Nat) (cap : Nat) : (s.publish page off ws cap).host.cmds = s.host.cmds := (publish_noted s page off ws cap).cmds
@[simp] theorem publish_qps0 (page off : Nat) (ws : List Nat) (cap : Nat) : (s.publish page off ws cap).host.qps0 = s.host.qps0 := (publish_noted s page off ws cap).qps0
@[simp] theorem publish_qps1 (page off : Nat) (ws : List Nat) (cap : Nat) : (s.publish page off ws cap).host.qps1 = s.host.qps1 := (publish_noted s page off ws cap).qps1
@[simp] theorem publish_challenges (page off : Nat) (ws : List Nat) (cap : Nat) : (s.publish page off ws cap).host.challenges = s.host.challenges := (publish_noted s page off ws cap).challenges
@[simp] theorem publish_grants (page off : Nat) (ws : List Nat) (cap : Nat) : (s.publish page off ws cap).host.grants = s.host.grants := (publish_noted s page off ws cap).grants
@[simp] theorem publish_vectors0 (page off : Nat) (ws : List Nat) (cap : Nat) : (s.publish page off ws cap).host.vectors0 = s.host.vectors0 := (publish_noted s page off ws cap).vectors0
@[simp] theorem publish_vectors1 (page off : Nat) (ws : List Nat) (cap : Nat) : (s.publish page off ws cap).host.vectors1 = s.host.vectors1 := (publish_noted s page off ws cap).vectors1

@[simp] theorem consume_pending (page off : Nat) : (s.consume page off).pending = s.pending := (consume_noted s page off).pending
@[simp] theorem consume_now (page off : Nat) : (s.consume page off).now = s.now := (consume_noted s page off).now
@[simp] theorem consume_free (page off : Nat) : (s.consume page off).free = s.free := (consume_noted s page off).free
@[simp] theorem consume_arch (page off : Nat) : (s.consume page off).arch = s.arch := (consume_noted s page off).arch
@[simp] theorem consume_stw (page off : Nat) : (s.consume page off).stw = s.stw := (consume_noted s page off).stw
@[simp] theorem consume_attic (page off : Nat) : (s.consume page off).attic = s.attic := (consume_noted s page off).attic
@[simp] theorem consume_seq (page off : Nat) : (s.consume page off).seq = s.seq := (consume_noted s page off).seq
@[simp] theorem consume_fc (page off : Nat) : (s.consume page off).fc = s.fc := (consume_noted s page off).fc
@[simp] theorem consume_win (page off : Nat) : (s.consume page off).win = s.win := (consume_noted s page off).win
@[simp] theorem consume_fab (page off : Nat) : (s.consume page off).fab = s.fab := (consume_noted s page off).fab
@[simp] theorem consume_dur (page off : Nat) : (s.consume page off).dur = s.dur := (consume_noted s page off).dur
@[simp] theorem consume_twin (page off : Nat) : (s.consume page off).twin = s.twin := (consume_noted s page off).twin
@[simp] theorem consume_larder (page off : Nat) : (s.consume page off).larder = s.larder := (consume_noted s page off).larder
@[simp] theorem consume_loft (page off : Nat) : (s.consume page off).loft = s.loft := (consume_noted s page off).loft
@[simp] theorem consume_cellar (page off : Nat) : (s.consume page off).cellar = s.cellar := (consume_noted s page off).cellar
@[simp] theorem consume_dram (page off : Nat) : (s.consume page off).dram = s.dram := (consume_noted s page off).dram
@[simp] theorem consume_power (page off : Nat) : (s.consume page off).power = s.power := (consume_noted s page off).power
@[simp] theorem consume_integ (page off : Nat) : (s.consume page off).integ = s.integ := (consume_noted s page off).integ
@[simp] theorem consume_clock (page off : Nat) : (s.consume page off).clock = s.clock := (consume_noted s page off).clock
@[simp] theorem consume_hist (page off : Nat) : (s.consume page off).hist = s.hist := (consume_noted s page off).hist
@[simp] theorem consume_tally (page off : Nat) : (s.consume page off).tally = s.tally := (consume_noted s page off).tally
@[simp] theorem consume_age (page off : Nat) : (s.consume page off).age = s.age := (consume_noted s page off).age
@[simp] theorem consume_cmds (page off : Nat) : (s.consume page off).host.cmds = s.host.cmds := (consume_noted s page off).cmds
@[simp] theorem consume_qps0 (page off : Nat) : (s.consume page off).host.qps0 = s.host.qps0 := (consume_noted s page off).qps0
@[simp] theorem consume_qps1 (page off : Nat) : (s.consume page off).host.qps1 = s.host.qps1 := (consume_noted s page off).qps1
@[simp] theorem consume_challenges (page off : Nat) : (s.consume page off).host.challenges = s.host.challenges := (consume_noted s page off).challenges
@[simp] theorem consume_grants (page off : Nat) : (s.consume page off).host.grants = s.host.grants := (consume_noted s page off).grants
@[simp] theorem consume_vectors0 (page off : Nat) : (s.consume page off).host.vectors0 = s.host.vectors0 := (consume_noted s page off).vectors0
@[simp] theorem consume_vectors1 (page off : Nat) : (s.consume page off).host.vectors1 = s.host.vectors1 := (consume_noted s page off).vectors1

@[simp] theorem ack_pending (page off seq : Nat) : (s.ack page off seq).pending = s.pending := (ack_noted s page off seq).pending
@[simp] theorem ack_now (page off seq : Nat) : (s.ack page off seq).now = s.now := (ack_noted s page off seq).now
@[simp] theorem ack_free (page off seq : Nat) : (s.ack page off seq).free = s.free := (ack_noted s page off seq).free
@[simp] theorem ack_arch (page off seq : Nat) : (s.ack page off seq).arch = s.arch := (ack_noted s page off seq).arch
@[simp] theorem ack_stw (page off seq : Nat) : (s.ack page off seq).stw = s.stw := (ack_noted s page off seq).stw
@[simp] theorem ack_attic (page off seq : Nat) : (s.ack page off seq).attic = s.attic := (ack_noted s page off seq).attic
@[simp] theorem ack_seq (page off seq : Nat) : (s.ack page off seq).seq = s.seq := (ack_noted s page off seq).seq
@[simp] theorem ack_fc (page off seq : Nat) : (s.ack page off seq).fc = s.fc := (ack_noted s page off seq).fc
@[simp] theorem ack_win (page off seq : Nat) : (s.ack page off seq).win = s.win := (ack_noted s page off seq).win
@[simp] theorem ack_fab (page off seq : Nat) : (s.ack page off seq).fab = s.fab := (ack_noted s page off seq).fab
@[simp] theorem ack_dur (page off seq : Nat) : (s.ack page off seq).dur = s.dur := (ack_noted s page off seq).dur
@[simp] theorem ack_twin (page off seq : Nat) : (s.ack page off seq).twin = s.twin := (ack_noted s page off seq).twin
@[simp] theorem ack_larder (page off seq : Nat) : (s.ack page off seq).larder = s.larder := (ack_noted s page off seq).larder
@[simp] theorem ack_loft (page off seq : Nat) : (s.ack page off seq).loft = s.loft := (ack_noted s page off seq).loft
@[simp] theorem ack_cellar (page off seq : Nat) : (s.ack page off seq).cellar = s.cellar := (ack_noted s page off seq).cellar
@[simp] theorem ack_dram (page off seq : Nat) : (s.ack page off seq).dram = s.dram := (ack_noted s page off seq).dram
@[simp] theorem ack_power (page off seq : Nat) : (s.ack page off seq).power = s.power := (ack_noted s page off seq).power
@[simp] theorem ack_integ (page off seq : Nat) : (s.ack page off seq).integ = s.integ := (ack_noted s page off seq).integ
@[simp] theorem ack_clock (page off seq : Nat) : (s.ack page off seq).clock = s.clock := (ack_noted s page off seq).clock
@[simp] theorem ack_hist (page off seq : Nat) : (s.ack page off seq).hist = s.hist := (ack_noted s page off seq).hist
@[simp] theorem ack_tally (page off seq : Nat) : (s.ack page off seq).tally = s.tally := (ack_noted s page off seq).tally
@[simp] theorem ack_age (page off seq : Nat) : (s.ack page off seq).age = s.age := (ack_noted s page off seq).age
@[simp] theorem ack_cmds (page off seq : Nat) : (s.ack page off seq).host.cmds = s.host.cmds := (ack_noted s page off seq).cmds
@[simp] theorem ack_qps0 (page off seq : Nat) : (s.ack page off seq).host.qps0 = s.host.qps0 := (ack_noted s page off seq).qps0
@[simp] theorem ack_qps1 (page off seq : Nat) : (s.ack page off seq).host.qps1 = s.host.qps1 := (ack_noted s page off seq).qps1
@[simp] theorem ack_challenges (page off seq : Nat) : (s.ack page off seq).host.challenges = s.host.challenges := (ack_noted s page off seq).challenges
@[simp] theorem ack_grants (page off seq : Nat) : (s.ack page off seq).host.grants = s.host.grants := (ack_noted s page off seq).grants
@[simp] theorem ack_vectors0 (page off seq : Nat) : (s.ack page off seq).host.vectors0 = s.host.vectors0 := (ack_noted s page off seq).vectors0
@[simp] theorem ack_vectors1 (page off seq : Nat) : (s.ack page off seq).host.vectors1 = s.host.vectors1 := (ack_noted s page off seq).vectors1

/-! ### Registers after them -/

@[simp] theorem reg_perfCount (page code n p o : Nat) : (s.perfCount page code n).reg p o = s.reg p o := by
  unfold State.perfCount; split <;> rfl

@[simp] theorem reg_countSources (page : Nat) (l : List Nat) (p o : Nat) : (s.countSources page l).reg p o = s.reg p o := by
  induction l generalizing s with
  | nil => rfl
  | cons i l ih => rw [State.countSources, ih, reg_perfCount]

@[simp] theorem reg_signal (fn : Fn) (vec p o : Nat) : (s.signal fn vec).reg p o = s.reg p o := by
  unfold State.signal State.setMsixPend; split
  · cases fn <;> rfl
  · rfl

@[simp] theorem reg_signalBoth (vec p o : Nat) : (s.signalBoth vec).reg p o = s.reg p o := by simp [State.signalBoth]

@[simp] theorem reg_route (page src p o : Nat) : (s.route page src).reg p o = s.reg p o := by
  unfold State.route
  split
  · have h (t : State) (fn : Fn) (v : Option Nat) (ht : t.reg p o = s.reg p o) :
        (match v with | some v => if page = pFC then t else t.signal fn v | none => t).reg p o = s.reg p o := by
      cases v with
      | none => exact ht
      | some v => dsimp only; split
                  · exact ht
                  · rw [reg_signal]; exact ht
    apply h
    apply h
    split
    · rw [reg_signalBoth]; rfl
    · rfl
  · rfl

@[simp] theorem reg_routeAll (page : Nat) (l : List Nat) (p o : Nat) : (s.routeAll page l).reg p o = s.reg p o := by
  induction l generalizing s with
  | nil => rfl
  | cons i l ih => rw [State.routeAll, ih, reg_route]

/-- A counter raised. -/
theorem reg_bump {p o page off n : Nat} (h : o < 4096) (h' : off < 4096) :
    (s.bump page off n).reg p o = if p = page ∧ o = off then satAdd (s.reg page off) n else s.reg p o := by
  unfold State.bump; rw [reg_perfCount, reg_setReg s _ h h']

/-- Firing leaves every register but EV_STATUS, EV_FIRST and EV_COUNT of its page. -/
theorem reg_fireMask_ne {p o page : Nat} (m : Word) (h : o < 4096) (hp : p ≠ page ∨ (o ≠ 0x010 ∧ o ≠ 0x01C ∧ o ≠ 0x028)) :
    (s.fireMask page m).reg p o = s.reg p o := by
  unfold State.fireMask
  split
  · rfl
  · dsimp only
    rw [reg_routeAll, reg_countSources, reg_perfCount, reg_setReg _ _ h (by decide), if_neg (by omega)]
    split
    · rw [reg_setReg _ _ h (by decide), if_neg (by omega)]
    · rw [reg_setNum _ h (by decide), if_neg (by omega), reg_setReg _ _ h (by decide), if_neg (by omega)]

theorem reg_fire_ne {p o page : Nat} (src : Nat) (h : o < 4096) (hp : p ≠ page ∨ (o ≠ 0x010 ∧ o ≠ 0x01C ∧ o ≠ 0x028)) :
    (s.fire page src).reg p o = s.reg p o := reg_fireMask_ne s _ h hp

theorem reg_fireLimited_ne {p o page : Nat} (src period sub : Nat) (h : o < 4096) (hp : p ≠ page ∨ (o ≠ 0x010 ∧ o ≠ 0x01C ∧ o ≠ 0x028)) :
    (s.fireLimited page src period sub).reg p o = s.reg p o := by
  unfold State.fireLimited
  dsimp only
  split
  · split
    · rfl
    · exact reg_fire_ne _ _ h hp
  · exact reg_fire_ne _ _ h hp

/-! ### Register writes and commands that take effect -/

/-- A register write that lands has its effect. -/
theorem guarded_of_writable {req : Requester} {page : Nat} (f : State → State) (h : s.writable req page = true) : s.guarded req page f = f s := by
  unfold State.writable at h
  simp only [Bool.and_eq_true, Bool.not_eq_true', Option.isSome_iff_ne_none, ne_eq] at h
  unfold State.guarded
  rw [if_neg (by simp [h.1.1, h.1.2]), if_neg (by simp [h.2])]

/-- A command that begins has its own effect; it completes with what its effect answers, or later. -/
theorem adminRun_of_admits {op : Nat} {c : AdminCmd} (body : Nat → State → State × Option Answer) (h : s.admits op c = true) :
    s.adminRun op c body = match body (s.opOf op c) (s.begun op c) with | (t, some a) => t.complete (s.opOf op c) a | (t, none) => t := by
  unfold State.admits at h
  unfold State.opOf State.begun
  cases e : s.starting op c with
  | none => rw [e] at h; cases h
  | some x =>
    obtain ⟨i, t⟩ := x
    unfold State.starting at e
    unfold State.adminRun
    split at e
    · cases e
    · split at e
      · rename_i o before hf hp
        try rw [hf]
        dsimp only at e ⊢
        try rw [if_pos hp]
        split at e
        · cases e
        · rename_i hc
          injection e with e
          injection e with e1 e2
          subst e1 e2
          try rw [hc]
          rfl
      · cases e

/-- A command that begins goes on or ends as its effect says. -/
theorem adminRun_ends {op : Nat} {c : AdminCmd} (body : Nat → State → State × Option Answer) (h : s.admits op c = true) :
    (.next (s.adminRun op c body) : Res) = s.ends op c (body (s.opOf op c) (s.begun op c)) := by
  rw [adminRun_of_admits s body h]
  rcases body (s.opOf op c) (s.begun op c) with ⟨t, _ | a⟩ <;> rfl

theorem ends_good (op : Nat) (c : AdminCmd) (t : State) (r0 r1 : Nat) : s.ends op c (t, good r0 r1) = s.success op c t r0 r1 := rfl

theorem ends_bad (op : Nat) (c : AdminCmd) (t : State) (st r0 r1 : Nat) :
    s.ends op c (t, bad st r0 r1) = .next (t.complete (s.opOf op c) { status := st, r0, r1 }) := rfl

theorem ends_none (op : Nat) (c : AdminCmd) (t : State) : s.ends op c (t, none) = .next t := rfl

end Sys2Proof.Machine
end

