-- ==== Sys2Proof/Laws/Place.lean ====
section
/-!
SUPPORT. Where a placement writes the Loft: a byte outside the bytes its pieces store to, and the poison of that byte's line, read as before.
-/

namespace Sys2Proof.Machine

/-- The byte at a reads v, and the poison of its line w. -/
def Reads (a : Nat) (v : Byte) (w : Bool) (b : KMap Byte) (p : KMap Bool) : Prop := KM.getD 0 b a = v ∧ KM.getD false p (a / 64) = w

variable {a : Nat} {v : Byte} {w : Bool} {ql : List Instr}

theorem get_keep_key {α : Type} (f : Nat → Bool) (m : KMap α) (k : Nat) (h : f k = true) : KM.get (KM.keep (fun i _ => f i) m) k = KM.get m k := by
  induction m with
  | nil => rfl
  | cons x m ih =>
    obtain ⟨i, y⟩ := x
    by_cases e : f i = true
    · simp [KM.keep, KM.get, e, ih]
    · have : k ≠ i := fun q => e (q ▸ h)
      simp [KM.keep, KM.get, e, ih, Ne.symm this]

theorem reads_loftPut (s : State) (d : Nat) (bs : List Byte) (h : a < d ∨ d + bs.length ≤ a) (hs : Kept (Reads a v w) ql s) :
    Kept (Reads a v w) ql (s.loftPut d bs) := by
  induction bs generalizing s d with
  | nil => exact hs
  | cons b bs ih =>
    simp only [List.length_cons] at h
    refine ih _ _ (by omega) (kept_intro ⟨hs.1, hs.2.1, ?_, hs.2.2.2⟩)
    exact (KM.getD_putD_ne _ _ _ _ (by omega)).trans hs.2.2.1

theorem reads_setPoison (s : State) (l : Nat) (p : Bool) (h : a / 64 ≠ l) (hs : Kept (Reads a v w) ql s) : Kept (Reads a v w) ql (s.setPoison l p) :=
  kept_intro ⟨hs.1, hs.2.1, hs.2.2.1, (KM.getD_putD_ne _ _ _ _ h).trans hs.2.2.2⟩

theorem reads_poisonLine (s : State) (l : Nat) (h : a / 64 ≠ l) (hs : Kept (Reads a v w) ql s) : Kept (Reads a v w) ql (s.poisonLine l) :=
  reads_setPoison _ _ _ h (reads_loftPut _ _ _ (by simp only [List.length_replicate]; omega) hs)

/-- One line's share of a write leaves every byte outside it as it was; a poisoned share stores the whole line. -/
theorem reads_placeLine (s : State) (d : Nat) (bs : List Byte) (p : Bool) (f : d % 64 + bs.length ≤ 64)
    (h : a / 64 ≠ d / 64 ∨ (p = false ∧ (a < d ∨ d + bs.length ≤ a))) (hs : Kept (Reads a v w) ql s) : Kept (Reads a v w) ql (s.placeLine d bs p) := by
  have o : a < d ∨ d + bs.length ≤ a := by omega
  have c : Kept (Reads a v w) ql (s.countStore d p (decide (bs.length ≠ 64))) := kept_State_countStore _ _ _ _ hs
  unfold State.placeLine
  dsimp only
  generalize s.countStore d p (decide (bs.length ≠ 64)) = s' at c ⊢
  have e : Kept (Reads a v w) ql (s'.endRecovery (d / 64)) := c
  split
  · rename_i hp
    exact reads_poisonLine _ _ (by rcases h with h | h; exact h; exact absurd hp (by simp [h.1])) e
  · split
    · exact reads_setPoison _ _ _ (by omega) (reads_loftPut _ _ _ o e)
    · split
      · exact c
      · split
        · exact c
        · exact reads_loftPut _ _ _ o c

/-- Shares placed leave every byte outside the lines they touch as it was; with no share poisoned, every byte outside the range. -/
theorem reads_placeShares (s : State) (map fuel d : Nat) (bs : List Byte) (h : (a < d ∨ d + bs.length ≤ a) ∧ (map = 0 ∨ a / 64 < d / 64 ∨ d + bs.length ≤ a / 64 * 64))
    (hs : Kept (Reads a v w) ql s) : Kept (Reads a v w) ql (s.placeShares map (cutLines fuel d bs)) := by
  induction fuel generalizing s map d bs with
  | zero => exact hs
  | succ fuel ih =>
    unfold cutLines
    split
    · exact hs
    · have l1 : (bs.take (64 - d % 64)).length = min (64 - d % 64) bs.length := List.length_take
      have l2 : (bs.drop (64 - d % 64)).length = bs.length - (64 - d % 64) := List.length_drop
      have l0 : 0 < bs.length := List.length_pos_iff.mpr ‹_›
      refine ih _ _ _ _ ⟨?_, ?_⟩ (reads_placeLine _ _ _ _ ?_ ?_ hs)
      · omega
      · rcases h.2 with m | m
        · exact .inl (by simp [m])
        · omega
      · omega
      · rcases h.2 with m | m
        · exact .inr ⟨by simp [m], by omega⟩
        · omega

theorem reads_place (s : State) (d : Nat) (bs : List Byte) (map : Nat) (h : (a < d ∨ d + bs.length ≤ a) ∧ (map = 0 ∨ a / 64 < d / 64 ∨ d + bs.length ≤ a / 64 * 64))
    (hs : Kept (Reads a v w) ql s) : Kept (Reads a v w) ql (s.place d bs map) := by
  have e := reads_placeShares s map (bs.length + 1) d bs h hs
  unfold State.place
  dsimp only
  split
  · exact kept_State_setRegion _ _ _ e
  · exact e

theorem reads_zeroPageBytes (s : State) (page : Nat) (h : a / 16384 ≠ page) (hs : Kept (Reads a v w) ql s) : Kept (Reads a v w) ql (s.zeroPageBytes page) := by
  refine kept_intro ⟨hs.1, hs.2.1, ?_, ?_⟩
  · have := get_keep_key (fun i => decide (i / 16384 ≠ page)) s.loft.bytes a (by simpa using h)
    exact (congrArg (fun x => Option.getD x 0) this).trans hs.2.2.1
  · have := get_keep_key (fun i => decide (i / 256 ≠ page)) s.loft.poison (a / 64) (by simp; omega)
    exact (congrArg (fun x => Option.getD x false) this).trans hs.2.2.2

theorem reads_loadBytes (s : State) (page : Nat) (data : KMap Byte) (h : a / 16384 ≠ page) (hs : Kept (Reads a v w) ql s) :
    Kept (Reads a v w) ql (s.loadBytes page data) := by
  refine kept_intro ⟨hs.1, hs.2.1, ?_, hs.2.2.2⟩
  have g : ∀ (l : KMap Byte) (m : KMap Byte), KM.getD 0 ((KM.keep (fun i _ => decide (i < 16384)) l).foldl (fun m (p : Nat × Byte) => KM.putD 0 m (page * 16384 + p.1) p.2) m) a = KM.getD 0 m a := by
    intro l
    induction l with
    | nil => intro m; rfl
    | cons x l ih =>
      intro m
      by_cases e : x.1 < 16384
      · simp only [KM.keep, e, decide_true, if_true, List.foldl_cons]
        exact (ih _).trans (KM.getD_putD_ne _ _ _ _ (by omega))
      · simp only [KM.keep, e, decide_false, Bool.false_eq_true, if_false]
        exact ih _
  exact (g data _).trans hs.2.2.1

theorem reads_poisonLines (s : State) (page : Nat) (lines : List Nat) (h : a / 16384 ≠ page) (hs : Kept (Reads a v w) ql s) :
    Kept (Reads a v w) ql (s.poisonLines page lines) := by
  refine kept_intro ⟨hs.1, hs.2.1, hs.2.2.1, ?_⟩
  have g : ∀ (l : List Nat) (m : KMap Bool), KM.getD false ((l.filter fun i => decide (i < 256)).foldl (fun m i => KM.put m (page * 256 + i) true) m) (a / 64) = KM.getD false m (a / 64) := by
    intro l
    induction l with
    | nil => intro m; rfl
    | cons x l ih =>
      intro m
      by_cases e : x < 256
      · simp only [List.filter, e, decide_true, List.foldl_cons]
        exact (ih _).trans (KM.getD_put_ne _ _ _ (by omega))
      · simp only [List.filter, e, decide_false]
        exact ih _
  exact (g lines _).trans hs.2.2.2

theorem reads_loadAway (s : State) (page : Nat) (h : a / 16384 ≠ page ∨ (KM.get s.loft.away page).isSome = false) (hs : Kept (Reads a v w) ql s) :
    Kept (Reads a v w) ql (s.loadAway page) := by
  unfold State.loadAway
  split
  · exact hs
  · have e : a / 16384 ≠ page := by rcases h with h | h; exact h; exact absurd h ‹_›
    have z : Kept (Reads a v w) ql (({ s with loft.away := KM.del s.loft.away page }).zeroPageBytes page) := reads_zeroPageBytes _ _ e hs
    dsimp only
    split
    · split
      · exact reads_poisonLines _ _ _ e (reads_loadBytes _ _ _ e (kept_State_countPage _ _ _ z))
      · exact reads_poisonLines _ _ _ e (kept_State_countPage _ _ _ z)
    · exact reads_poisonLines _ _ _ e (kept_State_countPage _ _ _ z)

theorem reads_fillLine (s : State) (g i : Nat) (h : a / 64 ≠ g * 256 + i) (hs : Kept (Reads a v w) ql s) : Kept (Reads a v w) ql (s.fillLine g i) := by
  unfold State.fillLine
  dsimp only
  split
  · exact hs
  · split
    · exact hs
    · refine kept_State_setDirty _ _ _ ?_
      split
      · split
        · exact reads_poisonLine _ _ h (kept_State_countStore _ _ _ _ hs)
        · exact reads_setPoison _ _ _ h (reads_loftPut _ _ _ (by simp only [List.length_map, List.length_range]; omega) (kept_State_countStore _ _ _ _ hs))
      · exact hs

theorem reads_fillLines (s : State) (g : Nat) (l : List Nat) (h : ∀ i ∈ l, a / 64 ≠ g * 256 + i) (hs : Kept (Reads a v w) ql s) :
    Kept (Reads a v w) ql (s.fillLines g l) := by
  induction l generalizing s with
  | nil => exact hs
  | cons i l ih => exact ih _ (fun j m => h j (.tail _ m)) (reads_fillLine _ _ _ (h i (.head _)) hs)

theorem rowHit_noted (s : State) (d : Nat) : Noted s (s.rowHit d) := by
  unfold State.rowHit
  dsimp only
  split
  · exact bump_noted _ _ _ _
  · exact Noted.rfl s

/-- Counting a store changes counters only. -/
theorem countStore_noted (s : State) (d : Nat) (p q : Bool) : Noted s (s.countStore d p q) := by
  have h := (rowHit_noted s d).trans (bump_noted (s.rowHit d) (pDC (s.channelOf d).1) 0x050 1)
  unfold State.countStore
  dsimp only
  split <;> split
  · exact h.trans (bump_noted _ _ _ _)
  · exact (h.trans (bump_noted _ _ _ _)).trans (bump_noted _ _ _ _)
  · exact h
  · exact h.trans (bump_noted _ _ _ _)

theorem countShares_noted (s : State) (page : Nat) (p : Bool) (l : List Nat) : Noted s (s.countShares page p l) := by
  induction l generalizing s with
  | nil => exact Noted.rfl s
  | cons j l ih =>
    refine Noted.trans ?_ (ih _)
    split
    · exact bump_noted _ _ _ _
    · exact (bump_noted _ _ _ _).trans (bump_noted _ _ _ _)

/-- Counting a page written changes counters only. -/
theorem countPage_noted (s : State) (page : Nat) (p : Bool) : Noted s (s.countPage page p) := countShares_noted s page p _

theorem countHeld_win (s : State) : s.countHeld.win = s.win := by unfold State.countHeld; dsimp only; split <;> rfl

theorem setDirty_win (s : State) (r : Nat) (d : Dirty) : (s.setDirty r d).win = s.win := by
  unfold State.setDirty
  extract_lets d' u y m p n1 n2 n3 x
  have hu : u.win = s.win := by
    unfold u
    split
    · rfl
    · exact countHeld_win s
  have hm : m.win = u.win := rfl
  have h1 : n1.win = m.win := setNum_win m _ _ _
  have h2 : n2.win = n1.win := setNum_win n1 _ _ _
  have h3 : n3.win = n2.win := setNum_win n2 _ _ _
  exact (setNum_win _ _ _ _).trans ((setReg_win n3 _ _ x).trans (h3.trans (h2.trans (h1.trans (hm.trans hu)))))

theorem loftPut_win (s : State) (d : Nat) (bs : List Byte) : (s.loftPut d bs).win = s.win := by
  induction bs generalizing s d with
  | nil => rfl
  | cons b bs ih => exact ih _ _

theorem setPoison_win (s : State) (l : Nat) (p : Bool) : (s.setPoison l p).win = s.win := rfl

theorem poisonLine_win (s : State) (l : Nat) : (s.poisonLine l).win = s.win := (setPoison_win _ _ _).trans (loftPut_win _ _ _)

theorem fillLine_win (s : State) (g i : Nat) : (s.fillLine g i).win = s.win := by
  unfold State.fillLine
  dsimp only
  split
  · rfl
  · split
    · rfl
    · rw [setDirty_win]
      split
      · split
        · rw [poisonLine_win, (countStore_noted _ _ _ _).win]
        · rw [setPoison_win, loftPut_win, (countStore_noted _ _ _ _).win]
      · rfl

theorem fillLines_win (s : State) (g : Nat) (l : List Nat) : (s.fillLines g l).win = s.win := by
  induction l generalizing s with
  | nil => rfl
  | cons i l ih => exact (ih _).trans (fillLine_win _ _ _)

theorem poisonLines_win (s : State) (page : Nat) (l : List Nat) : (s.poisonLines page l).win = s.win := rfl
theorem loadBytes_win (s : State) (page : Nat) (data : KMap Byte) : (s.loadBytes page data).win = s.win := rfl

theorem loadAway_win (s : State) (page : Nat) : (s.loadAway page).win = s.win := by
  unfold State.loadAway
  split
  · rfl
  · dsimp only
    generalize e : State.zeroPageBytes _ page = z
    have w : z.win = s.win := by rw [← e]; rfl
    split
    · split
      · exact (poisonLines_win _ _ _).trans ((loadBytes_win _ _ _).trans ((countPage_noted z page false).win.trans w))
      · exact (poisonLines_win _ _ _).trans ((countPage_noted z page true).win.trans w)
    · exact (poisonLines_win _ _ _).trans ((countPage_noted z page true).win.trans w)

theorem placeAddr_congr {s t : State} (h : t.win = s.win) (page off : Nat) : t.placeAddr page off = s.placeAddr page off := by
  have e : t.gatherOf page = s.gatherOf page := by unfold State.gatherOf State.mapOf; rw [h]
  unfold State.placeAddr
  rw [e]

/-- Bytes placed into a page leave every byte that the piece does not store to as it was. -/
theorem reads_placeIn (s : State) (object i page off n : Nat) (bs : List Byte) (map : Nat) (hp : s.objectPage (s.object object) i = some page) (hn : bs.length ≤ n)
    (h : ¬ s.pieceStores object i off n map a) (hs : Kept (Reads a v w) ql s) : Kept (Reads a v w) ql (s.placeIn page off bs map) := by
  unfold State.pieceStores at h
  simp only [hp] at h
  unfold State.placeIn
  dsimp only
  refine kept_State_logPage _ _ ?_
  cases g : s.gatherOf page with
  | some x =>
    have ad : s.placeAddr page off = x * 16384 + off := by unfold State.placeAddr; rw [g]
    simp only [g, ad, Option.isNone_some, Bool.false_eq_true, false_and, and_false, if_false] at h
    dsimp only
    rw [placeAddr_congr (fillLines_win _ _ _), ad]
    refine reads_place _ _ _ _ (by omega) (reads_fillLines _ _ _ ?_ hs)
    intro j m
    unfold linesOf at m
    rw [List.mem_range'] at m
    obtain ⟨k, hk, e⟩ := m
    omega
  | none =>
    have ad : s.placeAddr page off = page * 16384 + off := by unfold State.placeAddr; rw [g]
    simp only [g, ad, Option.isNone_none, true_and, and_true] at h
    dsimp only
    rw [placeAddr_congr (loadAway_win _ _), ad]
    have e : Kept (Reads a v w) ql (s.loadAway page) := by
      refine reads_loadAway _ _ ?_ hs
      by_cases y : (KM.get s.loft.away page).isSome = true
      · simp only [y, if_true] at h
        exact .inl (fun q => h (.inl q))
      · exact .inr (by simpa using y)
    refine reads_place _ _ _ _ ?_ e
    split at h
    · omega
    · split at h <;> omega

theorem reads_placePiece (s : State) (p : Placement) (i off n : Nat) (bs : List Byte) (map : Nat) (hn : bs.length ≤ n)
    (h : ¬ s.pieceStores p.object i off n map a) (hs : Kept (Reads a v w) ql s) : Kept (Reads a v w) ql (s.placePiece p i off bs map).2.2 := by
  unfold State.placePiece
  split
  · exact hs
  · exact kept_State_noteLines _ _ _ _ _ (reads_placeIn _ _ _ _ _ n _ _ ‹_› hn h hs)

theorem reads_placePieces (s : State) (p : Placement) (bs : List Byte) (map : Nat) (l : List (Nat × Nat × Nat)) (h : ¬ s.piecesStore p bs map a l)
    (hs : Kept (Reads a v w) ql s) : Kept (Reads a v w) ql (s.placePieces p bs map l).2.2 := by
  induction l generalizing s bs map with
  | nil => exact hs
  | cons x l ih =>
    obtain ⟨i, off, n⟩ := x
    unfold State.piecesStore at h
    rw [not_or] at h
    exact ih _ _ _ h.2 (reads_placePiece _ _ _ _ n _ _ (by rw [List.length_take]; omega) h.1 hs)

theorem reads_placePacket (s : State) (p : Placement) (data : List Byte) (h : ¬ s.piecesStore p data p.poison a p.pieces)
    (hs : Kept (Reads a v w) ql s) : Kept (Reads a v w) ql (s.placePacket p data) := by
  have e := reads_placePieces s p data p.poison p.pieces h hs
  unfold State.placePacket
  grind -ring -linarith [kept_State_setQp, kept_State_sendSeq, kept_State_tallyAdd, kept_State_setTracker, kept_State_judge, kept_State_received, kept_intro, of_kept]

end Sys2Proof.Machine
end

