-- ==== Sys2Proof/Laws/Rx.lean ====
section
/-!
SUPPORT. What an arriving packet comes to: the receive checks said once, and the ways of a READ and a WRITE.
-/

namespace Sys2Proof.Machine

variable {s : State} {f : Frame}

/-- A packet that passes steps 1 to 5 is served in the state in which it has been counted. -/
theorem rxFrame_of_reaches {op : Nat} (d : Nat) (h : s.reaches f op = true) :
    s.rxFrame f d = (((s.counted f).sampleRequest f).serveFrame f d ((s.counted f).triggerOf f)).settleAll := by
  unfold State.reaches at h
  simp only [Bool.and_eq_true, Bool.not_eq_true', decide_eq_true_eq] at h
  obtain ⟨⟨⟨⟨⟨⟨⟨⟨⟨h1, h2⟩, h3⟩, h4⟩, h5⟩, h6⟩, h7⟩, h8⟩, -⟩, h10⟩ := h
  unfold State.rxFrame
  dsimp only
  rw [if_neg (by simp [h1, h3, h4]; omega), if_neg (by simp [h5]), if_neg (by simp [h6]), if_neg (by simp [h7]), if_neg (by simp [h8])]
  unfold State.lookupQp State.counted
  dsimp only
  cases e : s.qpcEntry (parsePxt f.payload).dqpn with
  | none => simp [e] at h10
  | some x =>
    simp only [e, Bool.and_eq_true, Bool.not_eq_true'] at h10
    simp only [h10.1, Bool.false_eq_true, if_false]
    unfold State.rxPacket
    rw [if_neg (by simp [h10.2])]

/-- The opcode of a packet that is served. -/
theorem opcode_of_reaches {op : Nat} (h : s.reaches f op = true) : (parsePxt f.payload).opcode = op := by
  unfold State.reaches at h
  simp only [Bool.and_eq_true, decide_eq_true_eq] at h
  exact h.1.2

/-- Step 8 passed. -/
theorem rxRequest_of_timely {h : Pxt} {b : List Byte} {t : Trigger} {resend : Bool} (he : resend = decide (h.opcode = 2 ∧ h.resend = true))
    (ht : s.timely h resend = true) :
    s.rxRequest h.dqpn h b t = if h.opcode = 1 then (s.noted h).rxWrite h.dqpn h b t else (s.noted h).rxRead h.dqpn h b t := by
  subst he
  unfold State.timely at ht
  simp only [Bool.and_eq_true, Bool.not_eq_true', Bool.or_eq_false_iff, decide_eq_false_iff_not, decide_eq_true_eq, Bool.or_eq_true, Option.isNone_iff_eq_none,
    Bool.and_eq_false_iff] at ht
  obtain ⟨⟨⟨⟨h1, h2, h3⟩, h4⟩, h5⟩, h6⟩ := ht
  unfold State.rxRequest State.noted
  dsimp only
  have n1 : (s.noteArrival h.dqpn h.msn).num pTC 0x09C = s.num pTC 0x09C := by
    unfold State.noteArrival State.setTracker State.setQp State.setWays
    dsimp only
    (repeat' split) <;> rfl
  simp only [h1]
  rw [if_neg (by simp [h2, h3]), if_neg (by omega), if_neg (by rintro ⟨a, c⟩; rcases h5 with g | g <;> first | omega | (rw [a] at g; cases g)), if_neg (by
    rintro ⟨a, c⟩
    rcases h6 with g | g
    · rw [show s.needsSlot h = true from a] at g; cases g
    · exact g (by rw [← n1]; exact c))]
  rfl

/-- A READ granted. -/
theorem rxRead_of_grants {h : Pxt} {b : List Byte} {t : Trigger} (hg : s.grantsRead h b = true) : s.rxRead h.dqpn h b t = s.takeRead h.dqpn h b t := by
  unfold State.grantsRead readRange at hg
  simp only [Bool.and_eq_true, Bool.not_eq_true', Option.isNone_iff_eq_none, Bool.or_eq_true] at hg
  obtain ⟨⟨⟨h1, h2⟩, h3⟩, h4⟩ := hg
  unfold State.rxRead
  dsimp only
  simp only [h1, h2, h3, Bool.false_eq_true, if_false]
  rw [if_neg (by rintro ⟨a, c⟩; rcases h4 with g | g <;> simp_all), if_neg (by rintro ⟨a, c⟩; rcases h4 with g | g <;> simp_all)]

/-- A WRITE granted, in regions that admit it and with the pages it dirties charged. -/
theorem rxWrite_of_grants {h : Pxt} {b : List Byte} {t : Trigger} {u v : State} (hg : s.grantsWrite h b = true)
    (hn : (s.tracker h.dqpn h.msn).isNone = true → u.noTracker h.dqpn = false) (hm : s.admitModes h.plen (s.regionsOf (s.writePages h b)) = (none, u))
    (hr : u.admitRegions (s.object (s.window (be b 24 4 / 256)).object).owner (s.writePages h b) (s.regionsOf (s.writePages h b)) = (none, v)) :
    s.rxWrite h.dqpn h b t = v.takeWrite h.dqpn h b t := by
  unfold State.grantsWrite at hg
  simp only [Bool.and_eq_true, Bool.not_eq_true', Option.isNone_iff_eq_none, Bool.and_eq_false_iff, decide_eq_false_iff_not] at hg
  obtain ⟨⟨⟨⟨⟨h1, h2⟩, h3⟩, h4⟩, h5⟩, h6⟩ := hg
  unfold State.rxWrite
  dsimp only
  simp only [h1, h2]
  rw [if_neg (by simp), if_neg (by rintro ⟨a, c⟩; rcases h3 with g | g <;> simp_all), if_neg (by rintro ⟨a, c⟩; rcases h4 with g | g <;> simp_all),
    if_neg (by cases e : s.tracker h.dqpn h.msn <;> simp_all), if_neg (by rintro (a | a | ⟨a, c⟩) <;> cases e : s.tracker h.dqpn h.msn <;> simp_all)]
  unfold State.writePages at hm hr
  dsimp only at hm hr
  rw [hm]
  dsimp only
  rw [if_neg (by rintro ⟨a, c⟩; simp [hn a] at c), hr]

end Sys2Proof.Machine
end

