-- ==== Sys2Proof/Laws/Twin.lean ====
section
/-!
SUPPORT. What hearing a twin frame comes to.
-/

namespace Sys2Proof.Machine

/-- A frame of the other side, on a port that carries twin traffic, is counted and taken in. -/
theorem heard_of_carries {s t : State} {f : TwinFrame} {k : State → State} (h1 : s.portCarries f.port = true) (h2 : f.side ≠ s.side)
    (h3 : s.bump (pTP f.port) 0x048 = t) : s.heard f k = k t := by
  unfold State.heard State.hear
  rw [if_neg (by simp [h1]), if_neg h2, h3]
  exact if_neg h2

/-- A frame of this appliance's own epoch is taken in. -/
theorem sameEpoch_of_eq {s : State} {f : TwinFrame} {k : State → State} (h : f.epoch = s.epoch) : s.sameEpoch f k = k s := if_pos h

end Sys2Proof.Machine
end

