-- ==== Sys2Proof/Laws/Writes.lean ====
section
/-!
SUPPORT. What register writes, firings and result registers leave in the registers, and commands that the checks turn away: one lemma for each shared operation.
-/

namespace Sys2Proof.Machine

/-- A register after a write of it. -/
theorem reg_self (s : State) (p o : Nat) (w : Word) (h : o < 4096) : (s.setReg p o w).reg p o = w := by rw [reg_setReg _ _ h h]; simp

/-- What firing leaves in the event registers of the page. -/
theorem fire_regs (page : Nat) (m : Word) (s : State) (a : (pageType page).isNone = false) (b : s.absent page = false) (c : m ≠ 0) :
    (s.fireMask page m).reg page 0x010 = s.reg page 0x010 ||| m ∧ (s.fireMask page m).reg page 0x028 = satAdd (s.reg page 0x028) (popCount m) ∧
      (s.fireMask page m).reg page 0x01C = (if bit (s.reg page 0x01C) 31 then s.reg page 0x01C else BitVec.ofNat 32 (2 ^ 31 + lowestBit m)) := by
  unfold State.fireMask
  rw [if_neg (by rintro (x | x | x); exact c x; rw [a] at x; cases x; rw [b] at x; cases x)]
  dsimp only
  simp only [reg_routeAll, reg_countSources, reg_perfCount]
  have e : ∀ o, o < 4096 → o ≠ 0x010 → (s.setReg page 0x010 (s.reg page 0x010 ||| m)).reg page o = s.reg page o := fun o h k => by
    rw [reg_setReg _ _ h (by decide), if_neg (by simp [k])]
  have e0 : (s.setReg page 0x010 (s.reg page 0x010 ||| m)).reg page 0x010 = s.reg page 0x010 ||| m := by rw [reg_setReg _ _ (by decide) (by decide)]; simp
  rw [e 0x01C (by decide) (by decide)]
  split
  · simp [reg_setReg, e, e0]
  · simp [reg_setReg, reg_setNum, e, e0]

/-- Payload words as they stand after they were written, and every other register. -/
theorem putWords_regs (s : State) (page off : Nat) (ws : List Nat) (h : off + 4 * ws.length ≤ 4096) :
    (∀ i, i < ws.length → (s.putWords page off ws).reg page (off + 4 * i) = BitVec.ofNat 32 (ws.getD i 0)) ∧
      (∀ p o, o < 4096 → (p ≠ page ∨ o < off ∨ off + 4 * ws.length ≤ o) → (s.putWords page off ws).reg p o = s.reg p o) := by
  induction ws generalizing s off with
  | nil => exact ⟨fun i h => absurd h (by simp), fun _ _ _ _ => rfl⟩
  | cons w ws ih =>
    simp only [List.length_cons] at h
    have k := ih (s.setNum page off w) (off + 4) (by omega)
    refine ⟨fun i hi => ?_, fun p o ho hp => ?_⟩
    · cases i with
      | zero =>
        refine (k.2 page off (by omega) (by omega)).trans ?_
        rw [reg_setNum _ (by omega) (by omega)]; simp
      | succ i =>
        have e : off + 4 * (i + 1) = off + 4 + 4 * i := by omega
        rw [e]
        exact k.1 i (by simpa using hi)
    · simp only [List.length_cons] at hp
      refine (k.2 p o ho (by omega)).trans ?_
      rw [reg_setNum _ ho (by omega), if_neg (by omega)]

/-- Writing payload words changes no part but the registers. -/
theorem putWords_host (s : State) (page off : Nat) (ws : List Nat) : (s.putWords page off ws).host = s.host := by
  induction ws generalizing s off with
  | nil => rfl
  | cons w ws ih => exact ih _ _

/-- What publishing a record leaves in its header, its payload words and every other register, where no record was dropped before it. -/
theorem present_regs (s : State) (page h : Nat) (ws : List Nat) (hh : h + 4 * (ws.length + 1) ≤ 4096) (h7 : regKey page h ∉ s.host.overflow) :
    (s.present page h ws).reg page h = BitVec.ofNat 32 (2 ^ 31 + nextSeq (s.fld page h 15 0)) ∧
      (∀ i, i < ws.length → (s.present page h ws).reg page (h + 4 + 4 * i) = BitVec.ofNat 32 (ws.getD i 0)) ∧
      (∀ p o, o < 4096 → (p ≠ page ∨ o < h ∨ h + 4 * (ws.length + 1) ≤ o) → (s.present page h ws).reg p o = s.reg p o) ∧
      (s.present page h ws).host.results = s.host.results := by
  unfold State.present
  dsimp only
  rw [if_neg h7]
  have f : ∀ p o, ({ s with host.overflow := s.host.overflow.filter (· ≠ regKey page h) } : State).reg p o = s.reg p o := fun _ _ => rfl
  have g : ({ s with host.overflow := s.host.overflow.filter (· ≠ regKey page h) } : State).host.results = s.host.results := rfl
  have e : ({ s with host.overflow := s.host.overflow.filter (· ≠ regKey page h) } : State).fld page h 15 0 = s.fld page h 15 0 := rfl
  generalize ({ s with host.overflow := s.host.overflow.filter (· ≠ regKey page h) } : State) = u at f g e ⊢
  have k := putWords_regs (u.setNum page h (2 ^ 31 + nextSeq (u.fld page h 15 0))) page (h + 4) ws (by omega)
  refine ⟨?_, k.1, fun p o ho hp => ?_, ?_⟩
  · rw [k.2 page h (by omega) (by omega), reg_setNum _ (by omega) (by omega), if_pos ⟨rfl, rfl⟩, e]
  · rw [k.2 p o ho (by omega), reg_setNum _ ho (by omega), if_neg (by omega), f]
  · rw [putWords_host]; exact g

/-- A result consumed with none waiting. -/
theorem consume_empty (s : State) (page h : Nat) (h6 : KM.getD [] s.host.results (regKey page h) = []) :
    s.consume page h = s.setReg page h (setBits (s.reg page h) 31 31 0) := by
  unfold State.consume
  dsimp only
  generalize setBits (s.reg page h) 31 31 0 = x
  rw [setReg_host, h6]

/-- A result consumed with one waiting. -/
theorem consume_waiting (s : State) (page h : Nat) (w : List Nat) (q : List (List Nat)) (h6 : KM.getD [] s.host.results (regKey page h) = w :: q) :
    s.consume page h = (({ s.setReg page h (setBits (s.reg page h) 31 31 0) with host.results := KM.putD [] s.host.results (regKey page h) q } : State)).present page h w := by
  unfold State.consume
  dsimp only
  generalize setBits (s.reg page h) 31 31 0 = x
  rw [setReg_host, h6]

/-- A write that a lock keeps out. -/
theorem guarded_locked (s : State) (req : Requester) (page : Nat) (f : State → State) (a : (pageType page).isSome = true) (b : s.absent page = false)
    (c : s.lockedOut req page = true) : s.guarded req page f = s.lockDrop := by
  unfold State.guarded
  rw [if_neg (by simp [b]; intro e; rw [e] at a; cases a), if_pos c]

/-- A write to a page that is reserved or absent. -/
theorem guarded_absent (s : State) (req : Requester) (page : Nat) (f : State → State) (a : pageType page = none ∨ s.absent page = true) : s.guarded req page f = s := by
  unfold State.guarded
  rw [if_pos (by rcases a with a | a <;> simp [a])]

/-- A command turned away by the checks completes with their status. -/
theorem adminRun_turned (s : State) (op : Nat) (c : AdminCmd) (opId st : Nat) (u : State) (h : s.turnedAway op c = some (opId, st, u))
    (body : Nat → State → State × Option Answer) : s.adminRun op c body = u.complete opId { status := st } := by
  unfold State.turnedAway at h
  unfold State.adminRun
  split at h
  · cases h
  · rename_i o before hf
    split at h
    · rename_i hp
      try rw [hf]
      dsimp only at h ⊢
      try rw [if_pos hp]
      split at h
      · rename_i hc
        cases h
        try rw [hc]
        try rfl
      · cases h
    · cases h

/-- The checks change nothing but the challenges. -/
theorem checks_keep (s : State) (op : Nat) (c : AdminCmd) : (s.checks op c).2 = { s with host.challenges := (s.checks op c).2.host.challenges } := by
  unfold State.checks
  repeat' split
  all_goals rfl

end Sys2Proof.Machine
end

