-- ==== Sys2Proof/WellFormed.lean ====
section
/-!
DEFINITION. Well-formed commands: operands within the widths and the numbers of units that the spec gives. The meanings are total and do not rest on it.
-/

namespace Sys2Proof

/-- The fields of an admin command fit the submission queue entry, and its buffer holds DATA_LEN bytes. -/
def wfCmd (c : AdminCmd) : Bool :=
  decide (c.sq < 32 ∧ c.cid < 2 ^ 16 ∧ c.flags < 2 ^ 8 ∧ c.target < 2 ^ 32 ∧ c.dataAddr < 2 ^ 64 ∧ c.dataLen < 2 ^ 32 ∧ c.data.length = c.dataLen) &&
    [c.p0, c.p1, c.p2, c.p3, c.p4, c.p5, c.p6, c.p7, c.p8, c.p9].all fun p => decide (p < 2 ^ 32)

/-- A frame arrives on one of eight ports, with addresses, ports and ECN of their widths. -/
def wfFrame (f : Frame) : Bool :=
  decide (f.port < 8 ∧ f.srcIp < 2 ^ 128 ∧ f.dstIp < 2 ^ 128 ∧ f.udpSrc < 2 ^ 16 ∧ f.udpDst < 2 ^ 16 ∧ f.ecn < 4)

/-- A twin frame arrives on one of four ports, with header fields of their widths. -/
def wfTwin (f : TwinFrame) : Bool :=
  decide (f.port < 4 ∧ f.side < 2 ∧ f.epoch < 2 ^ 32 ∧ f.mseq < 2 ^ 64)

/-- A page index of BAR0. -/
def wfPage (p : Nat) : Bool :=
  decide (p < 0x4000)

/-- A page number of the Loft or the Cellar (35 bits and the Cellar's bit). -/
def wfStored (p : Nat) : Bool :=
  decide (p < 2 ^ 36)

/-- A region. -/
def wfRegion (r : Nat) : Bool :=
  decide (r < 4)

/-- A DRAM channel. -/
def wfDram (c : Nat) : Bool :=
  decide (c < 24)

/-- A NAND channel. -/
def wfNand (c : Nat) : Bool :=
  decide (c < 64)

/-- A LUN of a NAND channel. -/
def wfLun (l : Nat) : Bool :=
  decide (l < 16)

/-- A fabric plane. -/
def wfPlane (p : Nat) : Bool :=
  decide (p < 8)

/-- A peer. -/
def wfPeer (p : Nat) : Bool :=
  decide (p < 4096)

/-- A tenant. -/
def wfTenant (t : Nat) : Bool :=
  decide (t < 4096)

/-- A twin port. -/
def wfPort (p : Nat) : Bool :=
  decide (p < 4)

/-- A fabric port, or 8 more than a twin port. -/
def wfLanePort (p : Nat) : Bool :=
  decide (p < 12)

/-- An admin queue pair. -/
def wfQueue (q : Nat) : Bool :=
  decide (q < 32)

/-- A queue pair number. -/
def wfQpn (q : Nat) : Bool :=
  decide (q < 2 ^ 20)

/-- A clock island. -/
def wfIsland (k : Nat) : Bool :=
  decide (k < 18)

/-- A rail of the sequencer. -/
def wfRail (i : Nat) : Bool :=
  decide (i < 32)

/-- A rank of a channel. -/
def wfRank (k : Nat) : Bool :=
  decide (k < 4)

/-- A counter of a page. -/
def wfCounter (n : Nat) : Bool :=
  decide (n < 16)

/-- A sampling unit. -/
def wfSampler (n : Nat) : Bool :=
  decide (n < 9)

/-- An offset of the Attic window. -/
def wfAttic (o : Nat) : Bool :=
  decide (o < 2 ^ 26)

/-- An event source. -/
def wfSource (i : Nat) : Bool :=
  decide (i < 32)

/-- A key slot. -/
def wfSlot (n : Nat) : Bool :=
  decide (n < 8192)

/-- A Steward core. -/
def wfCore (n : Nat) : Bool :=
  decide (n < 3)

/-- A command is well formed. -/
def Instr.wf (i : Instr) : Bool :=
  match i with
  | .dieLinkFlit _ _ => true
  | .islandResetEnter k _ => wfIsland k
  | .islandFreqChangeDone k _ => wfIsland k
  | .freqReqWrite _ k _ => wfIsland k
  | .pgCtrlEnable _ page _ => wfPage page
  | .enableConditionsMet page => wfPage page
  | .pgCtrlDrain _ page _ => wfPage page
  | .pgCtrlDrill _ page _ => wfPage page
  | .resetReq _ page => wfPage page
  | .bypassReq _ region => wfRegion region
  | .bypassEnd _ region => wfRegion region
  | .bypassLimitExpire region => wfRegion region
  | .bypassOpDone region _ => wfRegion region
  | .startUpDone page _ => wfPage page
  | .drainDone page => wfPage page
  | .drainTimeout page => wfPage page
  | .pageBistDone page _ => wfPage page
  | .functionLevelReset _ => true
  | .perstN _ => true
  | .trstN => true
  | .bar0NarrowAccess _ _ _ _ => true
  | .registerWrite _ _ _ _ => true
  | .eventFire page _ => wfPage page
  | .evStatusWrite _ page _ _ => wfPage page
  | .evFirstWrite _ page _ => wfPage page
  | .evInjectWrite _ page _ => wfPage page
  | .pgLockWrite _ page _ => wfPage page
  | .resultAckWrite _ page _ _ => wfPage page
  | .aqEnableSet _ _ => true
  | .aqEnableClear _ _ => true
  | .sqTailDoorbell _ q _ => wfQueue q
  | .cqHeadDoorbell _ q _ => wfQueue q
  | .sqeFetch _ q _ c => wfQueue q && wfCmd c
  | .cqePost _ q => wfQueue q
  | .cqStall _ q => wfQueue q
  | .apertureBaseWrite _ _ _ => true
  | .bar2Read _ _ _ => true
  | .bar2Write _ _ _ => true
  | .nop c => wfCmd c
  | .invalidOpcode _ c => wfCmd c
  | .createQp c => wfCmd c
  | .deleteQp c => wfCmd c
  | .abort c => wfCmd c
  | .getChallenge c => wfCmd c
  | .identify c => wfCmd c
  | .setVector c => wfCmd c
  | .runBist c => wfCmd c
  | .clearCounts c => wfCmd c
  | .lockBreak c => wfCmd c
  | .drillAuth c => wfCmd c
  | .journalRead c => wfCmd c
  | .resetLevel c => wfCmd c
  | .resetPowerCycle c => wfCmd c
  | .resetPowerDown c => wfCmd c
  | .tenantCreate c => wfCmd c
  | .tenantErase c => wfCmd c
  | .windowCreate c => wfCmd c
  | .objectCreate c => wfCmd c
  | .objectAlias c => wfCmd c
  | .windowRevoke c => wfCmd c
  | .windowRevokeObject c => wfCmd c
  | .revokeFenceDrained _ => true
  | .revokeLate _ => true
  | .windowModify c => wfCmd c
  | .hintPreload c => wfCmd c
  | .hintLock c => wfCmd c
  | .hintUnlock c => wfCmd c
  | .hintPinUp c => wfCmd c
  | .hintPinClear c => wfCmd c
  | .hintReadahead c => wfCmd c
  | .cacheInvalidate c => wfCmd c
  | .windowCacheFillDone _ => true
  | .translationFillDone _ page => wfStored page
  | .migratePromote c => wfCmd c
  | .migrateDemote c => wfCmd c
  | .migrateCopyRoundDone _ => true
  | .migrateSwitchConfirmed _ => true
  | .migrateStallLimit _ => true
  | .moverZeroFillDone page => wfStored page
  | .qpCreate c => wfCmd c
  | .qpModifyReady c => wfCmd c
  | .qpModifyError c => wfCmd c
  | .qpModifyReset c => wfCmd c
  | .qpModifyPaths c => wfCmd c
  | .qpModifyKeysel c => wfCmd c
  | .qpModifySync c => wfCmd c
  | .qpModifyAcks c => wfCmd c
  | .qpDestroy c => wfCmd c
  | .peerSet c => wfCmd c
  | .planeControlOut c => wfCmd c
  | .planeDrainExpire plane => wfPlane plane
  | .planeControlIn c => wfCmd c
  | .tenantShare c => wfCmd c
  | .policySet c => wfCmd c
  | .powerCapSet c => wfCmd c
  | .roleSwap c => wfCmd c
  | .roleSwapDrained => true
  | .resyncStart c => wfCmd c
  | .resyncComplete => true
  | .auditStart c => wfCmd c
  | .keyImportWrapped c => wfCmd c
  | .keyImportEcdh c => wfCmd c
  | .keyRewrite c => wfCmd c
  | .keyRewriteNewStorage c => wfCmd c
  | .rewriteSwitch slot => wfSlot slot
  | .keyZeroise c => wfCmd c
  | .streamOpen c => wfCmd c
  | .streamSegDone _ _ _ => true
  | .fwStage c => wfCmd c
  | .fwActivateNextReset c => wfCmd c
  | .fwActivateLive c => wfCmd c
  | .liveActivationStepDone _ _ _ => true
  | .probationEnd => true
  | .coreSwap c => wfCmd c
  | .configRead c => wfCmd c
  | .configWrite c => wfCmd c
  | .tallyRingSet c => wfCmd c
  | .historyRead c _ => wfCmd c
  | .historyClear c => wfCmd c
  | .samplerConfigRequest c => wfCmd c
  | .samplerConfigInstruction c => wfCmd c
  | .marginPlanRead c => wfCmd c
  | .ageingRun c => wfCmd c
  | .pxtWriteRx f => wfFrame f
  | .pxtReadRx f => wfFrame f
  | .markEchoRx f => wfFrame f
  | .probeRx f _ => wfFrame f
  | .probeReplyRx f => wfFrame f
  | .exceptionFrameRx _ f => wfFrame f
  | .nonPxtFrameRx f => wfFrame f
  | .qpcFetchDone qpn => wfQpn qpn
  | .missqWaitExpire plane => wfPlane plane
  | .qpcWritebackDone qpn => wfQpn qpn
  | .packetPlacement qpn _ => wfQpn qpn
  | .ackDelayExpire qpn => wfQpn qpn
  | .trackerTimeout qpn _ => wfQpn qpn
  | .readDataReady qpn _ _ => wfQpn qpn
  | .readRespDepart plane => wfPlane plane
  | .probeIdleExpire peer plane => wfPeer peer && wfPlane plane
  | .probeTimeoutExpire peer plane => wfPeer peer && wfPlane plane
  | .fabricLinkDown plane => wfPlane plane
  | .fabricLinkUp plane => wfPlane plane
  | .rateBatch _ => true
  | .rateProbeWrite _ _ => true
  | .harvestPlan region _ => wfRegion region
  | .harvestProgramDone page _ => wfStored page
  | .gatherFillDone page _ => wfStored page
  | .wearBucketSave => true
  | .tenantDirtyProbe _ _ => true
  | .ledgerPeriod _ _ _ _ _ _ => true
  | .vbankOv _ _ => true
  | .chargerRestart => true
  | .senseMismatch => true
  | .couplerFault => true
  | .vbusOv => true
  | .chargerFault => true
  | .powerLoss => true
  | .rideRecovered => true
  | .rideExpire => true
  | .flushDataEnd => true
  | .flushStop region _ _ => wfRegion region
  | .managedPowerDown => true
  | .vbusReturnCountDone => true
  | .vbusReturnWaitExpire => true
  | .restoreStepDone _ _ => true
  | .twinWaitExpire => true
  | .regionRestoreReady region => wfRegion region
  | .imageRelease => true
  | .zoneEraseDone region _ => wfRegion region
  | .loftPageLoadDone page _ => wfStored page
  | .mirrorDataRx f => wfTwin f
  | .mirrorMetaRx f => wfTwin f
  | .mackRx f => wfTwin f
  | .leaseRx f => wfTwin f
  | .leaseGrantRx f => wfTwin f
  | .noticeRx f => wfTwin f
  | .readReqRx f => wfTwin f
  | .readDataRx f => wfTwin f
  | .logRx f => wfTwin f
  | .auditReqRx f => wfTwin f
  | .auditDigestRx f => wfTwin f
  | .helloRx f => wfTwin f
  | .twinFrameDrop port _ => wfPort port
  | .mackSendTimer port => wfPort port
  | .twinRtoExpire _ => true
  | .mirrorUnappliedLimit _ => true
  | .leaseSendTimer => true
  | .leaseExpire => true
  | .grantMissingExpire => true
  | .helloTimeout => true
  | .witnessVerdictWrite _ _ => true
  | .soloEnter => true
  | .twinPortLinkDown port => wfPort port
  | .twinPortLinkUp port => wfPort port
  | .portEnWrite _ _ => true
  | .readReqTimeout _ => true
  | .nandReadDone _ _ _ => true
  | .sheafWaitExpire region _ => wfRegion region
  | .relocationCopyDone _ => true
  | .dailyWearRelocation region => wfRegion region
  | .programFail channel lun _ => wfNand channel && wfLun lun
  | .eraseFail channel lun _ => wfNand channel && wfLun lun
  | .lunRetireWrite _ channel _ => wfNand channel
  | .lunFault channel lun => wfNand channel && wfLun lun
  | .lunRetired channel lun => wfNand channel && wfLun lun
  | .stagingReadDone page _ => wfStored page
  | .refreshInterval channel rank _ => wfDram channel && wfRank rank
  | .rowActivation channel _ rank _ _ _ tenant => wfDram channel && wfRank rank && wfTenant tenant
  | .throttleEnd region tenant => wfRegion region && wfTenant tenant
  | .bankIdleTimer channel _ rank _ _ => wfDram channel && wfRank rank
  | .rankPdIdle channel rank => wfDram channel && wfRank rank
  | .dimmTempPoll channel _ _ => wfDram channel
  | .spdFault channel => wfDram channel
  | .retrainReqWrite _ region _ => wfRegion region
  | .retrainBypassStart region => wfRegion region
  | .trainStepDone region => wfRegion region
  | .trainVerifyDone region _ _ _ => wfRegion region
  | .retrainDeferred region => wfRegion region
  | .speedChangeStart region => wfRegion region
  | .speedChangeDone region _ => wfRegion region
  | .hardRepairStepDone region => wfRegion region
  | .softRepairDone channel _ rank _ _ _ => wfDram channel && wfRank rank
  | .loftLineDecode _ _ _ => true
  | .lineRecoveryDone _ _ => true
  | .pageRetireDone page => wfStored page
  | .parityError page _ => wfPage page
  | .scanStart _ _ => true
  | .scanAbort _ _ _ => true
  | .scanDone _ _ => true
  | .gleanSlice region _ _ _ _ _ => wfRegion region
  | .gleanPassEnd region _ => wfRegion region
  | .larderRequest _ _ slot _ _ _ _ _ _ _ => wfSlot slot
  | .sealUnitDone _ _ _ => true
  | .hwmRecordProgrammed slot => wfSlot slot
  | .drbgReseed => true
  | .healthTestFail => true
  | .drbgReinstantiate => true
  | .classDSensor => true
  | .keyRecordBlockErase => true
  | .slotProbeWrite _ _ => true
  | .checkpoint _ => true
  | .miscompare => true
  | .coreBistDone _ _ => true
  | .spareLoaded _ => true
  | .replayEnd _ => true
  | .fenceOutput slot _ _ _ _ _ => wfCore slot
  | .wdogWrite _ => true
  | .stewardWatchdog => true
  | .bootRomStart _ _ => true
  | .mainImageStart _ _ _ _ _ => true
  | .atticCmdWrite offset _ => wfAttic offset
  | .atticSeqTimeout => true
  | .atticOpDone _ => true
  | .atticRead offset _ _ => wfAttic offset
  | .atticResetDeferEnd => true
  | .xipFetch offset _ => wfAttic offset
  | .coldStart _ _ => true
  | .startConditionsMet => true
  | .seqSyncRise _ _ => true
  | .seqStepTimeout => true
  | .seqDownRequest => true
  | .pgInputLow rail => wfRail rail
  | .pgStable rail => wfRail rail
  | .seqInRise => true
  | .seqInFall => true
  | .railLost rail => wfRail rail
  | .dischargeTimeout rail => wfRail rail
  | .seqStall => true
  | .faultHoldExpire => true
  | .faultRetry => true
  | .cascDelayExpire => true
  | .cascDownWaitExpire => true
  | .refclkLoss _ => true
  | .refclkReturn _ => true
  | .islandUnlock k => wfIsland k
  | .chipReset => true
  | .ageingWindowOpen => true
  | .ageingRetryTimer => true
  | .bankMeasDone _ _ _ _ _ _ _ => true
  | .bankMeasAbort => true
  | .retryProbeDone region _ _ => wfRegion region
  | .senseProbeDone channel _ => wfDram channel
  | .ageingWindowClose => true
  | .slackMonitor island _ => wfIsland island
  | .eyeMeasure page _ _ _ => wfPage page
  | .laneRetrainDone page _ _ _ => wfPage page
  | .fcFiringArrival => true
  | .graceExpire _ src => wfSource src
  | .classAckWrite _ _ => true
  | .classCfgWrite _ _ => true
  | .faultNClrWrite _ _ => true
  | .fcInjectWrite _ _ => true
  | .rtcSetGo _ _ => true
  | .rtcSlewDone => true
  | .rtcNowLoRead => true
  | .summaryBoundary _ => true
  | .historyPageProgram => true
  | .historyStateCopy _ _ => true
  | .historyHeadScanDone => true
  | .historyEraseDeferLimit => true
  | .minuteBoundary _ => true
  | .tallyCloseStart => true
  | .tallyStagingCopy => true
  | .tallyRingDelivery _ => true
  | .tallyRingHeadWrite _ _ => true
  | .tallyProbeWrite _ _ => true
  | .counterSelectWrite _ page n _ => wfPage page && wfCounter n
  | .counterClearWrite _ page n _ => wfPage page && wfCounter n
  | .counterOverflowClear _ page n _ => wfPage page && wfCounter n
  | .counterValueLoRead page n => wfPage page && wfCounter n
  | .sampleRecordClose sampler _ => wfSampler sampler
  | .samplerPopRead sampler => wfSampler sampler
  | .detectorRecovery => true
  | .vbusDip => true
  | .railDischarged rail => wfRail rail
  | .islandClocksLocked => true
  | .laneFault port => wfLanePort port
  | .rtcOscFail => true
  | .retrainPeriodExpire channel => wfDram channel
  | .gleanPositionSave region => wfRegion region
  | .atticRecordRewrite _ => true
  | .nandEraseDone _ => true
  | .cqCoalesceExpire _ q => wfQueue q

end Sys2Proof
end

