-- ==== Sys2Proof/Tests/Slice0.lean ====
section
/-!
SUPPORT. Tests: an ill-formed command for each check of WellFormed, worked examples of the spec, and for every statement with hypotheses a state and operands that meet all of them together.
-/

set_option maxRecDepth 4000
set_option Elab.async false

namespace Sys2Proof

/-! ### Ill-formed commands are refused -/

/-- A command entry with nothing in it. -/
def plainCmd : AdminCmd :=
  { fn := .pf0, sq := 0, cid := 0, flags := 0, target := 0, dataAddr := 0, dataLen := 0, p0 := 0, p1 := 0, p2 := 0, p3 := 0, p4 := 0, p5 := 0, p6 := 0, p7 := 0, p8 := 0, p9 := 0, data := [], xferOk := true }

theorem test_ill_formed_wfCmd : (Instr.nop { plainCmd with p3 := 2 ^ 32 }).wf = false ∧ (Instr.nop plainCmd).wf = true := by decide

theorem test_ill_formed_wfPage : (Instr.pgCtrlEnable .pf0 (0x4000) true).wf = false ∧ (Instr.pgCtrlEnable .pf0 0 true).wf = true := by decide

theorem test_ill_formed_wfStored : (Instr.translationFillDone 0 (2 ^ 36)).wf = false ∧ (Instr.translationFillDone 0 0).wf = true := by decide

theorem test_ill_formed_wfRegion : (Instr.bypassReq .pf0 (4)).wf = false ∧ (Instr.bypassReq .pf0 0).wf = true := by decide

theorem test_ill_formed_wfDram : (Instr.refreshInterval (24) 0 true).wf = false ∧ (Instr.refreshInterval 0 0 true).wf = true := by decide

theorem test_ill_formed_wfNand : (Instr.programFail (64) 0 0).wf = false ∧ (Instr.programFail 0 0 0).wf = true := by decide

theorem test_ill_formed_wfLun : (Instr.programFail 0 (16) 0).wf = false ∧ (Instr.programFail 0 0 0).wf = true := by decide

theorem test_ill_formed_wfPlane : (Instr.planeDrainExpire (8)).wf = false ∧ (Instr.planeDrainExpire 0).wf = true := by decide

theorem test_ill_formed_wfPeer : (Instr.probeIdleExpire (4096) 0).wf = false ∧ (Instr.probeIdleExpire 0 0).wf = true := by decide

theorem test_ill_formed_wfTenant : (Instr.rowActivation 0 0 0 0 0 0 (4096)).wf = false ∧ (Instr.rowActivation 0 0 0 0 0 0 0).wf = true := by decide

theorem test_ill_formed_wfPort : (Instr.twinFrameDrop (4) true).wf = false ∧ (Instr.twinFrameDrop 0 true).wf = true := by decide

theorem test_ill_formed_wfLanePort : (Instr.laneFault (12)).wf = false ∧ (Instr.laneFault 0).wf = true := by decide

theorem test_ill_formed_wfQueue : (Instr.sqTailDoorbell .pf0 (32) 0).wf = false ∧ (Instr.sqTailDoorbell .pf0 0 0).wf = true := by decide

theorem test_ill_formed_wfQpn : (Instr.qpcFetchDone (2 ^ 20)).wf = false ∧ (Instr.qpcFetchDone 0).wf = true := by decide

theorem test_ill_formed_wfIsland : (Instr.freqReqWrite .pf0 (18) 0).wf = false ∧ (Instr.freqReqWrite .pf0 0 0).wf = true := by decide

theorem test_ill_formed_wfRail : (Instr.pgInputLow (32)).wf = false ∧ (Instr.pgInputLow 0).wf = true := by decide

theorem test_ill_formed_wfRank : (Instr.refreshInterval 0 (4) true).wf = false ∧ (Instr.refreshInterval 0 0 true).wf = true := by decide

theorem test_ill_formed_wfCounter : (Instr.counterSelectWrite .pf0 0 (16) 0).wf = false ∧ (Instr.counterSelectWrite .pf0 0 0 0).wf = true := by decide

theorem test_ill_formed_wfSampler : (Instr.samplerPopRead (9)).wf = false ∧ (Instr.samplerPopRead 0).wf = true := by decide

theorem test_ill_formed_wfAttic : (Instr.atticRead (2 ^ 26) 0 0).wf = false ∧ (Instr.atticRead 0 0 0).wf = true := by decide

theorem test_ill_formed_wfSource : (Instr.graceExpire 0 (32)).wf = false ∧ (Instr.graceExpire 0 0).wf = true := by decide

theorem test_ill_formed_wfSlot : (Instr.rewriteSwitch (8192)).wf = false ∧ (Instr.rewriteSwitch 0).wf = true := by decide

/-- A fabric frame with nothing in it. -/
def plainFrame : Frame :=
  { port := 0, fcsOk := true, vlan := none, tags := 0, v6 := false, headerOk := true, fragment := false, srcIp := 0, dstIp := 0, udpSrc := 0, udpDst := 0, udpSumZero := false, udpSumOk := true, ecn := 0, payload := [] }

theorem test_ill_formed_wfFrame : (Instr.pxtWriteRx { plainFrame with port := 8 }).wf = false ∧ (Instr.pxtWriteRx plainFrame).wf = true := by decide

/-- A twin frame. -/
def plainTwin : TwinFrame := { port := 0, side := 0, epoch := 0, mseq := 0, txCount := 0, body := .notice 0 0 }

theorem test_ill_formed_wfTwin : (Instr.mirrorDataRx { plainTwin with side := 2 }).wf = false ∧ (Instr.mirrorDataRx plainTwin).wf = true := by decide

theorem test_ill_formed_wfCore : (Instr.fenceOutput 3 0 .larder 0 [] 0).wf = false ∧ (Instr.fenceOutput 0 0 .larder 0 [] 0).wf = true := by decide
end Sys2Proof

namespace Sys2Proof.Machine

/-! ### Worked examples of the spec -/

/-- R104: the check value of CRC-32C for the ASCII string "123456789". -/
theorem test_crc32c_check_value : crc32c [0x31, 0x32, 0x33, 0x34, 0x35, 0x36, 0x37, 0x38, 0x39] = 0xE3069283 := by decide +kernel

/-- The example of the table "BAR0 page map": NC37 has page 0x0265, its parent is page 0x0030, whose parent is region RG2, whose parent is SD1. -/
theorem test_page_map_example : pNC 37 = 0x0265 ∧ State.reset.reg 0x0265 0x034 = 0x0030 ∧ State.reset.reg 0x0030 0x034 = 0x0012 ∧ State.reset.reg 0x0012 0x034 = 0x0003 := by decide +kernel

/-- The example of R43: SEQ 0x0041 consumed, the next result is published as 0x8000_0042; the ACK of 0x0042 leaves 0x0000_0042, and a stray ACK of 0x0041 changes nothing there. -/
theorem test_result_example :
    (let s := (State.reset.setNum pTC 0x048 0x41).present pTC 0x048 [7]
     s.reg pTC 0x048 = 0x80000042 ∧ (s.ack pTC 0x048 0x42).reg pTC 0x048 = 0x00000042 ∧ ((s.ack pTC 0x048 0x42).ack pTC 0x048 0x41).reg pTC 0x048 = 0x00000042 ∧
       ((s.ack pTC 0x048 0x42).ack pTC 0x048 0x41).num pPKG 0x054 = 1) := by decide +kernel

/-- R43: 0xFFFF is followed by 0x0001. -/
theorem test_sequence_wraps : nextSeq 0xFFFF = 1 ∧ nextSeq 0x41 = 0x42 := by decide

/-- R92: the last sequence number precedes 0, and half the circle away neither of two precedes the other. -/
theorem test_precedes_wraps : precedes 0xFFFFFFFF 0 = true ∧ precedes 0 0xFFFFFFFF = false ∧ precedes 0 0x80000000 = false ∧ precedes 0x80000000 0 = false := by decide

/-- The example of R56: with RESERVE_BASE 47 the reserve base is 0xBC0_0000_0000 and the staging base 0xBB0_0000_0000. -/
theorem test_reserve_example : State.reset.reserveBase = 0xBC000000000 ∧ State.reset.stagingBase = 0xBB000000000 := by decide +kernel

/-- R38: a firing counts once for each source, sets its bits, and is captured by its lowest source. -/
theorem test_fire_two_sources : (let s := State.reset.fireMask pTC 0x30
    s.reg pTC 0x010 = 0x30 ∧ s.reg pTC 0x028 = 2 ∧ s.reg pTC 0x01C = 0x80000004) := by decide +kernel

/-- A counter saturates. -/
theorem test_counter_saturates : ((State.reset.setNum pPKG 0x04C 0xFFFFFFFF).bump pPKG 0x04C).num pPKG 0x04C = 0xFFFFFFFF := by decide +kernel

end Sys2Proof.Machine

/-! ### States and operands that meet the hypotheses of the statements -/

namespace Sys2Proof.Machine
/-- A register of a page set, on the state after reset. -/
def wReg (page off v : Nat) : State := State.reset.setNum page off v

/-- A command with nothing in it. -/
def cmd0 : AdminCmd :=
  { fn := .pf0, sq := 0, cid := 1, flags := 0, target := 0, dataAddr := 0, dataLen := 0, p0 := 0, p1 := 0, p2 := 0, p3 := 0, p4 := 0, p5 := 0, p6 := 0,
    p7 := 0, p8 := 0, p9 := 0, data := [], xferOk := true }

/-- The pair runs, and a command waits fetched in a state. -/
def wAdm (op : Nat) (c : AdminCmd) (f : State → State) : State :=
  { f (State.reset.setFld pSTW 0x040 31 29 1) with
    host.cmds := [{ op, cmd := c, started := false, running := false, opId := 0, sqHead := 0, discard := false }] }

/-- The twin is healthy. -/
def wTwin (s : State) : State :=
  { (((s.setFld pTWC 0x044 2 0 1).setNum pTWC 0x040 1).setNum (pTP 0) 0x040 1) with twin.survive := true }

/-- A queue pair with room. -/
def aq0 : AdminQ := { sqBase := 0, cqBase := 0, sqSize := 4, cqSize := 4, vector := 0 }

/-- The state after reset with queue pair 0 of PF0. -/
def wAq : State := State.reset.setAq .pf0 0 aq0

/-- A completion queue entry. -/
def cqe0 : Cqe := { cid := 0, sqHead := 0, sqId := 0, status := 0, result0 := 0, result1 := 0, opId := 0 }

/-- A command with an authorisation block under an all-zero challenge and key. -/
def authCmd (op : Nat) (c : AdminCmd) : AdminCmd :=
  { c with flags := 2, dataLen := c.dataLen + 48,
           data := List.replicate 16 0 ++ (beBytes 32 (Config.hmacSha256 0 (sqeBytes op { c with flags := 2, dataLen := c.dataLen + 48 } ++
             List.replicate 16 0 ++ c.data)).toNat ++ c.data) }

/-- What the witness of an authorised command sets beside the command: the key and the challenge. -/
def wKey (fn : Fn) (f : State → State) (s : State) : State :=
  { f s with larder.slots := KM.put (f s).larder.slots 2 { state := .active }, host.challenges := [{ value := 0, fn, at_ := 0 }] }

/-- An authorised command waits fetched. -/
def wAuth (op : Nat) (c : AdminCmd) (f : State → State) : State := wAdm op (authCmd op c) (wKey c.fn f)

/-- That command has begun. -/
def wBegun (op : Nat) (c : AdminCmd) (f : State → State) : State :=
  let s := wAuth op c f
  { (s.enter op (authCmd op c)).2 with
    host.challenges := [],
    host.cmds := [{ op, cmd := authCmd op c, started := true, running := true, opId := (s.enter op (authCmd op c)).1, sqHead := 0, discard := false }] }

/-- Nothing but the authorisation of a command is left to show. -/
def wFit (op : Nat) (c : AdminCmd) (f : State → State) : Bool :=
  (wAuth op c f).pairRuns && !badFields { c with flags := 2, dataLen := c.dataLen + 48 } && c.xferOk && decide ((wAuth op c f).now = 0) &&
    decide ((wAuth op c f).stwState ≠ 6)

theorem leBytes_length (n v : Nat) : (leBytes n v).length = n := by
  induction n generalizing v with
  | zero => rfl
  | succ n ih => simp [leBytes, ih]

theorem leNat_leBytes (n v : Nat) : leNat (leBytes n v) = v % 256 ^ n := by
  induction n generalizing v with
  | zero => simp [leBytes, leNat, Nat.mod_one]
  | succ n ih =>
    simp only [leBytes, leNat, ih, BitVec.toNat_ofNat]
    have e := Nat.mod_mul (x := v) (a := 256) (b := 256 ^ n)
    rw [pow_succ' 256 n, e, Nat.mod_mod_of_dvd _ (by norm_num : 2 ^ 8 ∣ 256)]
    rfl

theorem beNat_reverse (l : List Byte) : beNat l.reverse = leNat l := by
  induction l with
  | nil => rfl
  | cons b l ih =>
    simp only [beNat, List.foldl_reverse, List.foldr_cons, leNat] at ih ⊢
    rw [ih]; omega

theorem beNat_beBytes (v : Nat) (h : v < 2 ^ 256) : beNat (beBytes 32 v) = v := by
  rw [beBytes, beNat_reverse, leNat_leBytes]
  exact Nat.mod_eq_of_lt (by rw [show (256 : Nat) ^ 32 = 2 ^ 256 by norm_num]; exact h)

theorem authOk_wAuth (op : Nat) (c : AdminCmd) (s : State) (h1 : KM.get s.larder.slots 2 = some { state := .active })
    (h2 : s.host.challenges = [{ value := 0, fn := c.fn, at_ := 0 }]) (h3 : s.now = 0) : s.authOk op (authCmd op c) = true := by
  have hl : (beBytes 32 (Config.hmacSha256 0 (sqeBytes op { c with flags := 2, dataLen := c.dataLen + 48 } ++
             List.replicate 16 0 ++ c.data)).toNat).length = 32 := by simp [beBytes, leBytes_length]
  have hd : (authCmd op c).data.drop 16 = beBytes 32 (Config.hmacSha256 0 (sqeBytes op { c with flags := 2, dataLen := c.dataLen + 48 } ++
             List.replicate 16 0 ++ c.data)).toNat ++ c.data := rfl
  have hd2 : (authCmd op c).data.drop 48 = c.data := by
    rw [show (48 : Nat) = 16 + 32 by rfl, ← List.drop_drop, hd, List.drop_left' hl]
  have hz : (authCmd op c).data = List.replicate 16 0 ++ (authCmd op c).data.drop 16 := rfl
  have ht : (authCmd op c).data.take 16 = List.replicate 16 0 := List.take_left' (by simp)
  have ht8 : leNat ((authCmd op c).data.take 8) = 0 := by
    rw [show (8 : Nat) = min 8 16 by rfl, ← List.take_take, ht]; decide
  have hs : sqeBytes op (authCmd op c) = sqeBytes op { c with flags := 2, dataLen := c.dataLen + 48 } := rfl
  have hlen : 48 ≤ (authCmd op c).data.length := by simp [authCmd, beBytes, leBytes_length]
  unfold State.authOk State.challenge
  rw [h2, h1]
  simp only [List.find?_cons, ht8]
  have hf : (authCmd op c).fn = c.fn := rfl
  simp only [hf, hd, List.take_left' hl, hd2, ht, hs, h3]
  rw [beNat_beBytes _ (BitVec.isLt _)]
  simp [hlen]

/-- The state in which the one outstanding command of a state has started. -/
def wOne (op : Nat) (a : AdminCmd) (s : State) : State :=
  { (s.enter op a).2 with
    host.cmds := [{ op, cmd := a, started := true, running := true, opId := (s.enter op a).1, sqHead := 0, discard := false }] }

theorem starting_one (op : Nat) (a : AdminCmd) (s t : State)
    (hc : s.host.cmds = [{ op, cmd := a, started := false, running := false, opId := 0, sqHead := 0, discard := false }])
    (hp : s.pairRuns = true) (hk : (wOne op a s).checks op a = (none, t)) : s.starting op a = some ((s.enter op a).1, t) := by
  have hr : replaceFirst (fun x => decide (x.op = op ∧ x.cmd = a) && !x.running)
      (fun x => { x with started := true, running := true, opId := (s.enter op a).1 }) (s.enter op a).2.host.cmds =
      [{ op, cmd := a, started := true, running := true, opId := (s.enter op a).1, sqHead := 0, discard := false }] := by
    have e : (s.enter op a).2.host.cmds = s.host.cmds := rfl
    rw [e, hc]
    simp [replaceFirst]
  have hm : mayStart a [] = true := rfl
  unfold State.starting
  simp only [hc, findCmd, sameCmd, and_self, decide_true, Bool.not_false, Bool.and_true, if_true, hp, List.reverse_nil, hm, Bool.or_true,
    Bool.false_eq_true, if_false]
  rw [hr]
  have hk' : State.checks { (s.enter op a).2 with host.cmds := [{ op, cmd := a, started := true, running := true, opId := (s.enter op a).1, sqHead := 0, discard := false }] } op a = (none, t) := hk
  rw [hk']

theorem starting_wAuth (op : Nat) (c : AdminCmd) (f : State → State) (h : wFit op c f = true) :
    (wAuth op c f).starting op (authCmd op c) = some (((wAuth op c f).enter op (authCmd op c)).1, wBegun op c f) := by
  unfold wFit at h
  simp only [Bool.and_eq_true, Bool.not_eq_true', decide_eq_true_eq] at h
  obtain ⟨⟨⟨⟨hp, hb⟩, hx⟩, hn⟩, hw⟩ := h
  have hk : KM.get (wAuth op c f).larder.slots 2 = some { state := .active } := KM.get_put_self _ _ _
  have hg : (wAuth op c f).host.challenges = [{ value := 0, fn := c.fn, at_ := 0 }] := rfl
  have hc : (wAuth op c f).host.cmds = [{ op, cmd := authCmd op c, started := false, running := false, opId := 0, sqHead := 0, discard := false }] := rfl
  unfold wBegun
  generalize wAuth op c f = s at *
  apply starting_one op _ s _ hc hp
  have ho := authOk_wAuth op c (wOne op (authCmd op c) s) hk hg hn
  have hbf : badFields (authCmd op c) = false := hb
  have hxf : (authCmd op c).xferOk = true := hx
  have hau : cmdAuth (authCmd op c) = true := by simp [cmdAuth, authCmd, Nat.testBit]
  have h6 : (wOne op (authCmd op c) s).stwState ≠ 6 := by
    have e : (wOne op (authCmd op c) s).reg pSTW 0x040 = s.reg pSTW 0x040 := by
      unfold wOne State.enter State.set64
      dsimp only
      rw [show ∀ (t : State) (h : HostSide), State.reg { t with host := h } pSTW 0x040 = t.reg pSTW 0x040 from fun _ _ => rfl]
      rw [reg_setNum _ (by decide) (by decide), reg_setNum _ (by decide) (by decide)]
      rfl
    unfold State.stwState State.fld at hw ⊢
    rwa [e]
  have ht8 : leNat ((authCmd op c).data.take 8) = 0 := by
    have ht : (authCmd op c).data.take 16 = List.replicate 16 0 := List.take_left' (by simp)
    rw [show (8 : Nat) = min 8 16 by rfl, ← List.take_take, ht]; decide
  have hf : (authCmd op c).fn = c.fn := rfl
  unfold State.checks
  simp only [hbf, hxf, hau, h6, ho, false_and, if_false, Bool.false_eq_true, if_true, Bool.true_eq_false]
  have hg' : (wOne op (authCmd op c) s).host.challenges = [{ value := 0, fn := c.fn, at_ := 0 }] := hg
  simp only [State.useChallenge, hg', ht8, hf]
  simp [wOne]

theorem admits_wAuth (op : Nat) (c : AdminCmd) (f : State → State) (h : wFit op c f = true) : (wAuth op c f).admits op (authCmd op c) = true := by
  rw [State.admits, starting_wAuth op c f h]; rfl

theorem begun_wAuth (op : Nat) (c : AdminCmd) (f : State → State) (h : wFit op c f = true) :
    (wAuth op c f).begun op (authCmd op c) = wBegun op c f := by
  rw [State.begun, starting_wAuth op c f h]; rfl
/-- A command fetched and not started, for ABORT to find. -/
def wOut : Outstanding := { op := 0, cmd := { cmd0 with cid := 0 }, started := false, running := false, opId := 0, sqHead := 0, discard := false }

/-- A further command waits behind the others. -/
def wThen (o : Outstanding) (s : State) : State := { s with host.cmds := s.host.cmds ++ [o] }
/-- A page list of one entry, a Cellar page, at the base of the page-list area. -/
def wList (s : State) : State := s.loftPut s.listBase (leBytes 8 (entryValue (2 ^ 34)))

/-- A command that binds that list. -/
def cmdBind : AdminCmd := { cmd0 with p1 := 1, p2 := 0xC0000000, p3 := 0xBD5 }

/-- Object 1 of tenant 0 with two pages. -/
def obj0 : Object := { valid := true, sizePages := 2, pageList := 0xBD5C0000000, aliasCount := 1 }

/-- Object 1 with its page list. -/
def wObj (s : State) : State := (wList s).setObject 1 obj0

/-- Window 1, generation 1, of that object, cached. -/
def wWin (s : State) : State :=
  { (wObj s).setWindow 1 { valid := true, write := true, read := true, gen := 1, object := 1, sizePages := 2 } with
    win.cache := [{ idx := 1, locked := false }] }

/-- A fill of window 1. -/
def wFill : WindowFill := { idx := 1, gen := 1, stale := false, tries := 0, op := 1 }

/-- A migration of page 0 of object 1 that copies. -/
def wMig : Migration := { op := 1, object := 1, demote := false, work := [(0, 5, false)], phase := .copy, source := 2 ^ 34 }

/-- A peer on plane 0. -/
def peer0 : Peer := { addr := [1], nextHop := [1], planeEn := 1, probeLocal := 0, probePeer := 0 }

/-- Tenant 1 and a peer. -/
def wPeer (s : State) : State := { s with win.tenants := [(1, {})], fab.peers := [(1, peer0)] }

/-- Queue pair 1 in a state. -/
def wQp (st : QpState) (s : State) : State := (wPeer s).setQp 1 { state := st, peer := 1, tenant := 1, respPlanes := 1 }

/-- A resync of the survivor with nothing left. -/
def wRes : Resync := { op := 1, sender := false, resume := false, full := false, logIn := false, left := [], copied := 0 }

/-- STREAM_OPEN of 16 bytes into object 1. -/
def cmdStream : AdminCmd :=
  { cmd0 with target := 16, p0 := 1, dataLen := 80, data := List.replicate 16 0 ++ [16] ++ List.replicate 7 0 ++ [1] ++ List.replicate 47 0 ++ [16] ++ List.replicate 7 0 }

/-- Object 1 without windows, whose first page is Loft page 0, a sealing slot, and a pair that runs. -/
def wStream (s : State) : State :=
  ((((s.loftPut s.listBase (leBytes 8 (entryValue 0))).setObject 1 { obj0 with aliasCount := 0 }).setSlot 16 { state := .active, kind := 4 }).setFld pTWC 0x044 2 0 1)

/-- A stream of one byte. -/
def wStr : Stream := { op := 1, slot := 16, salt := 0, counter := 0, aad := [], tag := [], object := 1, first := 0, ctLen := 1 }

/-- That stream runs. -/
def wSeg : State :=
  { (((((wObj State.reset).setSlot 16 { state := .active, kind := 4 }).setNum (pRG 0) 0x00C 2).setNum pLG 0x044 100000).setFld pTWC 0x044 2 0 3) with larder.streams := [wStr] }

/-- A packet of queue pair 1 on plane 0: opcode, flags, PSN, MSN, header words, payload length, then what follows the base header. -/
def wPacket (op flags psn msn words plen : Nat) (rest : List Byte) : List Byte :=
  let b := [0x10, BitVec.ofNat 8 op] ++ beBytes 2 flags ++ beBytes 4 1 ++ beBytes 4 psn ++ beBytes 4 msn ++ [BitVec.ofNat 8 words, 0] ++ beBytes 2 plen ++ rest
  b ++ beBytes 4 (crc32c b).toNat

/-- A frame of peer 1 with that packet. -/
def wFrame (op flags psn msn words plen : Nat) (rest : List Byte) : Frame :=
  { port := 0, fcsOk := true, vlan := none, tags := 0, v6 := false, headerOk := true, fragment := false, srcIp := 1, dstIp := 0xFFFF00000000, udpSrc := 0xC000,
    udpDst := State.reset.fld pFPC 0x040 15 0, udpSumZero := true, udpSumOk := true, ecn := 0,
    payload := wPacket op flags psn msn words plen rest }

/-- Port 0 serves untagged IPv4, and queue pair 1 of peer 1 is cached. -/
def wRx (s : State) : State :=
  ((((wQp .ready s).setNum (pFP 0) 0x00C 2).setFld pFPC 0x040 16 16 1).setFld pFPC (portReg 0 0) 13 13 1).setWays 1 [{ qpn := 1, dirty := false }]

/-- A PROBE. -/
def fProbe : Frame := wFrame 8 0 0 0 10 0 (List.replicate 24 0)

/-- A READ of 64 bytes of window 1. -/
def fRead : Frame :=
  wFrame 2 0 0 1 12 0 ([2, 7, 0, 0] ++ beBytes 4 0x101 ++ beBytes 8 0 ++ beBytes 4 64 ++ beBytes 4 0 ++ beBytes 4 0 ++ beBytes 4 0)

/-- A WRITE of 4 bytes to window 1. -/
def fWrite : Frame := wFrame 1 0 0 1 11 4 ([1, 6, 0, 0] ++ beBytes 4 0x101 ++ beBytes 8 0 ++ beBytes 4 4 ++ beBytes 4 0 ++ [1, 2, 3, 4] ++ beBytes 4 0x101)

/-- A MARK_ECHO with one MARK. -/
def fEcho : Frame := wFrame 4 0 0 0 8 0 ([5, 3, 0, 0] ++ beBytes 4 1 ++ beBytes 4 2 ++ beBytes 4 0)

/-- A PROBE_REPLY. -/
def fReply : Frame := wFrame 9 0 0 0 10 0 (List.replicate 24 0)

/-- The survivor holds the lease, and queue pair 1 of tenant 0 may reach window 1 in region 0, which has budget. -/
def wServe : State :=
  (((((wRx (wWin State.reset)).loftPut State.reset.listBase (leBytes 8 (entryValue 0))).setQp 1 { state := .ready, peer := 1, tenant := 0, respPlanes := 1 }).setNum (pRG 0) 0x00C 2).setNum pLG 0x044 0x40000000).setFld pTWC 0x044 2 0 3

/-- The states on the way of that WRITE: at the access check, and after each part of the admission. -/
abbrev wNoted : State := ((wServe.counted fWrite).sampleRequest fWrite).noted (parsePxt fWrite.payload)
/-- Once its regions' modes admit it. -/
abbrev wAdmit1 : State := (wNoted.admitModes (parsePxt fWrite.payload).plen (wNoted.regionsOf (wNoted.writePages (parsePxt fWrite.payload) fWrite.payload))).2
/-- Once its regions' budgets admit it. -/
abbrev wAdmit2 : State := (wAdmit1.admitRegions (wNoted.object (wNoted.window (be fWrite.payload 24 4 / 256)).object).owner (wNoted.writePages (parsePxt fWrite.payload) fWrite.payload) (wNoted.regionsOf (wNoted.writePages (parsePxt fWrite.payload) fWrite.payload))).2
/-- A trigger. -/
def trig0 : Trigger := { arrival := 1, plane := 0, udpSrc := 0xC000, psn := 0, txCount := 0 }

/-- A packet on its way to placement. -/
def wPlace : Placement :=
  { qpn := 1, trig := trig0, msn := 1, handle := 0x101, woff := 0, object := 1, pieces := [(0, 0, 1)], newPages := [], owner := 0, fold := 0x101, poison := 0,
    sealing := none, tag := [], payload := [1], ackReq := false }

/-- A read message with nothing left. -/
def wJob : ReadJob := { arrival := 1, qpn := 1, msn := 1, resend := false, handle := 0x101, offset := 0, msgLen := 1, object := 1, firstPage := 0, left := [] }

/-- A response queued. -/
def wResp : Response :=
  { qpn := 1, tenant := 0, peer := 1, msn := 1, resend := true, handle := 0x101, offset := 0, msgLen := 1, msgOff := 0, poison := 0, data := [1], last := true }

/-- It may depart from plane 0. -/
def wDepart : State :=
  (((wServe.setPlaneBits 0 true true).setNum pTC 0x140 0x3FF).setPp 1 0 { bucket := 1000000000 }).setPlane 0 { queue := [wResp], deficits := [(0, 100000)] }

/-- The states on its way: the queue's live responses, -/
abbrev wDepartV : State := wDepart.setPlane 0 { wDepart.plane 0 with queue := (wDepart.plane 0).queue.filter fun r => wDepart.live r }
/-- and the deficits of the tenants that queue some. -/
abbrev wDepartW : State := wDepartV.setPlane 0 { wDepartV.plane 0 with deficits := KM.keep (fun t _ => decide (t ∈ wDepartV.queuedTenants 0)) (wDepartV.plane 0).deficits }

/-- Peer 1 may be probed on plane 0. -/
def wProbe : State := wServe.setPlaneBits 0 true true

/-- That packet is on its way, -/
def wPlaced : State := { wServe with fab.placements := [wPlace] }
/-- and a duplicate of it. -/
def wDup : State := { wServe.setQp 1 { state := .ready, cumPsn := 5 } with fab.placements := [wPlace] }

/-- A stored page of Loft page 0, sealed under slot 16 with salt 0. -/
def wFlash : FlashPage := { kind := 1, page := 0, slot := 16, salt := 0, ctr := 0 }

/-- Loft page 0 gathers from flash location 0, which holds that page under a key still in its slot. -/
def wGather : State :=
  { (State.reset.setDirty 0 { gather := [(0, { cellar := 2 ^ 34, tenant := 0, source := some 0, present := [], period := 0 })] }).setSlot 16 { state := .active } with
    cellar.flash := [(0, wFlash)] }

/-- A harvest of Loft page 0. -/
def wHarvest : Harvest := { page := 0, data := [], poison := [], mseq := 0 }

/-- It is in progress, with a key in slot 0. -/
def wHarv : State := (State.reset.setDirty 0 { harvests := [wHarvest] }).setSlot 0 { state := .active }

/-- The steps of its program: sealed, -/
abbrev wHarvV : State := (wHarv.sealPage (wHarv.kindOf 0) (wHarv.storedAs 0) wHarvest.data wHarvest.poison).2
/-- the page that results, -/
abbrev wHarvPage : FlashPage := (wHarv.sealPage (wHarv.kindOf 0) (wHarv.storedAs 0) wHarvest.data wHarvest.poison).1.getD wFlash
/-- its band, -/
abbrev wHarvW : State := (wHarvV.bandFor (wHarv.regionOf 0) (wHarv.kindOf 0)).2
/-- the band's key, -/
abbrev wHarvK : Nat := (wHarvV.bandFor (wHarv.regionOf 0) (wHarv.kindOf 0)).1.getD 0
/-- and its place. -/
abbrev wHarvLoc : Nat := (wHarvW.slotIn (wHarv.regionOf 0) wHarvK wHarvPage.page).getD 0

/-- The sequencer steps down from state 15. -/
def wDown : State := (State.reset.setFld pSEQ 0x04C 31 28 15).setFld pSEQ 0x04C 27 27 1

/-- An image with nothing in it. -/
def img0 : Image := { id := 1, base := 0, time := 0, policy := 0, pointers := [0, 0, 0, 0], dirty := [0, 0, 0, 0], key1 := 0, key2 := 0, budget := 0, buffers := [], bitmap := [], pages := [] }

/-- The device holds that image, in a phase. -/
def wImg (n : Nat) : State := { wReg pPLD 0x044 n with power.images := [img0] }

/-- All four regions serve again. -/
def wServing : State := [0, 1, 2, 3].foldl (fun s r => s.setNum (pRG r) 0x00C 2) (wImg 6)

/-- Twin port 0 carries traffic. -/
def wPort : State := (State.reset.setNum pTWC 0x040 1).setNum (pTP 0) 0x040 1

/-- A READ_REQ outstanding for someone, -/
def ask0 (w : ReadWaiter) : ReadReq := { id := 0, dpa := 0, len := 0, after := 0, purpose := 0, resent := false, waiter := w }
/-- and the state that waits for its answer. -/
def wAsk (w : ReadWaiter) : State := { wPort with twin.reqs := [ask0 w] }

/-- An audit of page 0 with one digest open. -/
def audit0 : Audit := { op := 1, left := [], repair := true, rate := 1, open_ := [(0, 0, [], 0)] }

/-- The state in which a HELLO is weighed. -/
abbrev wHelloV (t : State) (f : TwinFrame) (valid : Bool) : State :=
  { (t.sendFrame (t.plainFrame f.port t.helloBody)).restartSequence with
    twin.peerLog := false, twin.peerLogValid := valid,
    twin.epochGap := decide (f.epoch + 1 < (t.sendFrame (t.plainFrame f.port t.helloBody)).restartSequence.epoch), twin.seen := true }

/-- An unapplied frame. -/
def sent0 : SentFrame := { frame := { port := 0, side := 0, epoch := 0, mseq := 0, txCount := 0, body := .mirrorMeta [] }, firstAt := 0, lastAt := 0, bytes := [], pages := [], queued := false }

/-- A miss of flash location 0, which stores Loft page 0. -/
def miss0 : Miss := { loc := 0, page := 0, step := 1, tenant := 0, parked := [] }
/-- Its read runs. -/
def wMiss : State := { wGather with cellar.misses := [miss0] }

/-- Location 0 is to be relocated, its key in slot 0. -/
def wMove : State := { wGather with cellar.rewrites := [0] }
/-- The location as no longer to rewrite, -/
abbrev wMoveV : State := { wMove with cellar.rewrites := wMove.cellar.rewrites.filter (· ≠ 0) }
/-- the state with a relocation band, -/
abbrev wMoveW : State := (wMoveV.relocBand 64 (locRegion 0) 0).2
/-- its key, -/
abbrev wMoveK : Nat := (wMoveV.relocBand 64 (locRegion 0) 0).1.getD 0
/-- and the new place. -/
abbrev wMoveLoc : Nat := (wMoveW.slotIn (locRegion 0) wMoveK wFlash.page).getD 0

/-- A written band, less worn than another of its region. -/
def wWorn : State := { State.reset with cellar.used := KM.put [] 1040 default, cellar.pe := [(1041, 1000000)] }

/-- A staging read of Loft page 0, which is mapped, is in flight. -/
def wStage : State := { State.reset.setMap 0 { state := .mapped } with cellar.stageFills := [{ page := 0, stale := false, op := 0 }] }

/-- A sequence of region 0 in a phase. -/
def wTrain (k : TrainKind) (p : TrainPhase) : Train := { kind := k, phase := p, step := 0, channels := 1, speed := 0, stalled := false }
/-- The state in which it runs. -/
def wTrains (k : TrainKind) (p : TrainPhase) : State := { State.reset with dram.trains := [(0, wTrain k p)] }

/-- The entry of the first activation of a row. -/
abbrev wAct : ActEntry := ((activate 0 0 []).find? fun e => e.row == 0).getD { row := 0, count := 0, tenant := 0, mixed := false }

/-- A soft repair of row 0, running or not. -/
def wSoft (b : Bool) : State := { State.reset with integ.soft := [{ row := { channel := 0, sub := 0, rank := 0, group := 0, bank := 0, row := 0, column := 0 }, devs := [], running := b }] }

/-- Line 0 of the Loft is poisoned. -/
def wBad : State := { State.reset with loft.poison := KM.put [] 0 true }

/-- Errors in three symbols of each half. -/
def wErr : List (Nat × Byte) := (List.range 30).map fun i => (i, BitVec.ofNat 8 (i * 7 + 1))

/-- Line 0 of the Loft is under recovery, from its shadow. -/
def wRecov : State := { wGather with loft.recov := [(0, (2, false))] }

/-- A scan runs on pushed data. -/
def wScan : State := { State.reset with integ.scan := some { source := 3, addr := 0, len := 64, poly := 0 } }

/-- A seal request of slot 16, -/
def req0 : LarderReq := { op := 1, prio := 0, slot := 16, client := 0, tag := 0, aadLen := 0, len := 16, salt := 0, counter := 0, dataRef := 0 }
/-- and engine 0 works on it. -/
def wEngine : State := { State.reset with larder.engines := [(0, req0)] }

/-- The Steward complex in a state. -/
def wStw (n : Nat) : State := State.reset.setFld pSTW 0x040 31 29 n

/-- Roles of the cores: lead 0, shadow 1, spare in the slot given. -/
def wRoles (n spare : Nat) : State := (((wStw n).setFld pSTW 0x040 1 0 0).setFld pSTW 0x040 3 2 1).setFld pSTW 0x040 5 4 spare

/-- The sequencer stands in state 15, and the boot in a stage. -/
def wBoot (n : Nat) : State := (State.reset.setFld pSEQ 0x04C 31 28 15).setNum pSTW 0x05C (n * 16)

/-- A command sequence after some cycles. -/
def wSeq (n : Nat) : State := { State.reset with attic.seq := { cycles := n } }

/-- The sequencer in a state, with the rails powered. -/
def wSeqAt (n : Nat) : State := State.reset.setFld pSEQ 0x04C 31 28 n
/-- The same with the line released. -/
def wFreed (n : Nat) : State := { wSeqAt n with seq.holding := false }
/-- The sequencer steps down through a state. -/
def wDownAt (n : Nat) : State := (wSeqAt n).setFld pSEQ 0x04C 27 27 1
/-- The cascade is strapped. -/
def wCasc (n : Nat) : State := (wSeqAt n).setFld pSEQ 0x040 31 31 1

/-- A chip reset asked for. -/
def due0 : ChipDue := { cause := 3, w0 := 0, w1 := 0, w2 := 0 }

/-- Going up through state 4, rail 4's enable is on. -/
def wPg : State := (wFreed 4).setNum pSEQ 0x050 0x10


/-- Measurement 1 runs, for a command or for none. -/
def wBank (op : Nat) : State := { State.reset with age.bank := some { start := 0, since := 0, op } }

/-- The class of TYPE 0 and source 0 runs a grace timer, pending or not. -/
def wGrace (b : Bool) : State := State.reset.setClass 0 0 { (State.reset.fcClass 0 0) with pending := b, timer := some (1, 1) }

/-- One record is staged, and the ring of PF0 has room for it. -/
def wTally : State :=
  { State.reset with
    tally.staged := [(0, { minute := 0, tenant := 0, first := false, last := false, step := false, invalid := false, fold := 0, outage := false, sat := false, counts := [0, 0, 0, 0, 0, 0, 0, 0] })],
    tally.ring0 := { on := true, log2 := 8 } }

/-- An open sample. -/
def wOpen : OpenSample :=
  { arrival := 1, opcode := 1, flags := 0, txCount := 0, plane := 0, qpn := 1, tenant := 0, len := 4, handle := 0, psn := 0, msn := 1, time := 0 }
/-- Sampler 0 has it. -/
def wSampler : State := State.reset.setSampler 0 { open_ := [wOpen] }

/-! AnIdleStepPassesANanosecond -/

theorem test_wit_an_idle_step_passes_a_nanosecond_idle : ∃ (s : State), s.pending = [] :=
  ⟨State.reset, by decide +kernel⟩

/-! ResetLeavesTheRegistersAtTheirResetValues -/

theorem test_wit_reset_leaves_the_registers_at_their_reset_values_header : ∃ (page ty : Nat), pageType page = some ty :=
  ⟨pHD, 1, by decide +kernel⟩

/-! EveryStepKeepsTheCanonicalForm -/

theorem test_wit_every_step_keeps_the_canonical_form_step : ∃ (s t : State), Canon s ∧ step s = .next t :=
  ⟨State.reset, { State.reset with now := 1 }, by unfold Canon Canonical; decide +kernel, rfl⟩

/-! ACommandLeavesTheRestOfTheQueue -/

theorem test_wit_a_command_leaves_the_rest_of_the_queue_exec : ∃ (c : Instr) (s t : State), Canon s ∧ exec c s = .next t :=
  ⟨.trstN, State.reset, State.reset, by unfold Canon Canonical; decide +kernel, rfl⟩

theorem test_wit_a_command_leaves_the_rest_of_the_queue_step : ∃ (c : Instr) (q : List Instr) (s t : State), Canon s ∧ s.pending = c :: q ∧ step s = .next t :=
  ⟨.trstN, [.trstN], { State.reset with pending := [.trstN, .trstN] }, { State.reset with pending := [.trstN] }, by unfold Canon Canonical; decide +kernel, rfl, rfl⟩

/-! CommandsThatLeaveTheLoftAlone -/

theorem test_wit_commands_that_leave_the_loft_alone_quiet : ∃ (c : Instr) (s t : State), Canon s ∧ mayWriteLoft c = false ∧ exec c s = .next t :=
  ⟨.trstN, State.reset, State.reset, by unfold Canon Canonical; decide +kernel, rfl, rfl⟩

/-! APlacementStoresToItsPiecesOnly -/

theorem test_wit_a_placement_stores_to_its_pieces_only_frame : ∃ (qpn psn a : Nat) (s t : State), Canon s ∧ exec (.packetPlacement qpn psn) s = .next t ∧ ((∀ p data, s.fab.placements.find? (fun p => p.qpn == qpn && p.trig.psn == psn) = some p → s.openPacket p = some data → ¬ ({ s with fab.placements := s.fab.placements.erase p } : State).piecesStore p data p.poison a p.pieces)) :=
  ⟨1, 2, 0, State.reset, State.reset, by unfold Canon Canonical; decide +kernel, rfl, by intro p data h; cases h⟩

/-! FiringsRecordTheEventRegisters -/

theorem test_wit_firings_record_the_event_registers_fire : ∃ (page ty : Nat) (sources : Word) (s : State), pageType page = some ty ∧ s.absent page = false ∧ sources &&& BitVec.ofNat 32 (definedSources ty) ≠ 0 :=
  ⟨pHD, 1, 0x80000000, State.reset, by decide +kernel⟩

theorem test_wit_firings_record_the_event_registers_set_wins : ∃ (req : Requester) (page ty : Nat) (firing : Word) (s : State), s.writable req page = true ∧ pageType page = some ty ∧ firing &&& BitVec.ofNat 32 (definedSources ty) ≠ 0 :=
  ⟨.pf0, pHD, 1, 0x80000000, State.reset, by decide +kernel⟩

theorem test_wit_firings_record_the_event_registers_clear : ∃ (req : Requester) (page : Nat) (s : State), s.writable req page = true :=
  ⟨.pf0, pHD, State.reset, by decide +kernel⟩

theorem test_wit_firings_record_the_event_registers_absent : ∃ (page : Nat) (s : State), (pageType page = none ∨ s.absent page = true) :=
  ⟨0x500, State.reset, by decide +kernel⟩

/-! APageLockHasOneOwner -/

theorem test_wit_a_page_lock_has_one_owner_held : ∃ (page : Nat) (s : State), bit (s.reg page 0x02C) 31 = true :=
  ⟨pHD, wReg pHD 0x02C 0x80010001, by decide +kernel⟩

theorem test_wit_a_page_lock_has_one_owner_foreign : ∃ (req : Requester) (page : Nat) (s : State), (bit (s.reg page 0x02C) 31 = false ∨ s.fld page 0x02C 17 16 ≠ reqCode req) :=
  ⟨.pf1, pHD, wReg pHD 0x02C 0x80010001, by decide +kernel⟩

/-! ALockedOutWriteIsDroppedAndCounted -/

theorem test_wit_a_locked_out_write_is_dropped_and_counted_rows : ∃ (c : Instr) (req : Requester) (page : Nat) (s : State), writesPage c = some (req, page) ∧ (pageType page).isSome = true ∧ s.absent page = false ∧ s.lockedOut req page = true :=
  ⟨.evFirstWrite .pf1 pHD 0, .pf1, pHD, wReg pHD 0x02C 0x80010001, by decide +kernel⟩

theorem test_wit_a_locked_out_write_is_dropped_and_counted_register_write : ∃ (req : Requester) (addr : Nat) (s : State), addr % 4 = 0 ∧ (pageType (addr / 4096)).isSome = true ∧ s.absent (addr / 4096) = false ∧ s.lockedOut req (addr / 4096) = true ∧ addr < 0x4000000 ∧ (addr % 4096 ∈ [0x008, 0x010, 0x014, 0x018, 0x01C, 0x020, 0x024] ∨ 0x040 ≤ addr % 4096) :=
  ⟨.pf1, 0x1008, wReg pHD 0x02C 0x80010001, by decide +kernel⟩

/-! WritesToAbsentPagesChangeNothing -/

theorem test_wit_writes_to_absent_pages_change_nothing_rows : ∃ (c : Instr) (req : Requester) (page : Nat) (s : State), writesPage c = some (req, page) ∧ (pageType page = none ∨ s.absent page = true) :=
  ⟨.evFirstWrite .pf1 0x500 0, .pf1, 0x500, State.reset, by decide +kernel⟩

theorem test_wit_writes_to_absent_pages_change_nothing_register_write : ∃ (addr : Nat) (s : State), (pageType (addr / 4096) = none ∨ s.absent (addr / 4096) = true) :=
  ⟨0x500000, State.reset, by decide +kernel⟩

theorem test_wit_writes_to_absent_pages_change_nothing_ev_status : ∃ (page : Nat) (s : State), (pageType page = none ∨ s.absent page = true) :=
  ⟨0x500, State.reset, by decide +kernel⟩

theorem test_wit_writes_to_absent_pages_change_nothing_lock : ∃ (page : Nat) (s : State), (pageType page = none ∨ s.absent page = true) :=
  ⟨0x500, State.reset, by decide +kernel⟩

/-! ResultRegistersAreConsumedByTheirSequence -/

theorem test_wit_result_registers_are_consumed_by_their_sequence_consume : ∃ (req : Requester) (page off h : Nat) (data : Word) (s : State), s.writable req page = true ∧ ackHeader ((pageType page).getD 0xFF) off = some h ∧ h < 4096 ∧ s.resultValid page h = true ∧ bits data 15 0 = s.fld page h 15 0 ∧ KM.getD [] s.host.results (regKey page h) = [] :=
  ⟨.pf0, pTC, 0x054, 0x048, 1, wReg pTC 0x048 0x80000001, by decide +kernel⟩

theorem test_wit_result_registers_are_consumed_by_their_sequence_next : ∃ (req : Requester) (page off h w : Nat) (data : Word) (ws : List Nat) (q : List (List Nat)) (s : State), s.writable req page = true ∧ ackHeader ((pageType page).getD 0xFF) off = some h ∧ h + 4 * (ws.length + 2) ≤ 4096 ∧ s.resultValid page h = true ∧ bits data 15 0 = s.fld page h 15 0 ∧ KM.getD [] s.host.results (regKey page h) = (w :: ws) :: q ∧ regKey page h ∉ s.host.overflow :=
  ⟨.pf0, pTC, 0x054, 0x048, 5, 0xFFFF, [6], [], { wReg pTC 0x048 0x8000FFFF with host.results := [(regKey pTC 0x048, [[5, 6]])] }, by decide +kernel⟩

theorem test_wit_result_registers_are_consumed_by_their_sequence_mismatch : ∃ (req : Requester) (page off h : Nat) (data : Word) (s : State), s.writable req page = true ∧ ackHeader ((pageType page).getD 0xFF) off = some h ∧ (s.resultValid page h = false ∨ bits data 15 0 ≠ s.fld page h 15 0) :=
  ⟨.pf0, pTC, 0x054, 0x048, 1, State.reset, by decide +kernel⟩

/-! ACommandThatFailsItsChecksChangesNothing -/

theorem test_wit_a_command_that_fails_its_checks_changes_nothing_completes : ∃ (i : Instr) (op opId st : Nat) (c : AdminCmd) (s u : State), adminOf i = some (op, c) ∧ s.turnedAway op c = some (opId, st, u) :=
  ⟨.nop { cmd0 with flags := 4 }, 0, (State.reset.enter 0 cmd0).1, 2, { cmd0 with flags := 4 }, wAdm 0 { cmd0 with flags := 4 } id, (((wAdm 0 { cmd0 with flags := 4 } id).turnedAway 0 { cmd0 with flags := 4 }).getD (0, 0, State.reset)).2.2, by decide +kernel⟩

theorem test_wit_a_command_that_fails_its_checks_changes_nothing_frame : ∃ (op opId st : Nat) (c : AdminCmd) (s u : State), s.turnedAway op c = some (opId, st, u) :=
  ⟨0, (State.reset.enter 0 cmd0).1, 2, { cmd0 with flags := 4 }, wAdm 0 { cmd0 with flags := 4 } id, (((wAdm 0 { cmd0 with flags := 4 } id).turnedAway 0 { cmd0 with flags := 4 }).getD (0, 0, State.reset)).2.2, by decide +kernel⟩

theorem test_wit_a_command_that_fails_its_checks_changes_nothing_bad_fields : ∃ (c : AdminCmd), badFields c = true :=
  ⟨{ cmd0 with flags := 4 }, by decide +kernel⟩

theorem test_wit_a_command_that_fails_its_checks_changes_nothing_rescue : ∃ (op : Nat) (c : AdminCmd) (s : State), badFields c = false ∧ s.stwState = 6 ∧ rescueOk op c = false :=
  ⟨1, cmd0, State.reset.setFld pSTW 0x040 31 29 6, by decide +kernel⟩

theorem test_wit_a_command_that_fails_its_checks_changes_nothing_transfer : ∃ (op : Nat) (c : AdminCmd) (s : State), badFields c = false ∧ (s.stwState ≠ 6 ∨ rescueOk op c = true) ∧ c.xferOk = false :=
  ⟨1, { cmd0 with xferOk := false }, State.reset, by decide +kernel⟩

theorem test_wit_a_command_that_fails_its_checks_changes_nothing_unauthorised : ∃ (op : Nat) (c : AdminCmd) (s : State), badFields c = false ∧ (s.stwState ≠ 6 ∨ rescueOk op c = true) ∧ c.xferOk = true ∧ op ∈ authOps ∧ cmdAuth c = false ∧ (op ≠ 0x41 ∨ c.target ≠ 2 ∨ (KM.getD {} s.larder.slots 2).state ≠ .empty) :=
  ⟨0x08, cmd0, State.reset, by decide +kernel⟩

theorem test_wit_a_command_that_fails_its_checks_changes_nothing_bad_authorisation : ∃ (op : Nat) (c : AdminCmd) (s : State), badFields c = false ∧ (s.stwState ≠ 6 ∨ rescueOk op c = true) ∧ c.xferOk = true ∧ cmdAuth c = true ∧ s.authOk op c = false :=
  ⟨0x08, { cmd0 with flags := 2 }, State.reset, by decide +kernel⟩

/-! ACompletedCommandPostsOneEntry -/

theorem test_wit_a_completed_command_posts_one_entry_held : ∃ (opId : Nat) (o : Outstanding) (q : AdminQ) (s : State), s.host.cmds.find? (fun x => x.started && x.opId == opId) = some o ∧ o.discard = false ∧ s.aq o.cmd.fn o.cmd.sq = some q :=
  ⟨7, { op := 0, cmd := cmd0, started := true, running := true, opId := 7, sqHead := 1, discard := false }, aq0, { wAq with host.cmds := [{ op := 0, cmd := cmd0, started := true, running := true, opId := 7, sqHead := 1, discard := false }] }, by decide +kernel⟩

theorem test_wit_a_completed_command_posts_one_entry_discarded : ∃ (opId : Nat) (o : Outstanding) (s : State), s.host.cmds.find? (fun x => x.started && x.opId == opId) = some o ∧ o.discard = true :=
  ⟨7, { op := 0, cmd := cmd0, started := true, running := true, opId := 7, sqHead := 1, discard := true }, { wAq with host.cmds := [{ op := 0, cmd := cmd0, started := true, running := true, opId := 7, sqHead := 1, discard := true }] }, by decide +kernel⟩

/-! SequenceNumbersAreModulo2ToThe32 -/

theorem test_wit_sequence_numbers_are_modulo_2_to_the_32_precedes : ∃ (a b : Nat), a < 2 ^ 32 ∧ b < 2 ^ 32 :=
  ⟨4294967295, 0, by decide +kernel⟩

/-! ALateHarvestPlanKeepsTheRate -/

theorem test_wit_a_late_harvest_plan_keeps_the_rate_late : ∃ (region : Nat) (s : State), region < s.regions :=
  ⟨0, State.reset, by decide +kernel⟩

/-! ALateLedgerPeriodKeepsOrDropsTheBudget -/

theorem test_wit_a_late_ledger_period_keeps_or_drops_the_budget_kept : ∃ (s : State), s.fld pLG 0x080 2 0 ≠ 4 :=
  ⟨State.reset, by decide +kernel⟩

theorem test_wit_a_late_ledger_period_keeps_or_drops_the_budget_fifth : ∃ (s u : State), s.fld pLG 0x080 2 0 = 4 ∧ (((s.bump pLG 0x07C).setFld pLG 0x080 2 0 5).fireLimited pLG 0) = u :=
  ⟨wReg pLG 0x080 4, ((((wReg pLG 0x080 4).bump pLG 0x07C).setFld pLG 0x080 2 0 5).fireLimited pLG 0), by decide +kernel, rfl⟩

/-! ALoftAddressHasItsChannelAndCell -/

theorem test_wit_a_loft_address_has_its_channel_and_cell_channel : ∃ (s : State), s.regions = 4 :=
  ⟨State.reset, by decide +kernel⟩

theorem test_wit_a_loft_address_has_its_channel_and_cell_example : ∃ (s : State), s.regions = 4 :=
  ⟨State.reset, by decide +kernel⟩

/-! PageLifeCompletes -/

theorem test_wit_page_life_completes_dieLinkFlit : ∃ (die : Nat) (s : State), 2 ≤ die ∧ die ≤ 5 ∧ s.absent die = false ∧ (KM.getD {} s.arch.links die).down = false :=
  ⟨2, State.reset, by decide +kernel⟩

theorem test_wit_page_life_completes_islandResetEnter : ∃ (k : Nat), k < 17 :=
  ⟨0, by decide +kernel⟩

theorem test_wit_page_life_completes_islandFreqChangeDone : ∃ (k f : Nat) (s : State), k < 17 ∧ (s.island k).target = some f :=
  ⟨0, 700, State.reset.setIsland 0 { target := some 700 }, by decide +kernel⟩

theorem test_wit_page_life_completes_freqReqWrite : ∃ (req : Requester) (k mhz : Nat) (s : State), k < 17 ∧ s.writable req pHD = true ∧ mhz % 25 = 0 ∧ mhz ≤ bits (resetWord pHD (islandReg k)) 15 0 ∧ bits (resetWord pHD (islandReg k)) 15 0 ≤ 2 * mhz ∧ s.aboveCap k mhz = false :=
  ⟨.steward, 0, bits (resetWord pHD (islandReg 0)) 15 0, State.reset, by decide +kernel⟩

theorem test_wit_page_life_completes_pgCtrlEnable : ∃ (req : Requester) (page : Nat) (s : State), s.writable req page = true :=
  ⟨.steward, 0, State.reset, by decide +kernel⟩

theorem test_wit_page_life_completes_enableConditionsMet : ∃ (page : Nat), (pageType page).isSome = true :=
  ⟨0, by decide +kernel⟩

theorem test_wit_page_life_completes_pgCtrlDrain : ∃ (req : Requester) (page : Nat) (s : State), page ≠ pFC ∧ s.writable req page = true ∧ (s.setFld page 0x008 1 1 1).pg page = .service :=
  ⟨.steward, pHD, State.reset.setNum pHD 0x00C 2, by decide +kernel⟩

theorem test_wit_page_life_completes_pgCtrlDrain2 : ∃ (req : Requester) (page : Nat) (s : State), page ≠ pFC ∧ s.writable req page = true :=
  ⟨.steward, 0, State.reset, by decide +kernel⟩

theorem test_wit_page_life_completes_pgCtrlDrill : ∃ (req : Requester) (page : Nat) (s : State), page ≠ pFC ∧ s.writable req page = true :=
  ⟨.steward, 0, State.reset, by decide +kernel⟩

theorem test_wit_page_life_completes_pgCtrlDrill2 : ∃ (req : Requester) (page : Nat) (s : State), page ≠ pFC ∧ s.writable req page = true ∧ (s.setFld page 0x008 2 2 0).pg page = .drill :=
  ⟨.steward, pHD, State.reset.setNum pHD 0x00C 4, by decide +kernel⟩

theorem test_wit_page_life_completes_resetReq : ∃ (req : Requester) (page : Nat) (s : State), s.writable req page = true ∧ s.lossOrRestore = false ∧ neverReset page = false ∧ s.arch.chipDue = none ∧ 2 ≤ page ∧ s.resettable page = true :=
  ⟨.steward, pRG 0, wReg (pRG 0) 0x00C 2, by decide +kernel⟩

theorem test_wit_page_life_completes_resetReq2 : ∃ (req : Requester) (page : Nat) (s : State), s.writable req page = true ∧ s.lossOrRestore = false ∧ neverReset page = false ∧ s.arch.chipDue = none ∧ page < 2 :=
  ⟨.steward, pHD, State.reset, by decide +kernel⟩

theorem test_wit_page_life_completes_bypassReq : ∃ (req : Requester) (region : Nat) (s : State), region < 4 ∧ s.writable req (pRG region) = true ∧ s.pg (pRG region) = .service ∧ s.ownSequence region = false ∧ s.twinHealthy = true :=
  ⟨.steward, 0, wTwin (wReg (pRG 0) 0x00C 2), by decide +kernel⟩

theorem test_wit_page_life_completes_bypassReq2 : ∃ (req : Requester) (region : Nat) (s : State), region < 4 ∧ s.writable req (pRG region) = true ∧ s.pg (pRG region) = .service ∧ s.ownSequence region = true :=
  ⟨.steward, 0, { wReg (pRG 0) 0x00C 2 with dram.trains := [(0, { kind := .retrain, phase := .quiesce, step := 0, channels := 0, speed := 0, stalled := false })] }, by decide +kernel⟩

theorem test_wit_page_life_completes_bypassEnd : ∃ (req : Requester) (region : Nat) (s : State), region < 4 ∧ s.writable req (pRG region) = true ∧ (s.region region).bypass = some .runtime :=
  ⟨.steward, 0, State.reset.setRegion 0 { bypass := some .runtime }, by decide +kernel⟩

theorem test_wit_page_life_completes_bypassOpDone : ∃ (region : Nat) (s : State), s.pg (pRG region) = .bypass ∧ (s.region region).opRuns = true :=
  ⟨0, (wReg (pRG 0) 0x00C 7).setRegion 0 { opRuns := true }, by decide +kernel⟩

theorem test_wit_page_life_completes_bypassOpDone2 : ∃ (region : Nat) (s : State), s.pg (pRG region) = .bypass ∧ (s.region region).opRuns = true :=
  ⟨0, (wReg (pRG 0) 0x00C 7).setRegion 0 { opRuns := true }, by decide +kernel⟩

theorem test_wit_page_life_completes_startUpDone : ∃ (page : Nat) (s : State), s.pg page = .starting ∧ pageType page ≠ some 0x08 ∧ pageType page ≠ some 0x4C :=
  ⟨pHD, wReg pHD 0x00C 1, by decide +kernel⟩

theorem test_wit_page_life_completes_startUpDone2 : ∃ (page : Nat) (s : State), s.pg page = .starting ∧ pageType page = some 0x4C :=
  ⟨pXT 0, wReg (pXT 0) 0x00C 1, by decide +kernel⟩

theorem test_wit_page_life_completes_startUpDone3 : ∃ (page : Nat) (s : State), s.pg page = .starting ∧ pageType page = some 0x08 ∧ s.restoring (page - 0x10) = false ∧ s.engineFailed (page - 0x10) = false :=
  ⟨pRG 0, wReg (pRG 0) 0x00C 1, by decide +kernel⟩

theorem test_wit_page_life_completes_drainDone : ∃ (page : Nat) (s : State), s.pg page = .draining ∧ bit (s.reg page 0x008) 2 = true ∧ pageType page ≠ some 0x21 ∧ pageType page ≠ some 0x20 :=
  ⟨pHD, (wReg pHD 0x00C 3).setNum pHD 0x008 4, by decide +kernel⟩

theorem test_wit_page_life_completes_drainDone2 : ∃ (page : Nat) (s : State), s.pg page = .draining ∧ bit (s.reg page 0x008) 2 = false ∧ pageType page ≠ some 0x21 ∧ pageType page ≠ some 0x20 :=
  ⟨pHD, (wReg pHD 0x00C 3), by decide +kernel⟩

theorem test_wit_page_life_completes_drainTimeout : ∃ (page : Nat) (s : State), s.pg page = .draining ∧ (s.pageInfo page).drainExpired = false :=
  ⟨pHD, (wReg pHD 0x00C 3), by decide +kernel⟩

/-! BistAndFunctionResetsComplete -/

theorem test_wit_bist_and_function_resets_complete_pageBistDone : ∃ (page op : Nat) (s : State), KM.get s.host.bistRuns page = some op ∧ page < pSC 0 :=
  ⟨pHD, 1, { State.reset with host.bistRuns := [(pHD, 1)] }, by decide +kernel⟩

theorem test_wit_bist_and_function_resets_complete_perstN : ∃ (link : Nat) (s : State), link < 2 ∧ bit (s.reg pPKG 0x058) 0 = true :=
  ⟨0, wReg pPKG 0x058 1, by decide +kernel⟩

theorem test_wit_bist_and_function_resets_complete_perstN2 : ∃ (link : Nat) (s : State), link < 2 ∧ bit (s.reg pPKG 0x058) 0 = false :=
  ⟨0, wReg pPKG 0x058 0, by decide +kernel⟩

theorem test_wit_bist_and_function_resets_complete_bar0NarrowAccess : ∃ (offset width : Nat), (width ≠ 4 ∧ width ≠ 8 ∨ offset % width ≠ 0) :=
  ⟨0, 2, by decide +kernel⟩

theorem test_wit_bist_and_function_resets_complete_registerWrite : ∃ (addr : Nat), addr % 4 = 0 :=
  ⟨0, by decide +kernel⟩

theorem test_wit_bist_and_function_resets_complete_eventFire : ∃ (page ty : Nat), pageType page = some ty :=
  ⟨pHD, 1, by decide +kernel⟩

theorem test_wit_bist_and_function_resets_complete_evStatusWrite : ∃ (req : Requester) (page ty : Nat) (s : State), s.writable req page = true ∧ pageType page = some ty :=
  ⟨.steward, pHD, 1, State.reset, by decide +kernel⟩

theorem test_wit_bist_and_function_resets_complete_evFirstWrite : ∃ (req : Requester) (page : Nat) (data : Word) (s : State), s.writable req page = true ∧ bit data 31 = true :=
  ⟨.steward, pHD, 0x80000000, State.reset, by decide +kernel⟩

theorem test_wit_bist_and_function_resets_complete_evInjectWrite : ∃ (req : Requester) (page : Nat) (data : Word) (g : Nat) (s : State), s.writable req page = true ∧ KM.get s.host.grants page = some g ∧ s.pg page = .drill ∧ data &&& ~~~(BitVec.ofNat 32 g) = 0 :=
  ⟨.steward, pHD, 1, 1, { wReg pHD 0x00C 4 with host.grants := [(pHD, 1)] }, by decide +kernel⟩

/-! LocksResultsAndQueuesComplete -/

theorem test_wit_locks_results_and_queues_complete_pgLockWrite : ∃ (page : Nat) (s : State), (pageType page).isSome = true ∧ s.absent page = false ∧ bit (s.reg page 0x02C) 31 = false :=
  ⟨pHD, State.reset, by decide +kernel⟩

theorem test_wit_locks_results_and_queues_complete_pgLockWrite2 : ∃ (req : Requester) (page : Nat) (s : State), (pageType page).isSome = true ∧ s.absent page = false ∧ bit (s.reg page 0x02C) 31 = true ∧ s.fld page 0x02C 17 16 = reqCode req :=
  ⟨.pf0, pHD, wReg pHD 0x02C 0x80010001, by decide +kernel⟩

theorem test_wit_locks_results_and_queues_complete_resultAckWrite : ∃ (req : Requester) (page off h : Nat) (s : State), s.writable req page = true ∧ ackHeader ((pageType page).getD 0xFF) off = some h :=
  ⟨.steward, pTC, 0x054, 0x048, State.reset, by decide +kernel⟩

theorem test_wit_locks_results_and_queues_complete_aqEnableSet : ∃ (fn : Fn) (data : Word) (s : State), s.writable (fnReq fn) 0x004C = true ∧ bit (s.reg (pPX fn) 0x050) 31 = false ∧ bits data 27 16 ≠ 0 ∧ bits data 11 0 ≠ 0 ∧ s.reg64 (pPX fn) 0x040 0x044 % 4096 = 0 ∧ s.reg64 (pPX fn) 0x048 0x04C % 4096 = 0 :=
  ⟨.pf0, 0x800F000F, State.reset, by decide +kernel⟩

theorem test_wit_locks_results_and_queues_complete_aqEnableClear : ∃ (fn : Fn) (s : State), s.writable (fnReq fn) 0x004C = true ∧ bit (s.reg (pPX fn) 0x050) 31 = true :=
  ⟨.pf0, wReg (pPX .pf0) 0x050 0x80000000, by decide +kernel⟩

theorem test_wit_locks_results_and_queues_complete_aqEnableClear2 : ∃ (fn : Fn) (s : State), s.writable (fnReq fn) 0x004C = true ∧ bit (s.reg (pPX fn) 0x050) 31 = false :=
  ⟨.pf0, State.reset, by decide +kernel⟩

theorem test_wit_locks_results_and_queues_complete_sqTailDoorbell : ∃ (fn : Fn) (q : Nat) (data : Word) (a : AdminQ) (s : State), q < 32 ∧ s.writable (fnReq fn) 0x004C = true ∧ s.aq fn q = some a ∧ a.halted = false ∧ bits data 11 0 < a.sqSize :=
  ⟨.pf0, 0, 0, aq0, wAq, by decide +kernel⟩

theorem test_wit_locks_results_and_queues_complete_sqTailDoorbell2 : ∃ (fn : Fn) (q : Nat) (data : Word) (a : AdminQ) (s : State), q < 32 ∧ s.writable (fnReq fn) 0x004C = true ∧ s.aq fn q = some a ∧ a.halted = false ∧ a.sqSize ≤ bits data 11 0 :=
  ⟨.pf0, 0, 0xFFF, aq0, wAq, by decide +kernel⟩

theorem test_wit_locks_results_and_queues_complete_cqHeadDoorbell : ∃ (fn : Fn) (q : Nat) (data : Word) (a : AdminQ) (s : State), q < 32 ∧ s.writable (fnReq fn) 0x004C = true ∧ s.aq fn q = some a ∧ bits data 11 0 < a.cqSize :=
  ⟨.pf0, 0, 0, aq0, wAq, by decide +kernel⟩

theorem test_wit_locks_results_and_queues_complete_sqeFetch : ∃ (fn : Fn) (q : Nat) (c : AdminCmd) (a : AdminQ) (s : State), s.aq fn q = some a ∧ a.halted = false ∧ a.sqHead ≠ a.sqTail ∧ a.full = false ∧ s.pairRuns = true ∧ ((s.stwState = 6 → q = 0)) ∧ c.fn = fn ∧ c.sq = q ∧ s.cidOutstanding fn q c.cid = false ∧ mayStart c s.host.cmds = true :=
  ⟨.pf0, 0, cmd0, { aq0 with sqTail := 1 }, (wAq.setFld pSTW 0x040 31 29 1).setAq .pf0 0 { aq0 with sqTail := 1 }, by decide +kernel⟩

theorem test_wit_locks_results_and_queues_complete_cqePost : ∃ (fn : Fn) (q : Nat) (a : AdminQ) (e : Cqe) (rest : List Cqe) (s : State), s.aq fn q = some a ∧ a.held = e :: rest ∧ a.full = false ∧ bit (s.reg pSTW 0x040) 28 = false ∧ a.coalUs = 0 :=
  ⟨.pf0, 0, { aq0 with held := [cqe0] }, cqe0, [], State.reset.setAq .pf0 0 { aq0 with held := [cqe0] }, by decide +kernel⟩

theorem test_wit_locks_results_and_queues_complete_cqePost2 : ∃ (fn : Fn) (q : Nat) (a : AdminQ) (e : Cqe) (rest : List Cqe) (s : State), s.aq fn q = some a ∧ a.held = e :: rest ∧ a.full = false ∧ bit (s.reg pSTW 0x040) 28 = true ∧ a.coalUs = 0 :=
  ⟨.pf0, 0, { aq0 with held := [cqe0] }, cqe0, [], (wReg pSTW 0x040 0x10000000).setAq .pf0 0 { aq0 with held := [cqe0] }, by decide +kernel⟩

theorem test_wit_locks_results_and_queues_complete_cqStall : ∃ (fn : Fn) (q : Nat) (a : AdminQ) (s : State), s.aq fn q = some a ∧ a.full = true :=
  ⟨.pf0, 0, { aq0 with cqTail := 3 }, State.reset.setAq .pf0 0 { aq0 with cqTail := 3 }, by decide +kernel⟩

theorem test_wit_locks_results_and_queues_complete_apertureBaseWrite : ∃ (fn : Fn) (data : Word) (s : State), s.writable (fnReq fn) 0x004C = true ∧ (s.setReg (pPX fn) 0x058 (setBits 0 31 30 (bits data 31 30))).aperture fn + 2 ^ 36 ≤ s.loftTop :=
  ⟨.pf0, 0, State.reset, by decide +kernel⟩

theorem test_wit_locks_results_and_queues_complete_apertureBaseWrite2 : ∃ (fn : Fn) (data : Word) (s : State), s.writable (fnReq fn) 0x004C = true ∧ (s.setNum (pPX fn) 0x05C (bits data 16 0)).aperture fn + 2 ^ 36 ≤ s.loftTop :=
  ⟨.pf0, 0, State.reset, by decide +kernel⟩

theorem test_wit_locks_results_and_queues_complete_bar2Read : ∃ (addr len : Nat), addr + len ≤ 2 ^ 36 ∧ len ≠ 0 :=
  ⟨0, 1, by decide +kernel⟩

theorem test_wit_locks_results_and_queues_complete_bar2Write : ∃ (fn : Fn) (addr : Nat) (data : List Byte) (s : State), data ≠ [] ∧ data.length ≤ 16384 ∧ addr + data.length ≤ 2 ^ 36 ∧ s.listBase ≤ s.aperture fn + addr ∧ s.aperture fn + addr + data.length ≤ s.loftTop ∧ s.listBound (s.aperture fn + addr) data.length = false :=
  ⟨.pf0, 0xC0000000, [1], wReg (pPX .pf0) 0x05C 0xBD5, by decide +kernel⟩

/-! AdminPagesAndQueuesComplete -/

theorem test_wit_admin_pages_and_queues_complete_nop : ∃ (c : AdminCmd) (s : State), s.admits 0x00 c = true :=
  ⟨cmd0, wAdm 0x00 (cmd0) (id), by decide +kernel⟩

theorem test_wit_admin_pages_and_queues_complete_invalidOpcode : ∃ (op : Nat) (c : AdminCmd) (s u : State), s.admits op c = true ∧ s.begun op c = u ∧ op ∉ knownOps :=
  ⟨0x7F, cmd0, wAdm 0x7F cmd0 id, (wAdm 0x7F cmd0 id).begun 0x7F cmd0, by decide +kernel, rfl, by decide +kernel⟩

theorem test_wit_admin_pages_and_queues_complete_createQp : ∃ (c : AdminCmd) (s u : State), s.admits 0x01 c = true ∧ s.begun 0x01 c = u ∧ 1 ≤ c.target ∧ c.target ≤ 31 ∧ c.p4 % 4096 ≠ 0 ∧ 1 ≤ c.p4 / 65536 ∧ c.p4 / 65536 ≤ 4095 ∧ c.p4 / 4096 % 16 = 0 ∧ (c.p0 + 2 ^ 32 * c.p1) % 4096 = 0 ∧ (c.p2 + 2 ^ 32 * c.p3) % 4096 = 0 ∧ c.p5.testBit 31 = true ∧ c.p5 - 2 ^ 31 ≤ 2047 ∧ c.p6 ≤ 65535 ∧ u.aq c.fn c.target = none :=
  ⟨{ cmd0 with target := 1, p4 := 0x00100010, p5 := 0x80000000 }, wAdm 0x01 ({ cmd0 with target := 1, p4 := 0x00100010, p5 := 0x80000000 }) (id), (wAdm 0x01 ({ cmd0 with target := 1, p4 := 0x00100010, p5 := 0x80000000 }) (id)).begun 0x01 ({ cmd0 with target := 1, p4 := 0x00100010, p5 := 0x80000000 }), by decide +kernel, rfl, by decide +kernel⟩

theorem test_wit_admin_pages_and_queues_complete_deleteQp : ∃ (c : AdminCmd) (s u : State), s.admits 0x02 c = true ∧ s.begun 0x02 c = u ∧ 1 ≤ c.target ∧ c.target ≤ 31 ∧ (u.aq c.fn c.target).isSome = true :=
  ⟨{ cmd0 with target := 1 }, wAdm 0x02 ({ cmd0 with target := 1 }) (fun s => s.setAq .pf0 1 aq0), (wAdm 0x02 ({ cmd0 with target := 1 }) (fun s => s.setAq .pf0 1 aq0)).begun 0x02 ({ cmd0 with target := 1 }), by decide +kernel, rfl, by decide +kernel⟩

theorem test_wit_admin_pages_and_queues_complete_abort : ∃ (c : AdminCmd) (s u : State), s.admits 0x03 c = true ∧ s.begun 0x03 c = u ∧ c.p1 ≤ 31 ∧ u.host.cmds.find? (abortable c) = none :=
  ⟨cmd0, wAdm 0x03 (cmd0) (id), (wAdm 0x03 (cmd0) (id)).begun 0x03 (cmd0), by decide +kernel, rfl, by decide +kernel⟩

theorem test_wit_admin_pages_and_queues_complete_abort2 : ∃ (c : AdminCmd) (o : Outstanding) (s u : State), s.admits 0x03 c = true ∧ s.begun 0x03 c = u ∧ c.p1 ≤ 31 ∧ u.host.cmds.find? (abortable c) = some o :=
  ⟨cmd0, wOut, wThen wOut (wAdm 0x03 cmd0 id), (wThen wOut (wAdm 0x03 cmd0 id)).begun 0x03 cmd0, by decide +kernel, rfl, by decide +kernel⟩

theorem test_wit_admin_pages_and_queues_complete_getChallenge : ∃ (c : AdminCmd) (s u : State), s.admits 0x04 c = true ∧ s.begun 0x04 c = u ∧ u.drbgStopped = false :=
  ⟨cmd0, wAdm 0x04 (cmd0) (id), (wAdm 0x04 (cmd0) (id)).begun 0x04 (cmd0), by decide +kernel, rfl, by decide +kernel⟩

theorem test_wit_admin_pages_and_queues_complete_identify : ∃ (c : AdminCmd) (s u : State), s.admits 0x05 c = true ∧ s.begun 0x05 c = u ∧ properLen c ≠ 0 ∧ c.dataAddr ≠ 0 :=
  ⟨{ cmd0 with dataLen := 64, dataAddr := 64 }, wAdm 0x05 ({ cmd0 with dataLen := 64, dataAddr := 64 }) (id), (wAdm 0x05 ({ cmd0 with dataLen := 64, dataAddr := 64 }) (id)).begun 0x05 ({ cmd0 with dataLen := 64, dataAddr := 64 }), by decide +kernel, rfl, by decide +kernel⟩

theorem test_wit_admin_pages_and_queues_complete_setVector : ∃ (c : AdminCmd) (s u : State), s.admits 0x06 c = true ∧ s.begun 0x06 c = u ∧ u.realPage c.target = true ∧ 64 ≤ c.p0 ∧ c.p0 ≤ 2047 ∧ u.cmdLocked c c.target = false ∧ c.target ≠ pFC :=
  ⟨{ cmd0 with target := pHD, p0 := 64 }, wAdm 0x06 ({ cmd0 with target := pHD, p0 := 64 }) (id), (wAdm 0x06 ({ cmd0 with target := pHD, p0 := 64 }) (id)).begun 0x06 ({ cmd0 with target := pHD, p0 := 64 }), by decide +kernel, rfl, by decide +kernel⟩

theorem test_wit_admin_pages_and_queues_complete_runBist : ∃ (c : AdminCmd) (s u : State), s.admits 0x07 c = true ∧ s.begun 0x07 c = u ∧ u.realPage c.target = true ∧ u.cmdLocked c c.target = false ∧ u.pg c.target = .failed ∧ u.flushing = false :=
  ⟨{ cmd0 with target := pHD }, wAdm 0x07 ({ cmd0 with target := pHD }) (fun s => s.setNum pHD 0x00C 6), (wAdm 0x07 ({ cmd0 with target := pHD }) (fun s => s.setNum pHD 0x00C 6)).begun 0x07 ({ cmd0 with target := pHD }), by decide +kernel, rfl, by decide +kernel⟩

theorem test_wit_admin_pages_and_queues_complete_clearCounts : ∃ (c : AdminCmd) (s u : State), s.admits 0x08 c = true ∧ s.begun 0x08 c = u ∧ u.realPage c.target = true ∧ u.cmdLocked c c.target = false ∧ c.target ≠ pTC :=
  ⟨authCmd 0x08 ({ cmd0 with target := pHD }), wAuth 0x08 ({ cmd0 with target := pHD }) (id), wBegun 0x08 ({ cmd0 with target := pHD }) (id), admits_wAuth 0x08 ({ cmd0 with target := pHD }) (id) (by decide +kernel), begun_wAuth 0x08 ({ cmd0 with target := pHD }) (id) (by decide +kernel), by decide +kernel⟩

theorem test_wit_admin_pages_and_queues_complete_lockBreak : ∃ (c : AdminCmd) (s u : State), s.admits 0x09 c = true ∧ s.begun 0x09 c = u ∧ u.realPage c.target = true :=
  ⟨authCmd 0x09 ({ cmd0 with target := pHD }), wAuth 0x09 ({ cmd0 with target := pHD }) (id), wBegun 0x09 ({ cmd0 with target := pHD }) (id), admits_wAuth 0x09 ({ cmd0 with target := pHD }) (id) (by decide +kernel), begun_wAuth 0x09 ({ cmd0 with target := pHD }) (id) (by decide +kernel), by decide +kernel⟩

theorem test_wit_admin_pages_and_queues_complete_drillAuth : ∃ (c : AdminCmd) (s u : State), s.admits 0x0A c = true ∧ s.begun 0x0A c = u ∧ u.realPage c.target = true ∧ neverDrills c.target = false ∧ ((bitList c.p0 32).any fun i => !(definedSources ((pageType c.target).getD 0xFF)).testBit i) = false ∧ u.cmdLocked c c.target = false ∧ u.pg c.target = .drill :=
  ⟨authCmd 0x0A ({ cmd0 with target := pHD }), wAuth 0x0A ({ cmd0 with target := pHD }) (fun s => s.setNum pHD 0x00C 4), wBegun 0x0A ({ cmd0 with target := pHD }) (fun s => s.setNum pHD 0x00C 4), admits_wAuth 0x0A ({ cmd0 with target := pHD }) (fun s => s.setNum pHD 0x00C 4) (by decide +kernel), begun_wAuth 0x0A ({ cmd0 with target := pHD }) (fun s => s.setNum pHD 0x00C 4) (by decide +kernel), by decide +kernel⟩

theorem test_wit_admin_pages_and_queues_complete_journalRead : ∃ (c : AdminCmd) (s u : State), s.admits 0x0B c = true ∧ s.begun 0x0B c = u ∧ 64 ≤ properLen c :=
  ⟨{ cmd0 with dataLen := 64 }, wAdm 0x0B ({ cmd0 with dataLen := 64 }) (id), (wAdm 0x0B ({ cmd0 with dataLen := 64 }) (id)).begun 0x0B ({ cmd0 with dataLen := 64 }), by decide +kernel, rfl, by decide +kernel⟩

theorem test_wit_admin_pages_and_queues_complete_resetLevel : ∃ (c : AdminCmd) (s u : State), s.admits 0x0C c = true ∧ s.begun 0x0C c = u ∧ c.p0 = 0 ∧ u.realPage c.target = true ∧ neverReset c.target = false ∧ u.cmdLocked c c.target = false ∧ u.lossOrRestore = false ∧ 2 ≤ c.target ∧ u.resettable c.target = true :=
  ⟨{ cmd0 with target := pRG 0 }, wAdm 0x0C ({ cmd0 with target := pRG 0 }) (fun s => s.setNum (pRG 0) 0x00C 2), (wAdm 0x0C ({ cmd0 with target := pRG 0 }) (fun s => s.setNum (pRG 0) 0x00C 2)).begun 0x0C ({ cmd0 with target := pRG 0 }), by decide +kernel, rfl, by decide +kernel⟩

theorem test_wit_admin_pages_and_queues_complete_resetPowerCycle : ∃ (c : AdminCmd) (s u : State), s.admits 0x0C c = true ∧ s.begun 0x0C c = u ∧ c.p0 = 1 ∧ u.powerCmd c = none :=
  ⟨{ cmd0 with p0 := 1 }, wAdm 0x0C ({ cmd0 with p0 := 1 }) (fun s => s.setFld pSEQ 0x04C 31 28 15), (wAdm 0x0C ({ cmd0 with p0 := 1 }) (fun s => s.setFld pSEQ 0x04C 31 28 15)).begun 0x0C ({ cmd0 with p0 := 1 }), by decide +kernel, rfl, by decide +kernel⟩

theorem test_wit_admin_pages_and_queues_complete_resetPowerDown : ∃ (c : AdminCmd) (s u : State), s.admits 0x0C c = true ∧ s.begun 0x0C c = u ∧ c.p0 = 2 ∧ u.powerCmd c = none :=
  ⟨{ cmd0 with p0 := 2 }, wAdm 0x0C ({ cmd0 with p0 := 2 }) (fun s => s.setFld pSEQ 0x04C 31 28 15), (wAdm 0x0C ({ cmd0 with p0 := 2 }) (fun s => s.setFld pSEQ 0x04C 31 28 15)).begun 0x0C ({ cmd0 with p0 := 2 }), by decide +kernel, rfl, by decide +kernel⟩

/-! TenantsAndWindowsComplete -/

theorem test_wit_tenants_and_windows_complete_tenantCreate : ∃ (c : AdminCmd) (t s u : State), s.admits 0x10 c = true ∧ s.begun 0x10 c = u ∧ 1 ≤ c.target ∧ c.target ≤ 4095 ∧ KM.get u.win.tenants c.target = none ∧ u.drbgStopped = false ∧ u.classD = false ∧ u.makeTenant c.target c.p0 false = some t :=
  ⟨{ cmd0 with target := 1 }, (((wAdm 0x10 ({ cmd0 with target := 1 }) (id)).begun 0x10 ({ cmd0 with target := 1 })).makeTenant 1 0 false).getD State.reset, wAdm 0x10 ({ cmd0 with target := 1 }) (id), (wAdm 0x10 ({ cmd0 with target := 1 }) (id)).begun 0x10 ({ cmd0 with target := 1 }), by decide, rfl, by decide, by decide, by decide, by decide, by decide, rfl⟩

theorem test_wit_tenants_and_windows_complete_tenantErase : ∃ (c : AdminCmd) (x : Tenant) (s u : State), s.admits 0x11 c = true ∧ s.begun 0x11 c = u ∧ KM.get u.win.tenants c.target = some x ∧ x.erasing = false ∧ bit (u.reg pPLD 0x044) 8 = false :=
  ⟨authCmd 0x11 ({ cmd0 with target := 1 }), {}, wAuth 0x11 ({ cmd0 with target := 1 }) (fun s => { s with win.tenants := [(1, {})] }), wBegun 0x11 ({ cmd0 with target := 1 }) (fun s => { s with win.tenants := [(1, {})] }), admits_wAuth 0x11 ({ cmd0 with target := 1 }) (fun s => { s with win.tenants := [(1, {})] }) (by decide +kernel), begun_wAuth 0x11 ({ cmd0 with target := 1 }) (fun s => { s with win.tenants := [(1, {})] }) (by decide +kernel), by decide +kernel⟩

theorem test_wit_tenants_and_windows_complete_windowCreate : ∃ (c : AdminCmd) (k i id : Nat) (pages : List (Nat × Nat)) (s u : State), s.admits 0x12 c = true ∧ s.begun 0x12 c = u ∧ c.p0 ≤ 3 ∧ u.tenantExists c.target = true ∧ u.bindCheck c false = (0, k, pages) ∧ u.pickWindow = some i ∧ u.pickObject = some id ∧ u.overQuota c.target = false :=
  ⟨cmdBind, 0, 2, 2, [(0, 2 ^ 34)], wAdm 0x12 (cmdBind) (wList), (wAdm 0x12 (cmdBind) (wList)).begun 0x12 (cmdBind), by decide +kernel, rfl, by decide +kernel⟩

theorem test_wit_tenants_and_windows_complete_objectCreate : ∃ (c : AdminCmd) (k id : Nat) (pages : List (Nat × Nat)) (s u : State), s.admits 0x15 c = true ∧ s.begun 0x15 c = u ∧ c.p4 ≤ 3 ∧ c.p4.testBit 1 = false ∧ u.tenantExists c.target = true ∧ u.bindCheck c false = (0, k, pages) ∧ u.pickObject = some id :=
  ⟨cmdBind, 0, 2, [(0, 2 ^ 34)], wAdm 0x15 (cmdBind) (wList), (wAdm 0x15 (cmdBind) (wList)).begun 0x15 (cmdBind), by decide +kernel, rfl, by decide +kernel⟩

theorem test_wit_tenants_and_windows_complete_objectAlias : ∃ (c : AdminCmd) (i : Nat) (s u : State), s.admits 0x16 c = true ∧ s.begun 0x16 c = u ∧ (u.object c.target).valid = true ∧ (u.object c.target).destroying = false ∧ u.objectHome c.target = true ∧ u.streaming c.target = false ∧ c.p0 ≤ 4095 ∧ c.p1 ≤ 3 ∧ u.tenantExists c.p0 = true ∧ (u.object c.target).gather = false ∧ (u.object c.target).readOnly = false ∧ (u.object c.target).owner = c.p0 ∧ c.p3 ≠ 0 ∧ c.p2 + c.p3 ≤ (u.object c.target).sizePages ∧ u.pickWindow = some i ∧ u.overQuota c.p0 = false :=
  ⟨{ cmd0 with target := 1, p1 := 1, p3 := 1 }, 2, wAdm 0x16 ({ cmd0 with target := 1, p1 := 1, p3 := 1 }) (wObj), (wAdm 0x16 ({ cmd0 with target := 1, p1 := 1, p3 := 1 }) (wObj)).begun 0x16 ({ cmd0 with target := 1, p1 := 1, p3 := 1 }), by decide +kernel, rfl, by decide +kernel⟩

theorem test_wit_tenants_and_windows_complete_windowRevoke : ∃ (c : AdminCmd) (s u : State), s.admits 0x13 c = true ∧ s.begun 0x13 c = u ∧ c.p0 = 0 ∧ u.checkHome c.target = none :=
  ⟨{ cmd0 with target := 0x101 }, wAdm 0x13 ({ cmd0 with target := 0x101 }) (wWin), (wAdm 0x13 ({ cmd0 with target := 0x101 }) (wWin)).begun 0x13 ({ cmd0 with target := 0x101 }), by decide +kernel, rfl, by decide +kernel⟩

theorem test_wit_tenants_and_windows_complete_windowRevokeObject : ∃ (c : AdminCmd) (s u : State), s.admits 0x13 c = true ∧ s.begun 0x13 c = u ∧ c.p0 = 1 ∧ (u.object c.target).valid = true ∧ (u.object c.target).destroying = false ∧ u.objectHome c.target = true ∧ u.streaming c.target = false ∧ u.gatherBusy (u.object c.target) = false :=
  ⟨{ cmd0 with target := 1, p0 := 1 }, wAdm 0x13 ({ cmd0 with target := 1, p0 := 1 }) (wObj), (wAdm 0x13 ({ cmd0 with target := 1, p0 := 1 }) (wObj)).begun 0x13 ({ cmd0 with target := 1, p0 := 1 }), by decide +kernel, rfl, by decide +kernel⟩

theorem test_wit_tenants_and_windows_complete_revokeLate : ∃ (idx : Nat) (s : State), (s.win.fences.any fun f => decide (f.idx = idx ∧ f.kind = .revoke) && !f.late) = true :=
  ⟨0, { State.reset with win.fences := [{ idx := 0, kind := .revoke, op := 1, since := 0, abandoned := 0, late := false }] }, by decide +kernel⟩

theorem test_wit_tenants_and_windows_complete_windowModify : ∃ (c : AdminCmd) (s u : State), s.admits 0x14 c = true ∧ s.begun 0x14 c = u ∧ u.checkHome c.target = none ∧ c.p0 ≤ 3 ∧ c.p1 ≠ 0 ∧ (u.window (c.target / 256)).firstPage + c.p1 ≤ (u.object (u.window (c.target / 256)).object).sizePages ∧ (u.object (u.window (c.target / 256)).object).readOnly = false ∧ (((u.window (c.target / 256)).write = true → c.p0.testBit 1 = true)) ∧ (((u.window (c.target / 256)).read = true → c.p0.testBit 0 = true)) ∧ (u.window (c.target / 256)).sizePages ≤ c.p1 :=
  ⟨{ cmd0 with target := 0x101, p0 := 3, p1 := 2 }, wAdm 0x14 ({ cmd0 with target := 0x101, p0 := 3, p1 := 2 }) (wWin), (wAdm 0x14 ({ cmd0 with target := 0x101, p0 := 3, p1 := 2 }) (wWin)).begun 0x14 ({ cmd0 with target := 0x101, p0 := 3, p1 := 2 }), by decide +kernel, rfl, by decide +kernel⟩

theorem test_wit_tenants_and_windows_complete_windowModify2 : ∃ (c : AdminCmd) (s u : State), s.admits 0x14 c = true ∧ s.begun 0x14 c = u ∧ u.checkHome c.target = none ∧ c.p0 ≤ 3 ∧ c.p1 ≠ 0 ∧ (u.window (c.target / 256)).firstPage + c.p1 ≤ (u.object (u.window (c.target / 256)).object).sizePages ∧ (u.object (u.window (c.target / 256)).object).readOnly = false ∧ c.p1 < (u.window (c.target / 256)).sizePages :=
  ⟨{ cmd0 with target := 0x101, p0 := 3, p1 := 1 }, wAdm 0x14 ({ cmd0 with target := 0x101, p0 := 3, p1 := 1 }) (wWin), (wAdm 0x14 ({ cmd0 with target := 0x101, p0 := 3, p1 := 1 }) (wWin)).begun 0x14 ({ cmd0 with target := 0x101, p0 := 3, p1 := 1 }), by decide +kernel, rfl, by decide +kernel⟩

/-! WindowHintsAndCachesComplete -/

theorem test_wit_window_hints_and_caches_complete_hintPreload : ∃ (c : AdminCmd) (s u : State), s.admits 0x17 c = true ∧ s.begun 0x17 c = u ∧ c.p0 = 1 ∧ u.checkHandle c.target = none ∧ (u.win.cache.any fun e => e.idx == c.target / 256) = false :=
  ⟨{ cmd0 with target := 0x101, p0 := 1 }, wAdm 0x17 ({ cmd0 with target := 0x101, p0 := 1 }) (fun s => { wWin s with win.cache := [] }), (wAdm 0x17 ({ cmd0 with target := 0x101, p0 := 1 }) (fun s => { wWin s with win.cache := [] })).begun 0x17 ({ cmd0 with target := 0x101, p0 := 1 }), by decide +kernel, rfl, by decide +kernel⟩

theorem test_wit_window_hints_and_caches_complete_hintLock : ∃ (c : AdminCmd) (e : CachedWindow) (s u : State), s.admits 0x17 c = true ∧ s.begun 0x17 c = u ∧ c.p0 = 2 ∧ u.checkHandle c.target = none ∧ (u.win.cache.find? fun e => e.idx == c.target / 256) = some e ∧ e.locked = false ∧ (u.win.cache.filter fun x => x.locked).length < 32 :=
  ⟨{ cmd0 with target := 0x101, p0 := 2 }, { idx := 1, locked := false }, wAdm 0x17 ({ cmd0 with target := 0x101, p0 := 2 }) (wWin), (wAdm 0x17 ({ cmd0 with target := 0x101, p0 := 2 }) (wWin)).begun 0x17 ({ cmd0 with target := 0x101, p0 := 2 }), by decide +kernel, rfl, by decide +kernel⟩

theorem test_wit_window_hints_and_caches_complete_hintUnlock : ∃ (c : AdminCmd) (s u : State), s.admits 0x17 c = true ∧ s.begun 0x17 c = u ∧ c.p0 = 3 ∧ u.checkHandle c.target = none :=
  ⟨{ cmd0 with target := 0x101, p0 := 3 }, wAdm 0x17 ({ cmd0 with target := 0x101, p0 := 3 }) (wWin), (wAdm 0x17 ({ cmd0 with target := 0x101, p0 := 3 }) (wWin)).begun 0x17 ({ cmd0 with target := 0x101, p0 := 3 }), by decide +kernel, rfl, by decide +kernel⟩

theorem test_wit_window_hints_and_caches_complete_hintPinUp : ∃ (c : AdminCmd) (s u : State), s.admits 0x17 c = true ∧ s.begun 0x17 c = u ∧ c.p0 = 4 ∧ u.checkHome c.target = none ∧ c.p2 ≠ 0 ∧ c.p1 + c.p2 ≤ (u.window (c.target / 256)).sizePages :=
  ⟨{ cmd0 with target := 0x101, p0 := 4, p2 := 1 }, wAdm 0x17 ({ cmd0 with target := 0x101, p0 := 4, p2 := 1 }) (wWin), (wAdm 0x17 ({ cmd0 with target := 0x101, p0 := 4, p2 := 1 }) (wWin)).begun 0x17 ({ cmd0 with target := 0x101, p0 := 4, p2 := 1 }), by decide +kernel, rfl, by decide +kernel⟩

theorem test_wit_window_hints_and_caches_complete_hintPinClear : ∃ (c : AdminCmd) (s u : State), s.admits 0x17 c = true ∧ s.begun 0x17 c = u ∧ c.p0 = 5 ∧ u.checkHome c.target = none :=
  ⟨{ cmd0 with target := 0x101, p0 := 5 }, wAdm 0x17 ({ cmd0 with target := 0x101, p0 := 5 }) (wWin), (wAdm 0x17 ({ cmd0 with target := 0x101, p0 := 5 }) (wWin)).begun 0x17 ({ cmd0 with target := 0x101, p0 := 5 }), by decide +kernel, rfl, by decide +kernel⟩

theorem test_wit_window_hints_and_caches_complete_hintReadahead : ∃ (c : AdminCmd) (s u : State), s.admits 0x17 c = true ∧ s.begun 0x17 c = u ∧ c.p0 = 6 ∧ u.checkHandle c.target = none ∧ c.p2 ≠ 0 ∧ c.p2 ≤ 4096 ∧ c.p1 + c.p2 ≤ (u.window (c.target / 256)).sizePages :=
  ⟨{ cmd0 with target := 0x101, p0 := 6, p2 := 1 }, wAdm 0x17 ({ cmd0 with target := 0x101, p0 := 6, p2 := 1 }) (wWin), (wAdm 0x17 ({ cmd0 with target := 0x101, p0 := 6, p2 := 1 }) (wWin)).begun 0x17 ({ cmd0 with target := 0x101, p0 := 6, p2 := 1 }), by decide +kernel, rfl, by decide +kernel⟩

theorem test_wit_window_hints_and_caches_complete_cacheInvalidate : ∃ (c : AdminCmd) (s u : State), s.admits 0x19 c = true ∧ s.begun 0x19 c = u ∧ c.target = 1 ∧ c.p0 ≤ 3 :=
  ⟨{ cmd0 with target := 1 }, wAdm 0x19 ({ cmd0 with target := 1 }) (id), (wAdm 0x19 ({ cmd0 with target := 1 }) (id)).begun 0x19 ({ cmd0 with target := 1 }), by decide +kernel, rfl, by decide +kernel⟩

theorem test_wit_window_hints_and_caches_complete_cacheInvalidate2 : ∃ (c : AdminCmd) (s u : State), s.admits 0x19 c = true ∧ s.begun 0x19 c = u ∧ c.target = 2 ∧ c.p0 ≤ 3 :=
  ⟨{ cmd0 with target := 2 }, wAdm 0x19 ({ cmd0 with target := 2 }) (id), (wAdm 0x19 ({ cmd0 with target := 2 }) (id)).begun 0x19 ({ cmd0 with target := 2 }), by decide +kernel, rfl, by decide +kernel⟩

theorem test_wit_window_hints_and_caches_complete_windowCacheFillDone : ∃ (idx : Nat) (f : WindowFill) (s : State), (s.win.fills.find? fun f => f.idx == idx) = some f ∧ f.stale = false ∧ (s.win.cache.any fun e => e.idx == idx) = false :=
  ⟨1, wFill, { State.reset with win.fills := [wFill] }, by decide +kernel⟩

theorem test_wit_window_hints_and_caches_complete_windowCacheFillDone2 : ∃ (idx : Nat) (f : WindowFill) (s : State), (s.win.fills.find? fun f => f.idx == idx) = some f ∧ f.stale = true ∧ (s.window idx).valid = true ∧ (s.window idx).revoking = false ∧ (s.window idx).gen = f.gen ∧ f.tries < 4 :=
  ⟨1, { wFill with stale := true }, { wWin State.reset with win.fills := [{ wFill with stale := true }] }, by decide +kernel⟩

theorem test_wit_window_hints_and_caches_complete_translationFillDone : ∃ (object page : Nat) (f : TransFill) (s : State), (s.win.transFills.find? fun f => f.object == object && f.page == page) = some f :=
  ⟨0, 0, { object := 0, page := 0, stale := false }, { State.reset with win.transFills := [{ object := 0, page := 0, stale := false }] }, by decide +kernel⟩

/-! MigrationAndScrubComplete -/

theorem test_wit_migration_and_scrub_complete_migratePromote : ∃ (c : AdminCmd) (s u : State), s.admits 0x18 c = true ∧ s.begun 0x18 c = u ∧ (u.object c.target).valid = true ∧ (u.object c.target).destroying = false ∧ c.p2 = 1 ∧ c.p1 ≠ 0 ∧ c.p1 ≤ 4096 ∧ c.p0 + c.p1 ≤ (u.object c.target).sizePages ∧ 8 * c.p1 ≤ (proper c).length ∧ u.objectHome c.target = true ∧ u.streaming c.target = false ∧ (((List.range c.p1).map fun k => leNat (((proper c).drop (8 * k)).take 8)).any fun d => decide (d % 16384 ≠ 0)) = false :=
  ⟨{ cmd0 with target := 1, p1 := 1, p2 := 1, dataLen := 8, data := leBytes 8 0 }, wAdm 0x18 ({ cmd0 with target := 1, p1 := 1, p2 := 1, dataLen := 8, data := leBytes 8 0 }) (wObj), (wAdm 0x18 ({ cmd0 with target := 1, p1 := 1, p2 := 1, dataLen := 8, data := leBytes 8 0 }) (wObj)).begun 0x18 ({ cmd0 with target := 1, p1 := 1, p2 := 1, dataLen := 8, data := leBytes 8 0 }), by decide +kernel, rfl, by decide +kernel⟩

theorem test_wit_migration_and_scrub_complete_migrateDemote : ∃ (c : AdminCmd) (s u : State), s.admits 0x18 c = true ∧ s.begun 0x18 c = u ∧ (u.object c.target).valid = true ∧ (u.object c.target).destroying = false ∧ c.p2 = 2 ∧ c.p1 ≠ 0 ∧ c.p1 ≤ 4096 ∧ c.p0 + c.p1 ≤ (u.object c.target).sizePages ∧ 8 * c.p1 ≤ (proper c).length ∧ u.objectHome c.target = true ∧ u.streaming c.target = false ∧ (((List.range c.p1).map fun k => leNat (((proper c).drop (8 * k)).take 8)).any fun d => decide (d % 16384 ≠ 0)) = false :=
  ⟨{ cmd0 with target := 1, p1 := 1, p2 := 2, dataLen := 8, data := leBytes 8 0 }, wAdm 0x18 ({ cmd0 with target := 1, p1 := 1, p2 := 2, dataLen := 8, data := leBytes 8 0 }) (wObj), (wAdm 0x18 ({ cmd0 with target := 1, p1 := 1, p2 := 2, dataLen := 8, data := leBytes 8 0 }) (wObj)).begun 0x18 ({ cmd0 with target := 1, p1 := 1, p2 := 2, dataLen := 8, data := leBytes 8 0 }), by decide +kernel, rfl, by decide +kernel⟩

theorem test_wit_migration_and_scrub_complete_migrateCopyRoundDone : ∃ (op : Nat) (m : Migration) (i dest : Nat) (r : Bool) (rest : List (Nat × Nat × Bool)) (d : KMap Byte) (s : State), s.migration op = some m ∧ m.work = (i, dest, r) :: rest ∧ m.phase = .copy ∧ s.pageData m.source = some (d, []) ∧ m.lines ≠ [] :=
  ⟨1, { wMig with lines := [0] }, 0, 5, false, [], [], { (wObj State.reset).setMap (2 ^ 34) { state := .empty } with win.migrations := [{ wMig with lines := [0] }] }, by decide +kernel⟩

theorem test_wit_migration_and_scrub_complete_migrateCopyRoundDone2 : ∃ (op : Nat) (m : Migration) (i dest : Nat) (r : Bool) (rest : List (Nat × Nat × Bool)) (d : KMap Byte) (s : State), s.migration op = some m ∧ m.work = (i, dest, r) :: rest ∧ m.phase = .copy ∧ s.pageData m.source = some (d, []) ∧ m.lines = [] :=
  ⟨1, wMig, 0, 5, false, [], [], { (wObj State.reset).setMap (2 ^ 34) { state := .empty } with win.migrations := [wMig] }, by decide +kernel⟩

theorem test_wit_migration_and_scrub_complete_migrateSwitchConfirmed : ∃ (op : Nat) (m : Migration) (i dest : Nat) (r : Bool) (rest : List (Nat × Nat × Bool)) (s : State), s.migration op = some m ∧ m.work = (i, dest, r) :: rest ∧ m.phase = .switching ∧ s.appliedTo m.switchMseq = true :=
  ⟨1, { wMig with phase := .switching }, 0, 5, false, [], { (wObj State.reset).setMap (2 ^ 34) { state := .empty } with win.migrations := [{ wMig with phase := .switching }] }, by decide +kernel⟩

theorem test_wit_migration_and_scrub_complete_migrateStallLimit : ∃ (op : Nat) (m : Migration) (i dest : Nat) (r : Bool) (rest : List (Nat × Nat × Bool)) (s : State), s.migration op = some m ∧ m.work = (i, dest, r) :: rest ∧ m.phase = .stalled :=
  ⟨1, { wMig with phase := .stalled }, 0, 5, false, [], { (wObj State.reset).setMap (2 ^ 34) { state := .empty } with win.migrations := [{ wMig with phase := .stalled }] }, by decide +kernel⟩

theorem test_wit_migration_and_scrub_complete_moverZeroFillDone : ∃ (page : Nat) (s : State), (s.mapOf page).state = .scrubbing ∧ isCellar page = false :=
  ⟨0, State.reset.setMap 0 { state := .scrubbing }, by decide +kernel⟩

/-! QueuePairsAndPlanesComplete -/

theorem test_wit_queue_pairs_and_planes_complete_qpCreate : ∃ (c : AdminCmd) (e : Peer) (s u : State), s.admits 0x20 c = true ∧ s.begun 0x20 c = u ∧ 1 ≤ c.target ∧ c.target ≤ 1048575 ∧ c.p0 % 4096 ≠ 0 ∧ u.tenantExists (c.p0 % 4096) = true ∧ u.peer (c.p0 / 4096 % 4096) = some e ∧ e.planeEn ≠ 0 ∧ c.p1 / 2 ^ 20 % 256 ≠ 0 ∧ ((c.p0.testBit 24 = true → c.p6 % 8192 ≠ 0)) ∧ clearBits c.p0 0xFC000000 = true ∧ clearBits c.p1 0xF0000000 = true ∧ clearBits c.p5 0xC000 = true ∧ clearBits c.p6 0xE000E000 = true ∧ clearBits c.p7 0xE000E000 = true ∧ c.p8 < 65536 ∧ c.p9 = 0 ∧ u.sealingSlot (c.p0 % 4096) (c.p6 % 8192) = true ∧ u.sealingSlot (c.p0 % 4096) (c.p6 / 65536 % 8192) = true ∧ u.sealingSlot (c.p0 % 4096) (c.p7 % 8192) = true ∧ u.sealingSlot (c.p0 % 4096) (c.p7 / 65536 % 8192) = true ∧ (u.qp c.target).state = .free :=
  ⟨{ cmd0 with target := 1, p0 := 0x1001, p1 := 0x100000 }, peer0, wAdm 0x20 ({ cmd0 with target := 1, p0 := 0x1001, p1 := 0x100000 }) (wPeer), (wAdm 0x20 ({ cmd0 with target := 1, p0 := 0x1001, p1 := 0x100000 }) (wPeer)).begun 0x20 ({ cmd0 with target := 1, p0 := 0x1001, p1 := 0x100000 }), by decide +kernel, rfl, by decide +kernel⟩

theorem test_wit_queue_pairs_and_planes_complete_qpModifyReady : ∃ (c : AdminCmd) (s u : State), s.admits 0x21 c = true ∧ s.begun 0x21 c = u ∧ 1 ≤ c.target ∧ c.target ≤ 1048575 ∧ c.p0 = 1 ∧ decide ((u.qp c.target).state = .init) = true :=
  ⟨{ cmd0 with target := 1, p0 := 1 }, wAdm 0x21 ({ cmd0 with target := 1, p0 := 1 }) (wQp .init), (wAdm 0x21 ({ cmd0 with target := 1, p0 := 1 }) (wQp .init)).begun 0x21 ({ cmd0 with target := 1, p0 := 1 }), by decide +kernel, rfl, by decide +kernel⟩

theorem test_wit_queue_pairs_and_planes_complete_qpModifyError : ∃ (c : AdminCmd) (s u : State), s.admits 0x21 c = true ∧ s.begun 0x21 c = u ∧ 1 ≤ c.target ∧ c.target ≤ 1048575 ∧ c.p0 = 2 ∧ decide ((u.qp c.target).state = .ready) = true :=
  ⟨{ cmd0 with target := 1, p0 := 2 }, wAdm 0x21 ({ cmd0 with target := 1, p0 := 2 }) (wQp .ready), (wAdm 0x21 ({ cmd0 with target := 1, p0 := 2 }) (wQp .ready)).begun 0x21 ({ cmd0 with target := 1, p0 := 2 }), by decide +kernel, rfl, by decide +kernel⟩

theorem test_wit_queue_pairs_and_planes_complete_qpModifyReset : ∃ (c : AdminCmd) (s u : State), s.admits 0x21 c = true ∧ s.begun 0x21 c = u ∧ 1 ≤ c.target ∧ c.target ≤ 1048575 ∧ c.p0 = 3 ∧ decide ((u.qp c.target).state = .error) = true ∧ (u.qp c.target).openMsgs = 0 :=
  ⟨{ cmd0 with target := 1, p0 := 3 }, wAdm 0x21 ({ cmd0 with target := 1, p0 := 3 }) (wQp .error), (wAdm 0x21 ({ cmd0 with target := 1, p0 := 3 }) (wQp .error)).begun 0x21 ({ cmd0 with target := 1, p0 := 3 }), by decide +kernel, rfl, by decide +kernel⟩

theorem test_wit_queue_pairs_and_planes_complete_qpModifyPaths : ∃ (c : AdminCmd) (s u : State), s.admits 0x21 c = true ∧ s.begun 0x21 c = u ∧ 1 ≤ c.target ∧ c.target ≤ 1048575 ∧ c.p0 = 4 ∧ liveQp (u.qp c.target).state = true ∧ c.p1 / 2 ^ 20 % 256 ≠ 0 ∧ clearBits c.p1 0xF00FC000 = true :=
  ⟨{ cmd0 with target := 1, p0 := 4, p1 := 0x100000 }, wAdm 0x21 ({ cmd0 with target := 1, p0 := 4, p1 := 0x100000 }) (wQp .ready), (wAdm 0x21 ({ cmd0 with target := 1, p0 := 4, p1 := 0x100000 }) (wQp .ready)).begun 0x21 ({ cmd0 with target := 1, p0 := 4, p1 := 0x100000 }), by decide +kernel, rfl, by decide +kernel⟩

theorem test_wit_queue_pairs_and_planes_complete_qpModifyKeysel : ∃ (c : AdminCmd) (s u : State), s.admits 0x21 c = true ∧ s.begun 0x21 c = u ∧ 1 ≤ c.target ∧ c.target ≤ 1048575 ∧ c.p0 = 5 ∧ liveQp (u.qp c.target).state = true ∧ c.p1 ≤ 1 :=
  ⟨{ cmd0 with target := 1, p0 := 5 }, wAdm 0x21 ({ cmd0 with target := 1, p0 := 5 }) (wQp .ready), (wAdm 0x21 ({ cmd0 with target := 1, p0 := 5 }) (wQp .ready)).begun 0x21 ({ cmd0 with target := 1, p0 := 5 }), by decide +kernel, rfl, by decide +kernel⟩

theorem test_wit_queue_pairs_and_planes_complete_qpModifySync : ∃ (c : AdminCmd) (s u : State), s.admits 0x21 c = true ∧ s.begun 0x21 c = u ∧ 1 ≤ c.target ∧ c.target ≤ 1048575 ∧ c.p0 = 6 ∧ liveQp (u.qp c.target).state = true :=
  ⟨{ cmd0 with target := 1, p0 := 6 }, wAdm 0x21 ({ cmd0 with target := 1, p0 := 6 }) (wQp .ready), (wAdm 0x21 ({ cmd0 with target := 1, p0 := 6 }) (wQp .ready)).begun 0x21 ({ cmd0 with target := 1, p0 := 6 }), by decide +kernel, rfl, by decide +kernel⟩

theorem test_wit_queue_pairs_and_planes_complete_qpModifyAcks : ∃ (c : AdminCmd) (s u : State), s.admits 0x21 c = true ∧ s.begun 0x21 c = u ∧ 1 ≤ c.target ∧ c.target ≤ 1048575 ∧ c.p0 = 7 ∧ liveQp (u.qp c.target).state = true ∧ c.p1 / 2 ^ 24 ≠ 0 ∧ c.p1 / 65536 % 256 ≠ 0 ∧ c.p1 % 65536 = 0 :=
  ⟨{ cmd0 with target := 1, p0 := 7, p1 := 0x01010000 }, wAdm 0x21 ({ cmd0 with target := 1, p0 := 7, p1 := 0x01010000 }) (wQp .ready), (wAdm 0x21 ({ cmd0 with target := 1, p0 := 7, p1 := 0x01010000 }) (wQp .ready)).begun 0x21 ({ cmd0 with target := 1, p0 := 7, p1 := 0x01010000 }), by decide +kernel, rfl, by decide +kernel⟩

theorem test_wit_queue_pairs_and_planes_complete_qpDestroy : ∃ (c : AdminCmd) (s u : State), s.admits 0x22 c = true ∧ s.begun 0x22 c = u ∧ 1 ≤ c.target ∧ c.target ≤ 1048575 ∧ liveQp (u.qp c.target).state = true :=
  ⟨{ cmd0 with target := 1 }, wAdm 0x22 ({ cmd0 with target := 1 }) (wQp .ready), (wAdm 0x22 ({ cmd0 with target := 1 }) (wQp .ready)).begun 0x22 ({ cmd0 with target := 1 }), by decide +kernel, rfl, by decide +kernel⟩

theorem test_wit_queue_pairs_and_planes_complete_peerSet : ∃ (c : AdminCmd) (s u : State), s.admits 0x23 c = true ∧ s.begun 0x23 c = u ∧ c.target ≤ 4095 ∧ 256 ≤ properLen c ∧ 256 ≤ (proper c).length ∧ leNat (((proper c).drop 176).take 4) ≤ 255 ∧ leNat (((proper c).drop 180).take 4) < 2 ^ 20 ∧ leNat (((proper c).drop 184).take 4) < 2 ^ 20 ∧ ((((proper c).drop 188).take 68).any fun x => x ≠ 0) = false :=
  ⟨{ cmd0 with dataLen := 256, data := List.replicate 256 0 }, wAdm 0x23 ({ cmd0 with dataLen := 256, data := List.replicate 256 0 }) (id), (wAdm 0x23 ({ cmd0 with dataLen := 256, data := List.replicate 256 0 }) (id)).begun 0x23 ({ cmd0 with dataLen := 256, data := List.replicate 256 0 }), by decide +kernel, rfl, by decide +kernel⟩

theorem test_wit_queue_pairs_and_planes_complete_planeControlOut : ∃ (c : AdminCmd) (s u : State), s.admits 0x24 c = true ∧ s.begun 0x24 c = u ∧ c.p0 = 1 ∧ c.target < u.planes ∧ c.p1 ≤ 1000 ∧ (u.plane c.target).out = false ∧ (u.plane c.target).draining = none :=
  ⟨{ cmd0 with p0 := 1 }, wAdm 0x24 ({ cmd0 with p0 := 1 }) (id), (wAdm 0x24 ({ cmd0 with p0 := 1 }) (id)).begun 0x24 ({ cmd0 with p0 := 1 }), by decide +kernel, rfl, by decide +kernel⟩

theorem test_wit_queue_pairs_and_planes_complete_planeDrainExpire : ∃ (plane op : Nat) (s : State), (s.plane plane).draining = some op ∧ op ≠ 0 :=
  ⟨0, 1, State.reset.setPlane 0 { draining := some 1 }, by decide +kernel⟩

theorem test_wit_queue_pairs_and_planes_complete_planeControlIn : ∃ (c : AdminCmd) (s u : State), s.admits 0x24 c = true ∧ s.begun 0x24 c = u ∧ c.p0 = 2 ∧ c.target < u.planes ∧ (u.plane c.target).out = true ∧ u.planeDead c.target = false ∧ u.pg (pFP c.target) ≠ .fenced ∧ u.pg (pFP c.target) ≠ .failed :=
  ⟨{ cmd0 with p0 := 2 }, wAdm 0x24 ({ cmd0 with p0 := 2 }) (fun s => s.setPlane 0 { out := true }), (wAdm 0x24 ({ cmd0 with p0 := 2 }) (fun s => s.setPlane 0 { out := true })).begun 0x24 ({ cmd0 with p0 := 2 }), by decide +kernel, rfl, by decide +kernel⟩

/-! PolicySwapAndAuditComplete -/

theorem test_wit_policy_swap_and_audit_complete_tenantShare : ∃ (c : AdminCmd) (x : Tenant) (s u : State), s.admits 0x25 c = true ∧ s.begun 0x25 c = u ∧ KM.get u.win.tenants c.target = some x ∧ c.target ≠ 0 ∧ c.p0 ≤ 255 ∧ c.p1 ≤ 6400 :=
  ⟨{ cmd0 with target := 1 }, {}, wAdm 0x25 ({ cmd0 with target := 1 }) (wPeer), (wAdm 0x25 ({ cmd0 with target := 1 }) (wPeer)).begun 0x25 ({ cmd0 with target := 1 }), by decide +kernel, rfl, by decide +kernel⟩

theorem test_wit_policy_swap_and_audit_complete_policySet : ∃ (c : AdminCmd) (s u : State), s.admits 0x30 c = true ∧ s.begun 0x30 c = u ∧ (c.p0 = 1 ∨ c.p0 = 2) ∧ 16 ≤ (if c.p1 = 0 then 32 else c.p1) ∧ (if c.p1 = 0 then 32 else c.p1) ≤ 32 ∧ c.p2 ≤ 1 ∧ ((c.p0 = 2 → c.p2 ≠ 0)) :=
  ⟨authCmd 0x30 ({ cmd0 with p0 := 1 }), wAuth 0x30 ({ cmd0 with p0 := 1 }) (id), wBegun 0x30 ({ cmd0 with p0 := 1 }) (id), admits_wAuth 0x30 ({ cmd0 with p0 := 1 }) (id) (by decide +kernel), begun_wAuth 0x30 ({ cmd0 with p0 := 1 }) (id) (by decide +kernel), by decide +kernel⟩

theorem test_wit_policy_swap_and_audit_complete_powerCapSet : ∃ (c : AdminCmd) (s u : State), s.admits 0x31 c = true ∧ s.begun 0x31 c = u ∧ 400 ≤ c.p0 ∧ c.p0 ≤ 3000 :=
  ⟨{ cmd0 with p0 := 400 }, wAdm 0x31 ({ cmd0 with p0 := 400 }) (id), (wAdm 0x31 ({ cmd0 with p0 := 400 }) (id)).begun 0x31 ({ cmd0 with p0 := 400 }), by decide +kernel, rfl, by decide +kernel⟩

theorem test_wit_policy_swap_and_audit_complete_powerCapSet2 : ∃ (c : AdminCmd) (s u : State), s.admits 0x31 c = true ∧ s.begun 0x31 c = u ∧ c.p0 = 0 :=
  ⟨cmd0, wAdm 0x31 (cmd0) (id), (wAdm 0x31 (cmd0) (id)).begun 0x31 (cmd0), by decide +kernel, rfl, by decide +kernel⟩

theorem test_wit_policy_swap_and_audit_complete_roleSwap : ∃ (c : AdminCmd) (s u : State), s.admits 0x32 c = true ∧ s.begun 0x32 c = u ∧ c.p0 = 1 ∧ c.p1 ≤ c.p2 ∧ c.p1 ≠ 0 ∧ c.p2 ≤ 16777215 ∧ u.pair = 1 ∧ u.twin.swap = none ∧ (u.win.windows.any fun p => p.2.valid && decide (c.p1 ≤ p.1 ∧ p.1 ≤ c.p2) && !u.homeHere p.1) = false :=
  ⟨authCmd 0x32 ({ cmd0 with p0 := 1, p1 := 1, p2 := 2 }), wAuth 0x32 ({ cmd0 with p0 := 1, p1 := 1, p2 := 2 }) (wTwin), wBegun 0x32 ({ cmd0 with p0 := 1, p1 := 1, p2 := 2 }) (wTwin), admits_wAuth 0x32 ({ cmd0 with p0 := 1, p1 := 1, p2 := 2 }) (wTwin) (by decide +kernel), begun_wAuth 0x32 ({ cmd0 with p0 := 1, p1 := 1, p2 := 2 }) (wTwin) (by decide +kernel), by decide +kernel⟩

theorem test_wit_policy_swap_and_audit_complete_roleSwapDrained : ∃ (w : RoleSwap) (s : State), s.twin.swap = some w ∧ w.sentAt = none ∧ s.writesIn w.first w.last = false :=
  ⟨{ op := 1, first := 1, last := 2, sentAt := none }, { State.reset with twin.swap := some { op := 1, first := 1, last := 2, sentAt := none } }, by decide +kernel⟩

theorem test_wit_policy_swap_and_audit_complete_resyncStart : ∃ (c : AdminCmd) (s u : State), s.admits 0x33 c = true ∧ s.begun 0x33 c = u ∧ c.p0 ≤ 1 ∧ u.pair = 3 ∧ u.twin.resync = none ∧ u.twinPorts ≠ [] ∧ u.twin.seen = true :=
  ⟨cmd0, wAdm 0x33 (cmd0) (fun s => { (wTwin s).setFld pTWC 0x044 2 0 3 with twin.seen := true }), (wAdm 0x33 (cmd0) (fun s => { (wTwin s).setFld pTWC 0x044 2 0 3 with twin.seen := true })).begun 0x33 (cmd0), by decide +kernel, rfl, by decide +kernel⟩

theorem test_wit_policy_swap_and_audit_complete_resyncComplete : ∃ (x : Resync) (s : State), s.twin.resync = some x ∧ x.left = [] ∧ s.twin.sent = [] ∧ s.twin.reorder = [] ∧ ((x.sender = true → x.logIn = true)) :=
  ⟨wRes, { State.reset with twin.resync := some wRes }, by decide +kernel⟩

theorem test_wit_policy_swap_and_audit_complete_auditStart : ∃ (c : AdminCmd) (s u : State), s.admits 0x34 c = true ∧ s.begun 0x34 c = u ∧ c.p0 + 2 ^ 32 * c.p1 < 2 ^ 35 ∧ c.p3 ≤ 1 ∧ c.p4 ≠ 0 ∧ c.p4 ≤ 1024 ∧ u.pair = 1 ∧ u.twin.audit = none :=
  ⟨{ cmd0 with p4 := 1 }, wAdm 0x34 ({ cmd0 with p4 := 1 }) (wTwin), (wAdm 0x34 ({ cmd0 with p4 := 1 }) (wTwin)).begun 0x34 ({ cmd0 with p4 := 1 }), by decide +kernel, rfl, by decide +kernel⟩

/-! KeysAndStreamsComplete -/

theorem test_wit_keys_and_streams_complete_keyImportWrapped : ∃ (c : AdminCmd) (s u : State), s.admits 0x40 c = true ∧ s.begun 0x40 c = u ∧ importParam c.p0 = true ∧ c.p1 ≤ 8191 ∧ pairsWrapped (c.p0 % 8) c.target (c.p0 / 65536 % 4096) = true ∧ 40 ≤ (proper c).length ∧ u.alarmed = none ∧ u.mayUnwrap c.p1 (c.p0 / 65536 % 4096) = true ∧ (u.slot c.target).state = .empty :=
  ⟨authCmd 0x40 ({ cmd0 with target := 16, p0 := 0x10004, p1 := 8, dataLen := 40, data := List.replicate 40 0 }), wAuth 0x40 ({ cmd0 with target := 16, p0 := 0x10004, p1 := 8, dataLen := 40, data := List.replicate 40 0 }) (fun s => s.setSlot 8 { state := .active, kind := 5 }), wBegun 0x40 ({ cmd0 with target := 16, p0 := 0x10004, p1 := 8, dataLen := 40, data := List.replicate 40 0 }) (fun s => s.setSlot 8 { state := .active, kind := 5 }), admits_wAuth 0x40 ({ cmd0 with target := 16, p0 := 0x10004, p1 := 8, dataLen := 40, data := List.replicate 40 0 }) (fun s => s.setSlot 8 { state := .active, kind := 5 }) (by decide +kernel), begun_wAuth 0x40 ({ cmd0 with target := 16, p0 := 0x10004, p1 := 8, dataLen := 40, data := List.replicate 40 0 }) (fun s => s.setSlot 8 { state := .active, kind := 5 }) (by decide +kernel), by decide +kernel⟩

theorem test_wit_keys_and_streams_complete_keyImportEcdh : ∃ (c : AdminCmd) (s u : State), s.admits 0x41 c = true ∧ s.begun 0x41 c = u ∧ importParam c.p0 = true ∧ pairsEcdh (c.p0 % 8) c.target (c.p0 / 65536 % 4096) = true ∧ 144 ≤ (proper c).length ∧ u.alarmed = none ∧ (u.slot c.target).state = .empty ∧ (proper c).take 1 = [4] :=
  ⟨authCmd 0x41 ({ cmd0 with target := 16, p0 := 0x10004, dataLen := 144, data := 4 :: List.replicate 143 0 }), wAuth 0x41 ({ cmd0 with target := 16, p0 := 0x10004, dataLen := 144, data := 4 :: List.replicate 143 0 }) (id), wBegun 0x41 ({ cmd0 with target := 16, p0 := 0x10004, dataLen := 144, data := 4 :: List.replicate 143 0 }) (id), admits_wAuth 0x41 ({ cmd0 with target := 16, p0 := 0x10004, dataLen := 144, data := 4 :: List.replicate 143 0 }) (id) (by decide +kernel), begun_wAuth 0x41 ({ cmd0 with target := 16, p0 := 0x10004, dataLen := 144, data := 4 :: List.replicate 143 0 }) (id) (by decide +kernel), by decide +kernel⟩

theorem test_wit_keys_and_streams_complete_keyRewrite : ∃ (c : AdminCmd) (s u : State), s.admits 0x42 c = true ∧ s.begun 0x42 c = u ∧ c.target ≤ 8191 ∧ fixedSlot c.target = false ∧ c.p0.testBit 31 = false ∧ c.p1 ≤ 8191 ∧ 40 ≤ (proper c).length ∧ u.alarmed = none ∧ (u.slot c.target).state = .active ∧ (u.slot c.target).kind ≠ 1 ∧ (u.slot c.target).kind ≠ 3 ∧ u.mayUnwrap c.p1 (u.slot c.target).owner = true :=
  ⟨authCmd 0x42 ({ cmd0 with target := 16, p1 := 8, dataLen := 40, data := List.replicate 40 0 }), wAuth 0x42 ({ cmd0 with target := 16, p1 := 8, dataLen := 40, data := List.replicate 40 0 }) (fun s => (s.setSlot 8 { state := .active, kind := 5 }).setSlot 16 { state := .active, kind := 4 }), wBegun 0x42 ({ cmd0 with target := 16, p1 := 8, dataLen := 40, data := List.replicate 40 0 }) (fun s => (s.setSlot 8 { state := .active, kind := 5 }).setSlot 16 { state := .active, kind := 4 }), admits_wAuth 0x42 ({ cmd0 with target := 16, p1 := 8, dataLen := 40, data := List.replicate 40 0 }) (fun s => (s.setSlot 8 { state := .active, kind := 5 }).setSlot 16 { state := .active, kind := 4 }) (by decide +kernel), begun_wAuth 0x42 ({ cmd0 with target := 16, p1 := 8, dataLen := 40, data := List.replicate 40 0 }) (fun s => (s.setSlot 8 { state := .active, kind := 5 }).setSlot 16 { state := .active, kind := 4 }) (by decide +kernel), by decide +kernel⟩

theorem test_wit_keys_and_streams_complete_keyRewriteNewStorage : ∃ (c : AdminCmd) (n : Nat) (x : Tenant) (s u : State), s.admits 0x42 c = true ∧ s.begun 0x42 c = u ∧ c.target ≤ 8191 ∧ fixedSlot c.target = false ∧ c.p0.testBit 31 = true ∧ u.alarmed = none ∧ (u.slot c.target).state = .active ∧ (u.slot c.target).kind = 3 ∧ u.isCurrent c.target = true ∧ u.freeSlot = some n ∧ KM.get u.win.tenants (u.slot c.target).owner = some x :=
  ⟨authCmd 0x42 ({ cmd0 with target := 16, p0 := 2 ^ 31 }), 17, { slot := 16 }, wAuth 0x42 ({ cmd0 with target := 16, p0 := 2 ^ 31 }) (fun s => { s.setSlot 16 { state := .active, kind := 3, owner := 1 } with win.tenants := [(1, { slot := 16 })] }), wBegun 0x42 ({ cmd0 with target := 16, p0 := 2 ^ 31 }) (fun s => { s.setSlot 16 { state := .active, kind := 3, owner := 1 } with win.tenants := [(1, { slot := 16 })] }), admits_wAuth 0x42 ({ cmd0 with target := 16, p0 := 2 ^ 31 }) (fun s => { s.setSlot 16 { state := .active, kind := 3, owner := 1 } with win.tenants := [(1, { slot := 16 })] }) (by decide +kernel), begun_wAuth 0x42 ({ cmd0 with target := 16, p0 := 2 ^ 31 }) (fun s => { s.setSlot 16 { state := .active, kind := 3, owner := 1 } with win.tenants := [(1, { slot := 16 })] }) (by decide +kernel), by decide +kernel⟩

theorem test_wit_keys_and_streams_complete_rewriteSwitch : ∃ (slot key : Nat) (s : State), (s.slot slot).shadow = some key ∧ (s.slot slot).state = .shadowed ∧ s.preCount slot = 0 :=
  ⟨0, 0, State.reset.setSlot 0 { state := .shadowed, shadow := some 0 }, by decide +kernel⟩

theorem test_wit_keys_and_streams_complete_keyZeroise : ∃ (c : AdminCmd) (s u : State), s.admits 0x43 c = true ∧ s.begun 0x43 c = u ∧ c.target ≤ 8191 ∧ fixedSlot c.target = false ∧ (u.slot c.target).kind ≠ 3 ∧ c.target ≠ 3 ∧ c.target ≠ 4 :=
  ⟨authCmd 0x43 ({ cmd0 with target := 16 }), wAuth 0x43 ({ cmd0 with target := 16 }) (id), wBegun 0x43 ({ cmd0 with target := 16 }) (id), admits_wAuth 0x43 ({ cmd0 with target := 16 }) (id) (by decide +kernel), begun_wAuth 0x43 ({ cmd0 with target := 16 }) (id) (by decide +kernel), by decide +kernel⟩

theorem test_wit_keys_and_streams_complete_streamOpen : ∃ (c : AdminCmd) (aadLen ctLen segs : Nat) (s u : State), s.admits 0x44 c = true ∧ s.begun 0x44 c = u ∧ leNat (((proper c).drop 12).take 4) = aadLen ∧ leNat (((proper c).drop 16).take 8) = ctLen ∧ leNat (((proper c).drop 24).take 2) = segs ∧ c.target ≤ 8191 ∧ (u.object c.p0).valid = true ∧ (u.object c.p0).destroying = false ∧ (u.slot c.target).state ≠ .empty ∧ (u.slot c.target).kind = 4 ∧ (u.slot c.target).owner = (u.object c.p0).owner ∧ aadLen ≤ 4096 ∧ ctLen ≠ 0 ∧ ctLen ≤ 2 ^ 34 ∧ segs ≠ 0 ∧ 64 + (aadLen + 15) / 16 * 16 + 16 * segs ≤ (proper c).length ∧ ((List.range segs).map fun i => leNat (((proper c).drop (64 + (aadLen + 15) / 16 * 16 + 16 * i + 8)).take 4)).foldl (· + ·) 0 = ctLen ∧ c.p1 + (ctLen + 16383) / 16384 ≤ (u.object c.p0).sizePages ∧ (u.pair = 1 ∨ u.pair = 3) ∧ (u.object c.p0).aliasCount = 0 ∧ ((List.range' c.p1 ((ctLen + 16383) / 16384)).any fun i => (match u.objectPage (u.object c.p0) i with | some p => isCellar p || u.pendingTag p | none => true) || (KM.get u.win.locks (lockKey c.p0 i)).isSome) = false ∧ bit (u.reg pPLD 0x044) 8 = false ∧ u.larder.streams.length < 4 :=
  ⟨cmdStream, 0, 16, 1, wAdm 0x44 (cmdStream) (wStream), (wAdm 0x44 (cmdStream) (wStream)).begun 0x44 (cmdStream), by decide +kernel, rfl, by decide +kernel⟩

theorem test_wit_keys_and_streams_complete_streamSegDone : ∃ (op : Nat) (ct : List Byte) (x : Stream) (page : Nat) (s : State), (s.larder.streams.find? fun x => x.op == op) = some x ∧ (s.slot x.slot).state ≠ .empty ∧ ct.length = min 16384 (x.ctLen - x.ct.length) ∧ s.objectPage (s.object x.object) (x.first + x.ct.length / 16384) = some page ∧ s.bar2Fits [page] ct.length = true :=
  ⟨1, [1], wStr, 2 ^ 34, wSeg, by decide +kernel⟩

/-! FirmwareAndRecordsComplete -/

theorem test_wit_firmware_and_records_complete_fwStage : ∃ (c : AdminCmd) (s u : State), s.admits 0x50 c = true ∧ s.begun 0x50 c = u ∧ c.p1 ≤ 3 ∧ properLen c ≠ 0 ∧ properLen c ≤ 2 ^ 20 ∧ c.p0 % 4096 = 0 ∧ c.p0 + properLen c ≤ (if c.p1.testBit 1 then 0x20000 else 0x180000) ∧ u.cmdLocked c pSTW = false ∧ u.cmdLocked c pAC = false ∧ u.stw.live = none :=
  ⟨authCmd 0x50 ({ cmd0 with dataLen := 8, data := List.replicate 8 0 }), wAuth 0x50 ({ cmd0 with dataLen := 8, data := List.replicate 8 0 }) (id), wBegun 0x50 ({ cmd0 with dataLen := 8, data := List.replicate 8 0 }) (id), admits_wAuth 0x50 ({ cmd0 with dataLen := 8, data := List.replicate 8 0 }) (id) (by decide +kernel), begun_wAuth 0x50 ({ cmd0 with dataLen := 8, data := List.replicate 8 0 }) (id) (by decide +kernel), by decide +kernel⟩

theorem test_wit_firmware_and_records_complete_fwActivateNextReset : ∃ (c : AdminCmd) (s u : State), s.admits 0x51 c = true ∧ s.begun 0x51 c = u ∧ c.p0 = 1 ∧ c.p1 ≤ 1 ∧ u.cmdLocked c pSTW = false ∧ 1 - u.bank_ ∉ u.attic.invalidBanks :=
  ⟨authCmd 0x51 ({ cmd0 with p0 := 1 }), wAuth 0x51 ({ cmd0 with p0 := 1 }) (id), wBegun 0x51 ({ cmd0 with p0 := 1 }) (id), admits_wAuth 0x51 ({ cmd0 with p0 := 1 }) (id) (by decide +kernel), begun_wAuth 0x51 ({ cmd0 with p0 := 1 }) (id) (by decide +kernel), by decide +kernel⟩

theorem test_wit_firmware_and_records_complete_fwActivateLive : ∃ (c : AdminCmd) (s u : State), s.admits 0x51 c = true ∧ s.begun 0x51 c = u ∧ c.p0 = 0 ∧ c.p1 ≤ 1 ∧ u.cmdLocked c pSTW = false ∧ u.stwState = 1 ∧ u.spare < 3 ∧ 1 - u.bank_ ∉ u.attic.invalidBanks :=
  ⟨authCmd 0x51 (cmd0), wAuth 0x51 (cmd0) (fun s => s.setFld pSTW 0x040 5 0 0x24), wBegun 0x51 (cmd0) (fun s => s.setFld pSTW 0x040 5 0 0x24), admits_wAuth 0x51 (cmd0) (fun s => s.setFld pSTW 0x040 5 0 0x24) (by decide +kernel), begun_wAuth 0x51 (cmd0) (fun s => s.setFld pSTW 0x040 5 0 0x24) (by decide +kernel), by decide +kernel⟩

theorem test_wit_firmware_and_records_complete_liveActivationStepDone : ∃ (step op : Nat) (s : State), s.stw.live = some (op, step) ∧ s.stwState = 5 :=
  ⟨1, 1, { State.reset.setFld pSTW 0x040 31 29 5 with stw.live := some (1, 1) }, by decide +kernel⟩

theorem test_wit_firmware_and_records_complete_probationEnd : ∃ (s : State), bit (s.reg pSTW 0x040) 27 = true :=
  ⟨wReg pSTW 0x040 0x08000000, by decide +kernel⟩

theorem test_wit_firmware_and_records_complete_coreSwap : ∃ (c : AdminCmd) (s u : State), s.admits 0x52 c = true ∧ s.begun 0x52 c = u ∧ c.target ≤ 2 ∧ c.p0 ≤ 1 ∧ u.cmdLocked c pSTW = false ∧ u.cmdLocked c (pSC c.target) = false ∧ u.stwState = 1 ∧ u.spare < 3 ∧ (c.target = u.lead ∨ c.target = u.shadow) :=
  ⟨authCmd 0x52 (cmd0), wAuth 0x52 (cmd0) (fun s => s.setFld pSTW 0x040 5 0 0x24), wBegun 0x52 (cmd0) (fun s => s.setFld pSTW 0x040 5 0 0x24), admits_wAuth 0x52 (cmd0) (fun s => s.setFld pSTW 0x040 5 0 0x24) (by decide +kernel), begun_wAuth 0x52 (cmd0) (fun s => s.setFld pSTW 0x040 5 0 0x24) (by decide +kernel), by decide +kernel⟩

theorem test_wit_firmware_and_records_complete_configRead : ∃ (c : AdminCmd) (seq : Nat) (bs : List Byte) (s u : State), s.admits 0x53 c = true ∧ s.begun 0x53 c = u ∧ KM.get u.attic.records c.target = some (seq, bs) :=
  ⟨cmd0, 1, [1], wAdm 0x53 (cmd0) (fun s => { s with attic.records := [(0, (1, [1]))] }), (wAdm 0x53 (cmd0) (fun s => { s with attic.records := [(0, (1, [1]))] })).begun 0x53 (cmd0), by decide +kernel, rfl, by decide +kernel⟩

theorem test_wit_firmware_and_records_complete_configWrite : ∃ (c : AdminCmd) (s u : State), s.admits 0x54 c = true ∧ s.begun 0x54 c = u ∧ deviceRecord c.target = false ∧ installerRecord c.target = true ∧ properLen c ≤ 4080 ∧ u.cmdLocked c pSTW = false ∧ u.cmdLocked c pAC = false ∧ c.target ≠ 1 :=
  ⟨authCmd 0x54 ({ cmd0 with target := 2, dataLen := 8, data := List.replicate 8 0 }), wAuth 0x54 ({ cmd0 with target := 2, dataLen := 8, data := List.replicate 8 0 }) (id), wBegun 0x54 ({ cmd0 with target := 2, dataLen := 8, data := List.replicate 8 0 }) (id), admits_wAuth 0x54 ({ cmd0 with target := 2, dataLen := 8, data := List.replicate 8 0 }) (id) (by decide +kernel), begun_wAuth 0x54 ({ cmd0 with target := 2, dataLen := 8, data := List.replicate 8 0 }) (id) (by decide +kernel), by decide +kernel⟩

theorem test_wit_firmware_and_records_complete_tallyRingSet : ∃ (c : AdminCmd) (s u : State), s.admits 0x60 c = true ∧ s.begun 0x60 c = u ∧ (c.p0 + 2 ^ 32 * c.p1) % 4096 = 0 ∧ 12 ≤ c.p2 ∧ c.p2 ≤ 20 :=
  ⟨{ cmd0 with p2 := 12 }, wAdm 0x60 ({ cmd0 with p2 := 12 }) (id), (wAdm 0x60 ({ cmd0 with p2 := 12 }) (id)).begun 0x60 ({ cmd0 with p2 := 12 }), by decide +kernel, rfl, by decide +kernel⟩

theorem test_wit_firmware_and_records_complete_tallyRingSet2 : ∃ (c : AdminCmd) (s u : State), s.admits 0x60 c = true ∧ s.begun 0x60 c = u ∧ c.p2 = 0 :=
  ⟨cmd0, wAdm 0x60 (cmd0) (id), (wAdm 0x60 (cmd0) (id)).begun 0x60 (cmd0), by decide +kernel, rfl, by decide +kernel⟩

theorem test_wit_firmware_and_records_complete_historyRead : ∃ (c : AdminCmd) (s u : State), s.admits 0x61 c = true ∧ s.begun 0x61 c = u ∧ (s.hist.reads.find? fun h => decide (h.cmd = c)) = none ∧ c.p2 ≤ 1 :=
  ⟨cmd0, wAdm 0x61 (cmd0) (id), (wAdm 0x61 (cmd0) (id)).begun 0x61 (cmd0), by decide +kernel, rfl, by decide +kernel⟩

theorem test_wit_firmware_and_records_complete_historyGoes : ∃ (c : AdminCmd) (h : HistRead) (s : State), (s.hist.reads.find? fun h => decide (h.cmd = c)) = some h :=
  ⟨cmd0, { op := 1, cmd := cmd0, next := 0, limit := 0 }, { State.reset with hist.reads := [{ op := 1, cmd := cmd0, next := 0, limit := 0 }] }, by decide +kernel⟩

/-! HistorySamplingAndAgeingCommandsComplete -/

theorem test_wit_history_sampling_and_ageing_commands_complete_historyClear : ∃ (c : AdminCmd) (s u : State), s.admits 0x62 c = true ∧ s.begun 0x62 c = u ∧ u.hist.reads = [] ∧ u.phaseBusy = false ∧ u.hist.scanned = true :=
  ⟨authCmd 0x62 (cmd0), wAuth 0x62 (cmd0) (fun s => { s with hist.scanned := true }), wBegun 0x62 (cmd0) (fun s => { s with hist.scanned := true }), admits_wAuth 0x62 (cmd0) (fun s => { s with hist.scanned := true }) (by decide +kernel), begun_wAuth 0x62 (cmd0) (fun s => { s with hist.scanned := true }) (by decide +kernel), by decide +kernel⟩

theorem test_wit_history_sampling_and_ageing_commands_complete_samplerConfigRequest : ∃ (c : AdminCmd) (s u : State), s.admits 0x63 c = true ∧ s.begun 0x63 c = u ∧ c.target < 8 :=
  ⟨cmd0, wAdm 0x63 (cmd0) (id), (wAdm 0x63 (cmd0) (id)).begun 0x63 (cmd0), by decide +kernel, rfl, by decide +kernel⟩

theorem test_wit_history_sampling_and_ageing_commands_complete_samplerConfigInstruction : ∃ (c : AdminCmd) (s u : State), s.admits 0x63 c = true ∧ s.begun 0x63 c = u ∧ c.target = 8 :=
  ⟨{ cmd0 with target := 8 }, wAdm 0x63 ({ cmd0 with target := 8 }) (id), (wAdm 0x63 ({ cmd0 with target := 8 }) (id)).begun 0x63 ({ cmd0 with target := 8 }), by decide +kernel, rfl, by decide +kernel⟩

theorem test_wit_history_sampling_and_ageing_commands_complete_marginPlanRead : ∃ (c : AdminCmd) (s u : State), s.admits 0x64 c = true ∧ s.begun 0x64 c = u ∧ c.p0 ≤ 4096 ∧ (leBytes 4 (u.num pPKG 0x100) ++ leBytes 4 (u.num pPKG 0x108) ++ leBytes 8 (u.num pPKG 0x104) ++ u.planItems.flatMap u.itemBytes ++ (u.age.log.take c.p0).reverse.flatMap changeBytes).length ≤ properLen c :=
  ⟨{ cmd0 with dataLen := 65536 }, wAdm 0x64 ({ cmd0 with dataLen := 65536 }) (id), (wAdm 0x64 ({ cmd0 with dataLen := 65536 }) (id)).begun 0x64 ({ cmd0 with dataLen := 65536 }), by decide +kernel, rfl, by decide +kernel⟩

theorem test_wit_history_sampling_and_ageing_commands_complete_ageingRun : ∃ (c : AdminCmd) (s u : State), s.admits 0x65 c = true ∧ s.begun 0x65 c = u ∧ (c.p0 = 3 ∨ c.p0 = 5 ∨ c.p0 = 6) ∧ u.lossOrRestore = false :=
  ⟨{ cmd0 with p0 := 3 }, wAdm 0x65 ({ cmd0 with p0 := 3 }) (id), (wAdm 0x65 ({ cmd0 with p0 := 3 }) (id)).begun 0x65 ({ cmd0 with p0 := 3 }), by decide +kernel, rfl, by decide +kernel⟩

theorem test_wit_history_sampling_and_ageing_commands_complete_ageingRun2 : ∃ (c : AdminCmd) (s u : State), s.admits 0x65 c = true ∧ s.begun 0x65 c = u ∧ c.p0 = 1 ∧ u.lossOrRestore = false ∧ ((u.runCodes 1).any fun x => decide (x ∈ u.age.running)) = false ∧ u.bankFit = true :=
  ⟨{ cmd0 with p0 := 1 }, wAdm 0x65 ({ cmd0 with p0 := 1 }) (fun s => [0, 1, 2, 3].foldl (fun s r => s.setNum pLG (0x0A0 + 4 * r) 4096) (s.setFld pGRN 0x05C 0 0 1)), (wAdm 0x65 ({ cmd0 with p0 := 1 }) (fun s => [0, 1, 2, 3].foldl (fun s r => s.setNum pLG (0x0A0 + 4 * r) 4096) (s.setFld pGRN 0x05C 0 0 1))).begun 0x65 ({ cmd0 with p0 := 1 }), by decide +kernel, rfl, by decide +kernel⟩

theorem test_wit_history_sampling_and_ageing_commands_complete_ageingRun3 : ∃ (c : AdminCmd) (s u : State), s.admits 0x65 c = true ∧ s.begun 0x65 c = u ∧ (c.p0 = 2 ∨ c.p0 = 4) ∧ u.lossOrRestore = false ∧ ((u.runCodes c.p0).any fun x => decide (x ∈ u.age.running)) = false ∧ ((List.range u.regions).all u.probeable) = true :=
  ⟨{ cmd0 with p0 := 2 }, wAdm 0x65 ({ cmd0 with p0 := 2 }) (fun s => [0, 1, 2, 3].foldl (fun s r => s.setNum (pRG r) 0x00C 2) s), (wAdm 0x65 ({ cmd0 with p0 := 2 }) (fun s => [0, 1, 2, 3].foldl (fun s r => s.setNum (pRG r) 0x00C 2) s)).begun 0x65 ({ cmd0 with p0 := 2 }), by decide +kernel, rfl, by decide +kernel⟩

/-! PacketsComplete -/

theorem test_wit_packets_complete_pxtReadRx : ∃ (f : Frame) (v s : State), s.reaches f 2 = true ∧ (s.counted f).sampleRequest f = v ∧ firstBad (readChecks (parsePxt f.payload) f.payload) = none ∧ v.timely (parsePxt f.payload) (parsePxt f.payload).resend = true ∧ (v.noted (parsePxt f.payload)).grantsRead (parsePxt f.payload) f.payload = true :=
  ⟨fRead, (wServe.counted fRead).sampleRequest fRead, wServe, by decide +kernel, rfl, by decide +kernel⟩

theorem test_wit_packets_complete_pxtWriteRx : ∃ (f : Frame) (v w x y s : State), s.reaches f 1 = true ∧ (s.counted f).sampleRequest f = v ∧ firstBad (writeChecks (parsePxt f.payload) f.payload) = none ∧ v.timely (parsePxt f.payload) false = true ∧ v.noted (parsePxt f.payload) = w ∧ w.grantsWrite (parsePxt f.payload) f.payload = true ∧ (w.admitModes (parsePxt f.payload).plen (w.regionsOf (w.writePages (parsePxt f.payload) f.payload))).1 = none ∧ (w.admitModes (parsePxt f.payload).plen (w.regionsOf (w.writePages (parsePxt f.payload) f.payload))).2 = x ∧ (((w.tracker (parsePxt f.payload).dqpn (parsePxt f.payload).msn).isNone = true → x.noTracker (parsePxt f.payload).dqpn = false)) ∧ (x.admitRegions (w.object (w.window (be f.payload 24 4 / 256)).object).owner (w.writePages (parsePxt f.payload) f.payload) (w.regionsOf (w.writePages (parsePxt f.payload) f.payload))).1 = none ∧ (x.admitRegions (w.object (w.window (be f.payload 24 4 / 256)).object).owner (w.writePages (parsePxt f.payload) f.payload) (w.regionsOf (w.writePages (parsePxt f.payload) f.payload))).2 = y :=
  ⟨fWrite, (wServe.counted fWrite).sampleRequest fWrite, wNoted, wAdmit1, wAdmit2, wServe, by decide +kernel, rfl, by decide +kernel, by decide +kernel, rfl, by decide +kernel, by decide +kernel, rfl, by decide +kernel, by decide +kernel, rfl⟩

theorem test_wit_packets_complete_markEchoRx : ∃ (f : Frame) (v s : State), s.reaches f 4 = true ∧ s.counted f = v ∧ firstBad (echoChecks (parsePxt f.payload) f.payload (v.planesOf (parsePxt f.payload).dqpn)) = none :=
  ⟨fEcho, wServe.counted fEcho, wServe, by decide +kernel, rfl, by decide +kernel⟩

theorem test_wit_packets_complete_probeRx : ∃ (f : Frame) (v s : State), s.reaches f 8 = true ∧ s.counted f = v :=
  ⟨fProbe, wServe.counted fProbe, wServe, by decide +kernel, rfl⟩

theorem test_wit_packets_complete_probeReplyRx : ∃ (f : Frame) (v s : State), s.reaches f 9 = true ∧ s.counted f = v ∧ (v.pp (v.qp (parsePxt f.payload).dqpn).peer f.port).probeId = some (be f.payload 28 4) :=
  ⟨fReply, (wServe.setPp 1 0 { probeId := some 0 }).counted fReply, wServe.setPp 1 0 { probeId := some 0 }, by decide +kernel, rfl, by decide +kernel⟩

/-! FabricServiceCompletes -/

theorem test_wit_fabric_service_completes_exceptionFrameRx : ∃ (f : Frame) (n : Nat) (s : State), f.port < s.planes ∧ s.portRuns f.port = true ∧ f.fcsOk = true ∧ s.vlanOk f = true ∧ (s.plane f.port).exceptions.length < 64 ∧ (if (s.plane f.port).second = s.now / second then (s.plane f.port).admitted else 0) = n ∧ n < 10000 :=
  ⟨fProbe, 0, wServe, by decide +kernel⟩

theorem test_wit_fabric_service_completes_nonPxtFrameRx : ∃ (f : Frame) (s : State), s.fabricDark = false ∧ f.port < s.planes ∧ s.portRuns f.port = true ∧ f.fcsOk = true ∧ s.frameOk f = false :=
  ⟨{ fProbe with headerOk := false }, wServe, by decide +kernel⟩

theorem test_wit_fabric_service_completes_qpcFetchDone : ∃ (qpn : Nat) (f : QpcFetch) (s : State), (s.fab.fetches.find? fun f => f.qpn == qpn && f.issued) = some f ∧ f.stale = true :=
  ⟨1, { qpn := 1, issued := true, stale := true }, { State.reset with fab.fetches := [{ qpn := 1, issued := true, stale := true }] }, by decide +kernel⟩

theorem test_wit_fabric_service_completes_qpcFetchDone2 : ∃ (qpn : Nat) (f : QpcFetch) (s : State), (s.fab.fetches.find? fun f => f.qpn == qpn && f.issued) = some f ∧ f.stale = false :=
  ⟨1, { qpn := 1, issued := true, stale := false }, { State.reset with fab.fetches := [{ qpn := 1, issued := true, stale := false }] }, by decide +kernel⟩

theorem test_wit_fabric_service_completes_missqWaitExpire : ∃ (plane : Nat) (w : Waiting) (s : State), ((s.missq plane).find? fun w => s.fab.fetches.any fun f => f.qpn == w.qpn && !f.issued && (s.ways w.qpn).all fun e => s.heldQp e.qpn) = some w :=
  ⟨0, { qpn := 1, frame := fProbe, delay := 0, since := 0 }, { State.reset with fab.fetches := [{ qpn := 1, issued := false, stale := false }], fab.missq := [(0, [{ qpn := 1, frame := fProbe, delay := 0, since := 0 }])] }, by decide +kernel⟩

theorem test_wit_fabric_service_completes_qpcWritebackDone : ∃ (qpn : Nat) (e : QpcEntry) (s : State), s.qpcEntry qpn = some e ∧ e.issued = true :=
  ⟨1, { qpn := 1, dirty := false, issued := true }, State.reset.setWays 1 [{ qpn := 1, dirty := false, issued := true }], by decide +kernel⟩

theorem test_wit_fabric_service_completes_packetPlacement : ∃ (qpn psn : Nat) (p : Placement) (data : List Byte) (v s : State), (s.fab.placements.find? fun p => p.qpn == qpn && p.trig.psn == psn) = some p ∧ (p.pieces.any fun x => s.stalled p.object x.1) = false ∧ s.waitsRewrite p = false ∧ { s with fab.placements := s.fab.placements.erase p } = v ∧ precedes psn (v.qp qpn).cumPsn = false ∧ psn ∉ (v.qp qpn).received ∧ v.openPacket p = some data ∧ p.fold = foldOf p.handle p.woff :=
  ⟨1, 0, wPlace, [1], { wPlaced with fab.placements := wPlaced.fab.placements.erase wPlace }, wPlaced, by decide +kernel, by decide +kernel, by decide +kernel, rfl, by decide +kernel⟩

theorem test_wit_fabric_service_completes_packetPlacement2 : ∃ (qpn psn : Nat) (p : Placement) (v s : State), (s.fab.placements.find? fun p => p.qpn == qpn && p.trig.psn == psn) = some p ∧ (p.pieces.any fun x => s.stalled p.object x.1) = false ∧ s.waitsRewrite p = false ∧ { s with fab.placements := s.fab.placements.erase p } = v ∧ (precedes psn (v.qp qpn).cumPsn = true ∨ psn ∈ (v.qp qpn).received) :=
  ⟨1, 0, wPlace, { wDup with fab.placements := wDup.fab.placements.erase wPlace }, wDup, by decide +kernel, by decide +kernel, by decide +kernel, rfl, by decide +kernel⟩

theorem test_wit_fabric_service_completes_ackDelayExpire : ∃ (qpn : Nat) (d : Trigger × Nat) (t : Trigger) (s : State), (s.qp qpn).delay = some d ∧ (s.qp qpn).lastRx = some t :=
  ⟨1, (trig0, 0), trig0, State.reset.setQp 1 { delay := some (trig0, 0), lastRx := some trig0 }, by decide +kernel⟩

theorem test_wit_fabric_service_completes_trackerTimeout : ∃ (qpn msn : Nat) (s : State), (s.tracker qpn msn).isSome = true :=
  ⟨1, 1, State.reset.setTracker 1 1 { read := false, handle := 0, offset := 0, msgLen := 1, lastArrival := 0 }, by decide +kernel⟩

theorem test_wit_fabric_service_completes_trackerTimeout2 : ∃ (qpn msn : Nat) (s : State), s.tracker qpn msn = none ∧ msn = inc32 (s.qp qpn).cmsn ∧ ¬((s.qp qpn).state = .error ∧ msn = (s.qp qpn).failMsn) ∧ ((s.openOf qpn).any fun p => !p.2.read && decide (p.2.state = .mirrored)) = true :=
  ⟨1, 1, State.reset.setTracker 1 2 { read := false, handle := 0, offset := 0, msgLen := 1, lastArrival := 0, state := .mirrored }, by decide +kernel⟩

/-! ReadsAndRatesComplete -/

theorem test_wit_reads_and_rates_complete_readDataReady : ∃ (qpn msn : Nat) (resend : Bool) (j : ReadJob) (s : State), (s.fab.reads.find? fun j => decide (j.qpn = qpn ∧ j.msn = msn ∧ j.resend = resend)) = some j :=
  ⟨1, 1, false, wJob, { State.reset with fab.reads := [wJob] }, by decide +kernel⟩

theorem test_wit_reads_and_rates_complete_readRespDepart : ∃ (plane : Nat) (v w : State) (r : Response) (s : State), plane < 8 ∧ s.portRuns plane = true ∧ s.fabricDark = false ∧ s.setPlane plane { s.plane plane with queue := (s.plane plane).queue.filter fun r => s.live r } = v ∧ v.setPlane plane { v.plane plane with deficits := KM.keep (fun t _ => decide (t ∈ v.queuedTenants plane)) (v.plane plane).deficits } = w ∧ (¬(w.fld pTC (0x140 + 4 * plane) 9 0 < w.lineRate plane ∧ (w.fld pTC (0x140 + 4 * plane) 9 0 = 0 ∨ w.now < (v.plane plane).ceilingAt))) ∧ w.nextOf plane (v.plane plane).current = some r ∧ w.respLength r plane ≤ KM.getD 0 (w.plane plane).deficits (v.plane plane).current ∧ w.capAllows (v.plane plane).current (w.respLength r plane) = true :=
  ⟨0, wDepartV, wDepartW, wResp, wDepart, by decide +kernel, by decide +kernel, by decide +kernel, rfl, rfl, by decide +kernel⟩

theorem test_wit_reads_and_rates_complete_probeIdleExpire : ∃ (peer plane : Nat) (e : Peer) (s : State), s.peer peer = some e ∧ s.mayProbe peer plane e = true ∧ (((s.pp peer plane).up = true → (s.pp peer plane).probeId = none)) :=
  ⟨1, 0, peer0, wProbe, by decide +kernel⟩

theorem test_wit_reads_and_rates_complete_probeTimeoutExpire : ∃ (peer plane : Nat) (e : Peer) (id : Nat) (v s : State), s.peer peer = some e ∧ (s.pp peer plane).probeId = some id ∧ (s.bump pFPC 0x194).setPp peer plane { s.pp peer plane with unanswered := (s.pp peer plane).unanswered + 1, probeId := none } = v :=
  ⟨1, 0, peer0, 0, ((wProbe.setPp 1 0 { probeId := some 0 }).bump pFPC 0x194).setPp 1 0 { (wProbe.setPp 1 0 { probeId := some 0 }).pp 1 0 with unanswered := ((wProbe.setPp 1 0 { probeId := some 0 }).pp 1 0).unanswered + 1, probeId := none }, wProbe.setPp 1 0 { probeId := some 0 }, by decide +kernel, by decide +kernel, rfl⟩

theorem test_wit_reads_and_rates_complete_fabricLinkDown : ∃ (plane : Nat) (s : State), plane < s.planes ∧ s.inService plane = true :=
  ⟨0, State.reset.setPlaneBits 0 true true, by decide +kernel⟩

theorem test_wit_reads_and_rates_complete_fabricLinkDown2 : ∃ (plane : Nat) (s : State), plane < s.planes ∧ s.inService plane = false :=
  ⟨0, State.reset.setPlaneBits 0 false true, by decide +kernel⟩

theorem test_wit_reads_and_rates_complete_fabricLinkUp : ∃ (plane : Nat) (s : State), plane < s.planes ∧ (s.plane plane).out = false ∧ s.planeDead plane = false ∧ s.portRuns plane = true :=
  ⟨0, wServe, by decide +kernel⟩

theorem test_wit_reads_and_rates_complete_rateBatch : ∃ (s : State), bit (s.reg pTC 0x100) 31 = true :=
  ⟨wReg pTC 0x100 0x80000000, by decide +kernel⟩

theorem test_wit_reads_and_rates_complete_rateProbeWrite : ∃ (req : Requester) (s : State), s.writable req pTC = true ∧ s.resultValid pTC 0x124 = false :=
  ⟨.steward, State.reset, by decide +kernel⟩

/-! HarvestAndLedgerComplete -/

theorem test_wit_harvest_and_ledger_complete_harvestPlan : ∃ (region : Nat) (d : Dirty) (s : State), region < s.regions ∧ s.fillBucket region (s.dirty region) = d :=
  ⟨0, State.reset.fillBucket 0 (State.reset.dirty 0), State.reset, by decide +kernel, rfl⟩

theorem test_wit_harvest_and_ledger_complete_harvestPlan2 : ∃ (region : Nat) (s : State), region < s.regions :=
  ⟨0, State.reset, by decide +kernel⟩

theorem test_wit_harvest_and_ledger_complete_harvestProgramDone : ∃ (page : Nat) (h : Harvest) (f : FlashPage) (v w x : State) (k loc : Nat) (s : State), ((s.dirty (s.regionOf page)).harvests.find? fun h => h.page == page && h.programmed.isNone) = some h ∧ (s.sealPage (s.kindOf page) (s.storedAs page) h.data h.poison).1 = some f ∧ (s.sealPage (s.kindOf page) (s.storedAs page) h.data h.poison).2 = v ∧ (v.bandFor (s.regionOf page) (s.kindOf page)).1 = some k ∧ (v.bandFor (s.regionOf page) (s.kindOf page)).2 = w ∧ w.slotIn (s.regionOf page) k f.page = some loc ∧ (w.takeSlot (s.regionOf page) k loc).program loc f = x :=
  ⟨0, wHarvest, wHarvPage, wHarvV, wHarvW, (wHarvW.takeSlot 0 wHarvK wHarvLoc).program wHarvLoc wHarvPage, wHarvK, wHarvLoc, wHarv, by decide +kernel, by decide +kernel, rfl, by decide +kernel, rfl, by decide +kernel, rfl⟩

theorem test_wit_harvest_and_ledger_complete_harvestProgramDone2 : ∃ (page : Nat) (h : Harvest) (s : State), ((s.dirty (s.regionOf page)).harvests.find? fun h => h.page == page && h.programmed.isNone) = some h :=
  ⟨0, wHarvest, wHarv, by decide +kernel⟩

theorem test_wit_harvest_and_ledger_complete_gatherFillDone : ∃ (page : Nat) (g : GatherPage) (loc : Nat) (f : FlashPage) (s : State), KM.get (s.dirty (s.regionOf page)).gather page = some g ∧ g.source = some loc ∧ g.present.length ≠ 256 ∧ KM.get s.cellar.flash loc = some f ∧ s.opens f = true :=
  ⟨0, { cellar := 2 ^ 34, tenant := 0, source := some 0, present := [], period := 0 }, 0, wFlash, wGather, by decide +kernel⟩

theorem test_wit_harvest_and_ledger_complete_tenantDirtyProbe : ∃ (req : Requester) (s : State), s.writable req pTC = true ∧ s.resultValid pTC 0x194 = false :=
  ⟨.steward, State.reset, by decide +kernel⟩

theorem test_wit_harvest_and_ledger_complete_ledgerPeriod : ∃ (mon adc vbus ibus : Nat) (v w s : State), s.showBank mon adc vbus ibus = v ∧ ({ v with power.base := min (v.bEnergy (min mon adc)) v.bTime, power.zone := v.bZone }).enterTc = w :=
  ⟨50000, 50000, 48000, 1, State.reset.showBank 50000 50000 48000 1, ({ State.reset.showBank 50000 50000 48000 1 with power.base := min ((State.reset.showBank 50000 50000 48000 1).bEnergy (min 50000 50000)) (State.reset.showBank 50000 50000 48000 1).bTime, power.zone := (State.reset.showBank 50000 50000 48000 1).bZone }).enterTc, State.reset, rfl, rfl⟩

theorem test_wit_harvest_and_ledger_complete_vbankOv : ∃ (mon adc : Nat), 61000 < max mon adc :=
  ⟨61001, 0, by decide +kernel⟩

theorem test_wit_harvest_and_ledger_complete_chargerRestart : ∃ (v s : State), s.power.overVolt = true ∧ { s with power.overVolt := false } = v :=
  ⟨{ State.reset with power.overVolt := false }, { State.reset with power.overVolt := true }, by decide +kernel, rfl⟩

/-! PowerLossAndRestoreComplete -/

theorem test_wit_power_loss_and_restore_complete_powerLoss : ∃ (t s : State), s.power.tripped = false ∧ ((({ s with power.tripped := true, power.countAt := none }).bump pPLD 0x048).fire pPLD 0).noteTrip.endBank = t ∧ t.seqState = 15 ∧ t.seqDown = false :=
  ⟨((({ (State.reset.setFld pSEQ 0x04C 31 28 15) with power.tripped := true, power.countAt := none }).bump pPLD 0x048).fire pPLD 0).noteTrip.endBank, State.reset.setFld pSEQ 0x04C 31 28 15, by decide +kernel, rfl, by decide +kernel⟩

theorem test_wit_power_loss_and_restore_complete_powerLoss2 : ∃ (t s : State), s.power.tripped = false ∧ ((({ s with power.tripped := true, power.countAt := none }).bump pPLD 0x048).fire pPLD 0).noteTrip.endBank = t ∧ t.seqState ≠ 0 ∧ t.seqDown = true :=
  ⟨((({ (wDown) with power.tripped := true, power.countAt := none }).bump pPLD 0x048).fire pPLD 0).noteTrip.endBank, wDown, by decide +kernel, rfl, by decide +kernel⟩

theorem test_wit_power_loss_and_restore_complete_powerLoss3 : ∃ (t s : State), s.power.tripped = false ∧ ((({ s with power.tripped := true, power.countAt := none }).bump pPLD 0x048).fire pPLD 0).noteTrip.endBank = t ∧ t.seqState = 0 ∧ t.seq.holding = false :=
  ⟨((({ ({ State.reset with seq.holding := false }) with power.tripped := true, power.countAt := none }).bump pPLD 0x048).fire pPLD 0).noteTrip.endBank, { State.reset with seq.holding := false }, by decide +kernel, rfl, by decide +kernel⟩

theorem test_wit_power_loss_and_restore_complete_powerLoss4 : ∃ (t s : State), s.power.tripped = false ∧ ((({ s with power.tripped := true, power.countAt := none }).bump pPLD 0x048).fire pPLD 0).noteTrip.endBank = t ∧ t.seqState ≠ 0 ∧ t.seqDown = false ∧ t.seqState ≠ 15 ∧ t.seqFaulted = false :=
  ⟨((({ (State.reset.setFld pSEQ 0x04C 31 28 5) with power.tripped := true, power.countAt := none }).bump pPLD 0x048).fire pPLD 0).noteTrip.endBank, State.reset.setFld pSEQ 0x04C 31 28 5, by decide +kernel, rfl, by decide +kernel⟩

theorem test_wit_power_loss_and_restore_complete_rideRecovered : ∃ (t s : State), s.phase = 1 ∧ { s with power.tripped := false } = t :=
  ⟨{ wReg pPLD 0x044 1 with power.tripped := false }, wReg pPLD 0x044 1, by decide +kernel, rfl⟩

theorem test_wit_power_loss_and_restore_complete_rideExpire : ∃ (s : State), s.phase = 1 :=
  ⟨wReg pPLD 0x044 1, by decide +kernel⟩

theorem test_wit_power_loss_and_restore_complete_flushDataEnd : ∃ (i : Image) (l : List Image) (v s : State), s.power.images = i :: l ∧ s.phase = 2 ∧ s.saveWear (List.range s.regions) = v :=
  ⟨img0, [], (wImg 2).saveWear (List.range (wImg 2).regions), wImg 2, by decide +kernel, by decide +kernel, rfl⟩

theorem test_wit_power_loss_and_restore_complete_flushStop : ∃ (region cause : Nat) (i : Image) (l : List Image) (s : State), s.power.images = i :: l ∧ s.phase = 2 ∧ region < s.regions ∧ (cause = 1 ∨ cause = 2) ∧ KM.get s.power.stops region = none :=
  ⟨0, 1, img0, [], wImg 2, by decide +kernel⟩

theorem test_wit_power_loss_and_restore_complete_managedPowerDown : ∃ (s : State), s.phase = 3 :=
  ⟨wReg pPLD 0x044 3, by decide +kernel⟩

theorem test_wit_power_loss_and_restore_complete_vbusReturnCountDone : ∃ (s : State), s.phase = 4 ∧ s.power.countAt.isSome = true :=
  ⟨{ wReg pPLD 0x044 4 with power.countAt := some 0 }, by decide +kernel⟩

theorem test_wit_power_loss_and_restore_complete_vbusReturnWaitExpire : ∃ (s : State), s.phase = 4 ∧ s.arch.chipDue.isNone = true :=
  ⟨wReg pPLD 0x044 4, by decide +kernel⟩

theorem test_wit_power_loss_and_restore_complete_restoreStepDone : ∃ (n : Nat) (s : State), s.phase = 6 ∧ n ≠ 0 ∧ n ≤ 8 ∧ n ∉ s.power.steps ∧ ((∀ m ∈ restoreNeeds n, m ∈ s.power.steps)) ∧ (n ≠ 8 ∨ s.power.leftBehind = []) :=
  ⟨1, wImg 6, by decide +kernel⟩

theorem test_wit_power_loss_and_restore_complete_twinWaitExpire : ∃ (s : State), s.phase = 6 ∧ 6 ∈ s.power.steps ∧ s.power.leftBehind ≠ [] :=
  ⟨{ wImg 6 with power.steps := [6], power.leftBehind := [0] }, by decide +kernel⟩

theorem test_wit_power_loss_and_restore_complete_regionRestoreReady : ∃ (region : Nat) (s : State), region < s.regions ∧ s.restoring region = true ∧ s.engineFailed region = false ∧ 6 ∈ s.power.steps ∧ 8 ∈ s.power.steps ∧ dirtyPages (s.dirty region) * 16384 ≤ s.budgetR :=
  ⟨0, { (wImg 6).setNum (pRG 0) 0x00C 1 with power.steps := [6, 8] }, by decide +kernel⟩

theorem test_wit_power_loss_and_restore_complete_imageRelease : ∃ (v s : State), s.phase = 6 ∧ s.power.images ≠ [] ∧ ((∀ r ∈ List.range s.regions, s.pg (pRG r) = .service ∨ s.pg (pRG r) = .bypass)) ∧ { s.eraseImages s.power.images with power.images := [], power.marked := [], power.steps := [] } = v :=
  ⟨{ wServing.eraseImages wServing.power.images with power.images := [], power.marked := [], power.steps := [] }, wServing, by decide +kernel, by decide +kernel, by decide +kernel, rfl⟩

theorem test_wit_power_loss_and_restore_complete_zoneEraseDone : ∃ (region mib n : Nat) (s : State), region < s.regions ∧ min mib (KM.getD 0 s.power.toErase region) = n ∧ n ≠ 0 :=
  ⟨0, 1, 1, { State.reset with power.toErase := [(0, 4)] }, by decide +kernel⟩

theorem test_wit_power_loss_and_restore_complete_loftPageLoadDone : ∃ (page : Nat) (f : FlashPage) (s : State), (KM.get s.loft.away page).isSome = true ∧ KM.get s.cellar.flash (s.mapOf page).loc = some f ∧ s.opens f = true :=
  ⟨0, wFlash, { wGather with loft.away := [(0, true)] }, by decide +kernel⟩

/-! TwinFramesComplete -/

theorem test_wit_twin_frames_complete_mirrorDataRx : ∃ (f : TwinFrame) (segs : List Segment) (t s : State), s.portCarries f.port = true ∧ f.side ≠ s.side ∧ s.bump (pTP f.port) 0x048 = t ∧ f.body = .mirrorData segs :=
  ⟨{ port := 0, side := 1, epoch := 0, mseq := 0, txCount := 0, body := .mirrorData [] }, [], (wPort).bump (pTP 0) 0x048, wPort, by decide +kernel, by decide +kernel, rfl, by decide +kernel⟩

theorem test_wit_twin_frames_complete_mirrorMetaRx : ∃ (f : TwinFrame) (recs : List MetaRecord) (t s : State), s.portCarries f.port = true ∧ f.side ≠ s.side ∧ s.bump (pTP f.port) 0x048 = t ∧ f.body = .mirrorMeta recs :=
  ⟨{ port := 0, side := 1, epoch := 0, mseq := 0, txCount := 0, body := .mirrorMeta [] }, [], (wPort).bump (pTP 0) 0x048, wPort, by decide +kernel, by decide +kernel, rfl, by decide +kernel⟩

theorem test_wit_twin_frames_complete_mackRx : ∃ (f : TwinFrame) (applied rx map q x : Nat) (grants : List Nat) (t s : State), s.portCarries f.port = true ∧ f.side ≠ s.side ∧ s.bump (pTP f.port) 0x048 = t ∧ f.body = .mack applied rx map q x grants :=
  ⟨{ port := 0, side := 1, epoch := 0, mseq := 0, txCount := 0, body := .mack 0 0 0 0 0 [] }, 0, 0, 0, 0, 0, [], (wPort).bump (pTP 0) 0x048, wPort, by decide +kernel, by decide +kernel, rfl, by decide +kernel⟩

theorem test_wit_twin_frames_complete_leaseRx : ∃ (f : TwinFrame) (id w : Nat) (v t s : State), s.portCarries f.port = true ∧ f.side ≠ s.side ∧ s.bump (pTP f.port) 0x048 = t ∧ f.body = .lease id w ∧ f.epoch = t.epoch ∧ t.takeStatus w = v ∧ (v.pair = 1 ∨ v.pair = 2 ∧ v.twin.survive = false ∧ v.twin.yielded = false) :=
  ⟨{ port := 0, side := 1, epoch := 0, mseq := 0, txCount := 0, body := .lease 0 0 }, 0, 0, ((wPort.setFld pTWC 0x044 2 0 1).bump (pTP 0) 0x048).takeStatus 0, (wPort.setFld pTWC 0x044 2 0 1).bump (pTP 0) 0x048, wPort.setFld pTWC 0x044 2 0 1, by decide +kernel, by decide +kernel, rfl, by decide +kernel, by decide +kernel, rfl, by decide +kernel⟩

theorem test_wit_twin_frames_complete_leaseGrantRx : ∃ (f : TwinFrame) (id w term n : Nat) (t s : State), s.portCarries f.port = true ∧ f.side ≠ s.side ∧ s.bump (pTP f.port) 0x048 = t ∧ f.body = .leaseGrant id w term ∧ f.epoch = t.epoch ∧ KM.get t.twin.leases id = some n ∧ t.pair = 1 :=
  ⟨{ port := 0, side := 1, epoch := 0, mseq := 0, txCount := 0, body := .leaseGrant 0 0 150 }, 0, 0, 150, 0, ({ wPort.setFld pTWC 0x044 2 0 1 with twin.leases := [(0, 0)] }).bump (pTP 0) 0x048, { wPort.setFld pTWC 0x044 2 0 1 with twin.leases := [(0, 0)] }, by decide +kernel, by decide +kernel, rfl, by decide +kernel⟩

theorem test_wit_twin_frames_complete_leaseGrantRx2 : ∃ (f : TwinFrame) (id w term n : Nat) (t s : State), s.portCarries f.port = true ∧ f.side ≠ s.side ∧ s.bump (pTP f.port) 0x048 = t ∧ f.body = .leaseGrant id w term ∧ f.epoch = t.epoch ∧ KM.get t.twin.leases id = some n ∧ t.pair = 2 :=
  ⟨{ port := 0, side := 1, epoch := 0, mseq := 0, txCount := 0, body := .leaseGrant 0 0 150 }, 0, 0, 150, 0, ({ wPort.setFld pTWC 0x044 2 0 2 with twin.leases := [(0, 0)] }).bump (pTP 0) 0x048, { wPort.setFld pTWC 0x044 2 0 2 with twin.leases := [(0, 0)] }, by decide +kernel, by decide +kernel, rfl, by decide +kernel⟩

theorem test_wit_twin_frames_complete_noticeRx : ∃ (f : TwinFrame) (code w : Nat) (v t s : State), s.portCarries f.port = true ∧ f.side ≠ s.side ∧ s.bump (pTP f.port) 0x048 = t ∧ f.body = .notice code w ∧ t.takeStatus w = v ∧ (code = 3 ∧ (v.pair = 1 ∨ v.pair = 2) ∧ v.power.tripped = false) :=
  ⟨{ port := 0, side := 1, epoch := 0, mseq := 0, txCount := 0, body := .notice 3 0 }, 3, 0, ((wPort.setFld pTWC 0x044 2 0 1).bump (pTP 0) 0x048).takeStatus 0, (wPort.setFld pTWC 0x044 2 0 1).bump (pTP 0) 0x048, wPort.setFld pTWC 0x044 2 0 1, by decide +kernel, by decide +kernel, rfl, by decide +kernel, rfl, by decide +kernel⟩

theorem test_wit_twin_frames_complete_noticeRx2 : ∃ (f : TwinFrame) (code w : Nat) (t s : State), s.portCarries f.port = true ∧ f.side ≠ s.side ∧ s.bump (pTP f.port) 0x048 = t ∧ f.body = .notice code w ∧ code ≠ 3 :=
  ⟨{ port := 0, side := 1, epoch := 0, mseq := 0, txCount := 0, body := .notice 4 0 }, 4, 0, (wPort).bump (pTP 0) 0x048, wPort, by decide +kernel, by decide +kernel, rfl, by decide +kernel⟩

theorem test_wit_twin_frames_complete_readReqRx : ∃ (f : TwinFrame) (id dpa len after purpose : Nat) (t s : State), s.portCarries f.port = true ∧ f.side ≠ s.side ∧ s.bump (pTP f.port) 0x048 = t ∧ f.body = .readReq id dpa len after purpose :=
  ⟨{ port := 0, side := 1, epoch := 0, mseq := 0, txCount := 0, body := .readReq 0 0 0 0 0 }, 0, 0, 0, 0, 0, (wPort).bump (pTP 0) 0x048, wPort, by decide +kernel, by decide +kernel, rfl, by decide +kernel⟩

theorem test_wit_twin_frames_complete_readDataRx : ∃ (f : TwinFrame) (id dpa map n m : Nat) (bs : List Byte) (q : ReadReq) (rs : Bool) (t s : State), s.portCarries f.port = true ∧ f.side ≠ s.side ∧ s.bump (pTP f.port) 0x048 = t ∧ f.body = .readData id dpa map bs ∧ (t.twin.reqs.find? fun q => q.id == id) = some q ∧ dpa = q.dpa ∧ bs.length = q.len ∧ q.waiter = .job n m rs :=
  ⟨{ port := 0, side := 1, epoch := 0, mseq := 0, txCount := 0, body := .readData 0 0 0 [] }, 0, 0, 0, 0, 0, [], ask0 (.job 0 0 false), false, (wAsk (.job 0 0 false)).bump (pTP 0) 0x048, wAsk (.job 0 0 false), by decide +kernel, by decide +kernel, rfl, by decide +kernel⟩

theorem test_wit_twin_frames_complete_readDataRx2 : ∃ (f : TwinFrame) (id dpa map loc : Nat) (bs : List Byte) (q : ReadReq) (t s : State), s.portCarries f.port = true ∧ f.side ≠ s.side ∧ s.bump (pTP f.port) 0x048 = t ∧ f.body = .readData id dpa map bs ∧ (t.twin.reqs.find? fun q => q.id == id) = some q ∧ dpa = q.dpa ∧ bs.length = q.len ∧ q.waiter = .cellar loc :=
  ⟨{ port := 0, side := 1, epoch := 0, mseq := 0, txCount := 0, body := .readData 0 0 0 [] }, 0, 0, 0, 0, [], ask0 (.cellar 0), (wAsk (.cellar 0)).bump (pTP 0) 0x048, wAsk (.cellar 0), by decide +kernel, by decide +kernel, rfl, by decide +kernel⟩

theorem test_wit_twin_frames_complete_readDataRx3 : ∃ (f : TwinFrame) (id dpa map d : Nat) (bs : List Byte) (q : ReadReq) (v t s : State), s.portCarries f.port = true ∧ f.side ≠ s.side ∧ s.bump (pTP f.port) 0x048 = t ∧ f.body = .readData id dpa map bs ∧ (t.twin.reqs.find? fun q => q.id == id) = some q ∧ dpa = q.dpa ∧ bs.length = q.len ∧ q.waiter = .line d ∧ ({ t with twin.reqs := t.twin.reqs.filter fun x => x.id ≠ id } : State) = v :=
  ⟨{ port := 0, side := 1, epoch := 0, mseq := 0, txCount := 0, body := .readData 0 0 0 [] }, 0, 0, 0, 0, [], ask0 (.line 0), { (wAsk (.line 0)).bump (pTP 0) 0x048 with twin.reqs := [] }, (wAsk (.line 0)).bump (pTP 0) 0x048, wAsk (.line 0), by decide +kernel, by decide +kernel, rfl, by decide +kernel, by decide +kernel, by decide +kernel, by decide +kernel, by decide +kernel, rfl⟩

theorem test_wit_twin_frames_complete_readDataRx4 : ∃ (f : TwinFrame) (id dpa map page : Nat) (bs : List Byte) (q : ReadReq) (t s : State), s.portCarries f.port = true ∧ f.side ≠ s.side ∧ s.bump (pTP f.port) 0x048 = t ∧ f.body = .readData id dpa map bs ∧ (t.twin.reqs.find? fun q => q.id == id) = some q ∧ dpa = q.dpa ∧ bs.length = q.len ∧ q.waiter = .leftBehind page ∧ page ∈ t.power.leftBehind :=
  ⟨{ port := 0, side := 1, epoch := 0, mseq := 0, txCount := 0, body := .readData 0 0 0 [] }, 0, 0, 0, 0, [], ask0 (.leftBehind 0), ({ wAsk (.leftBehind 0) with power.leftBehind := [0] }).bump (pTP 0) 0x048, { wAsk (.leftBehind 0) with power.leftBehind := [0] }, by decide +kernel, by decide +kernel, rfl, by decide +kernel⟩

theorem test_wit_twin_frames_complete_logRx : ∃ (f : TwinFrame) (loft cellar : List Nat) (last : Bool) (t s : State), s.portCarries f.port = true ∧ f.side ≠ s.side ∧ s.bump (pTP f.port) 0x048 = t ∧ f.body = .log loft cellar last :=
  ⟨{ port := 0, side := 1, epoch := 0, mseq := 0, txCount := 0, body := .log [] [] true }, [], [], true, (wPort).bump (pTP 0) 0x048, wPort, by decide +kernel, by decide +kernel, rfl, by decide +kernel⟩

theorem test_wit_twin_frames_complete_auditReqRx : ∃ (f : TwinFrame) (page id : Nat) (t s : State), s.portCarries f.port = true ∧ f.side ≠ s.side ∧ s.bump (pTP f.port) 0x048 = t ∧ f.body = .auditReq page id :=
  ⟨{ port := 0, side := 1, epoch := 0, mseq := 0, txCount := 0, body := .auditReq 0 0 }, 0, 0, (wPort).bump (pTP 0) 0x048, wPort, by decide +kernel, by decide +kernel, rfl, by decide +kernel⟩

theorem test_wit_twin_frames_complete_auditDigestRx : ∃ (f : TwinFrame) (id map page mine : Nat) (d own : List Byte) (a : Audit) (t s : State), s.portCarries f.port = true ∧ f.side ≠ s.side ∧ s.bump (pTP f.port) 0x048 = t ∧ f.body = .auditDigest id d map ∧ t.twin.audit = some a ∧ (a.open_.find? fun x => x.1 == id) = some (id, page, own, mine) :=
  ⟨{ port := 0, side := 1, epoch := 0, mseq := 0, txCount := 0, body := .auditDigest 0 [] 0 }, 0, 0, 0, 0, [], [], audit0, ({ wPort with twin.audit := some audit0 }).bump (pTP 0) 0x048, { wPort with twin.audit := some audit0 }, by decide +kernel, by decide +kernel, rfl, by decide +kernel⟩

theorem test_wit_twin_frames_complete_helloRx : ∃ (f : TwinFrame) (st serial : Nat) (held valid : Bool) (v t s : State), s.portCarries f.port = true ∧ f.side ≠ s.side ∧ s.bump (pTP f.port) 0x048 = t ∧ f.body = .hello st held valid serial ∧ t.pair ≠ 1 ∧ t.pair ≠ 5 ∧ t.twin.resync = none ∧ { (t.sendFrame (t.plainFrame f.port t.helloBody)).restartSequence with twin.peerLog := false, twin.peerLogValid := valid, twin.epochGap := decide (f.epoch + 1 < (t.sendFrame (t.plainFrame f.port t.helloBody)).restartSequence.epoch), twin.seen := true } = v ∧ v.pair = 0 ∧ f.epoch = v.epoch :=
  ⟨{ port := 0, side := 1, epoch := 0, mseq := 0, txCount := 0, body := .hello 3 false true 1 }, 3, 1, false, true, wHelloV ((wPort).bump (pTP 0) 0x048) { port := 0, side := 1, epoch := 0, mseq := 0, txCount := 0, body := .hello 3 false true 1 } true, (wPort).bump (pTP 0) 0x048, wPort, by decide +kernel, by decide +kernel, rfl, by decide +kernel, by decide +kernel, by decide +kernel, by decide +kernel, rfl, by decide +kernel⟩

theorem test_wit_twin_frames_complete_helloRx2 : ∃ (f : TwinFrame) (st serial : Nat) (held valid : Bool) (v t s : State), s.portCarries f.port = true ∧ f.side ≠ s.side ∧ s.bump (pTP f.port) 0x048 = t ∧ f.body = .hello st held valid serial ∧ t.pair ≠ 1 ∧ t.pair ≠ 5 ∧ t.twin.resync = none ∧ { (t.sendFrame (t.plainFrame f.port t.helloBody)).restartSequence with twin.peerLog := false, twin.peerLogValid := valid, twin.epochGap := decide (f.epoch + 1 < (t.sendFrame (t.plainFrame f.port t.helloBody)).restartSequence.epoch), twin.seen := true } = v ∧ v.pair = 0 ∧ f.epoch < v.epoch :=
  ⟨{ port := 0, side := 1, epoch := 0, mseq := 0, txCount := 0, body := .hello 3 false true 1 }, 3, 1, false, true, wHelloV ((wPort.setNum pTWC 0x048 1).bump (pTP 0) 0x048) { port := 0, side := 1, epoch := 0, mseq := 0, txCount := 0, body := .hello 3 false true 1 } true, (wPort.setNum pTWC 0x048 1).bump (pTP 0) 0x048, wPort.setNum pTWC 0x048 1, by decide +kernel, by decide +kernel, rfl, by decide +kernel, by decide +kernel, by decide +kernel, by decide +kernel, rfl, by decide +kernel⟩

theorem test_wit_twin_frames_complete_helloRx3 : ∃ (f : TwinFrame) (st serial : Nat) (held valid : Bool) (v t s : State), s.portCarries f.port = true ∧ f.side ≠ s.side ∧ s.bump (pTP f.port) 0x048 = t ∧ f.body = .hello st held valid serial ∧ t.pair ≠ 1 ∧ t.pair ≠ 5 ∧ t.twin.resync = none ∧ { (t.sendFrame (t.plainFrame f.port t.helloBody)).restartSequence with twin.peerLog := false, twin.peerLogValid := valid, twin.epochGap := decide (f.epoch + 1 < (t.sendFrame (t.plainFrame f.port t.helloBody)).restartSequence.epoch), twin.seen := true } = v ∧ v.pair = 3 :=
  ⟨{ port := 0, side := 1, epoch := 0, mseq := 0, txCount := 0, body := .hello 3 false true 1 }, 3, 1, false, true, wHelloV ((wPort.setFld pTWC 0x044 2 0 3).bump (pTP 0) 0x048) { port := 0, side := 1, epoch := 0, mseq := 0, txCount := 0, body := .hello 3 false true 1 } true, (wPort.setFld pTWC 0x044 2 0 3).bump (pTP 0) 0x048, wPort.setFld pTWC 0x044 2 0 3, by decide +kernel, by decide +kernel, rfl, by decide +kernel, by decide +kernel, by decide +kernel, by decide +kernel, rfl, by decide +kernel⟩

theorem test_wit_twin_frames_complete_helloRx4 : ∃ (f : TwinFrame) (st serial : Nat) (held valid : Bool) (v t s : State), s.portCarries f.port = true ∧ f.side ≠ s.side ∧ s.bump (pTP f.port) 0x048 = t ∧ f.body = .hello st held valid serial ∧ t.pair ≠ 1 ∧ t.pair ≠ 5 ∧ t.twin.resync = none ∧ { (t.sendFrame (t.plainFrame f.port t.helloBody)).restartSequence with twin.peerLog := false, twin.peerLogValid := valid, twin.epochGap := decide (f.epoch + 1 < (t.sendFrame (t.plainFrame f.port t.helloBody)).restartSequence.epoch), twin.seen := true } = v ∧ v.pair = 4 ∧ st = 3 :=
  ⟨{ port := 0, side := 1, epoch := 0, mseq := 0, txCount := 0, body := .hello 3 false true 1 }, 3, 1, false, true, wHelloV ((wPort.setFld pTWC 0x044 2 0 4).bump (pTP 0) 0x048) { port := 0, side := 1, epoch := 0, mseq := 0, txCount := 0, body := .hello 3 false true 1 } true, (wPort.setFld pTWC 0x044 2 0 4).bump (pTP 0) 0x048, wPort.setFld pTWC 0x044 2 0 4, by decide +kernel, by decide +kernel, rfl, by decide +kernel, by decide +kernel, by decide +kernel, by decide +kernel, rfl, by decide +kernel⟩

/-! TwinTimersComplete -/

theorem test_wit_twin_timers_complete_twinFrameDrop : ∃ (port : Nat) (s : State), s.portCarries port = true :=
  ⟨0, wPort, by decide +kernel⟩

theorem test_wit_twin_timers_complete_mackSendTimer : ∃ (port : Nat) (s : State), s.portCarries port = true :=
  ⟨0, wPort, by decide +kernel⟩

theorem test_wit_twin_timers_complete_twinRtoExpire : ∃ (mseq : Nat) (x : SentFrame) (s : State), (s.twin.sent.find? fun x => x.frame.mseq == mseq) = some x ∧ x.queued = false :=
  ⟨0, sent0, { wPort with twin.sent := [sent0] }, by decide +kernel⟩

theorem test_wit_twin_timers_complete_mirrorUnappliedLimit : ∃ (mseq : Nat) (s : State), (s.twin.sent.any fun x => x.frame.mseq == mseq) = true :=
  ⟨0, { wPort with twin.sent := [sent0] }, by decide +kernel⟩

theorem test_wit_twin_timers_complete_leaseSendTimer : ∃ (s : State), (s.pair = 1 ∨ s.pair = 2) :=
  ⟨wReg pTWC 0x044 1, by decide +kernel⟩

theorem test_wit_twin_timers_complete_grantMissingExpire : ∃ (s : State), s.pair = 1 :=
  ⟨wReg pTWC 0x044 1, by decide +kernel⟩

theorem test_wit_twin_timers_complete_helloTimeout : ∃ (s : State), s.pair = 0 :=
  ⟨State.reset, by decide +kernel⟩

theorem test_wit_twin_timers_complete_witnessVerdictWrite : ∃ (req : Requester) (data : Word) (v s : State), s.writable req pTWC = true ∧ s.resultValid pTWC 0x054 = true ∧ bits data 15 0 = s.fld pTWC 0x054 15 0 ∧ s.consume pTWC 0x054 = v ∧ v.pair = 2 ∧ bits data 31 30 = 1 :=
  ⟨.steward, 0x40000000, ((wReg pTWC 0x044 2).setFld pTWC 0x054 31 31 1).consume pTWC 0x054, ((wReg pTWC 0x044 2).setFld pTWC 0x054 31 31 1), by decide +kernel, by decide +kernel, by decide +kernel, rfl, by decide +kernel⟩

theorem test_wit_twin_timers_complete_witnessVerdictWrite2 : ∃ (req : Requester) (data : Word) (v s : State), s.writable req pTWC = true ∧ s.resultValid pTWC 0x054 = true ∧ bits data 15 0 = s.fld pTWC 0x054 15 0 ∧ s.consume pTWC 0x054 = v ∧ v.pair = 2 ∧ bits data 31 30 = 2 :=
  ⟨.steward, 0x80000000, ((wReg pTWC 0x044 2).setFld pTWC 0x054 31 31 1).consume pTWC 0x054, ((wReg pTWC 0x044 2).setFld pTWC 0x054 31 31 1), by decide +kernel, by decide +kernel, by decide +kernel, rfl, by decide +kernel⟩

theorem test_wit_twin_timers_complete_soloEnter : ∃ (s : State), s.pair = 2 ∧ s.twin.survive = true :=
  ⟨{ wReg pTWC 0x044 2 with twin.survive := true }, by decide +kernel⟩

theorem test_wit_twin_timers_complete_twinPortLinkDown : ∃ (port : Nat) (s : State), port < 4 ∧ bit (s.reg (pTP port) 0x040) 0 = true :=
  ⟨0, wPort, by decide +kernel⟩

theorem test_wit_twin_timers_complete_twinPortLinkUp : ∃ (port : Nat) (s : State), port < 4 ∧ bit (s.reg (pTP port) 0x040) 2 = false ∧ bit (s.reg pTWC 0x040) port = true ∧ s.fld (pTP port) 0x110 3 0 = 0 :=
  ⟨0, wPort, by decide +kernel⟩

theorem test_wit_twin_timers_complete_portEnWrite : ∃ (req : Requester) (s : State), s.writable req pTWC = true :=
  ⟨.steward, State.reset, by decide +kernel⟩

theorem test_wit_twin_timers_complete_readReqTimeout : ∃ (id : Nat) (q : ReadReq) (s : State), (s.twin.reqs.find? fun q => q.id == id) = some q ∧ q.resent = false ∧ s.twinPorts ≠ [] :=
  ⟨0, ask0 (.cellar 0), wAsk (.cellar 0), by decide +kernel⟩

theorem test_wit_twin_timers_complete_readReqTimeout2 : ∃ (id : Nat) (q : ReadReq) (s : State), (s.twin.reqs.find? fun q => q.id == id) = some q ∧ q.resent = true :=
  ⟨0, { ask0 (.cellar 0) with resent := true }, { wPort with twin.reqs := [{ ask0 (.cellar 0) with resent := true }] }, by decide +kernel⟩

/-! FlashComplete -/

theorem test_wit_flash_complete_nandReadDone : ∃ (loc : Nat) (ok : Bool) (bits : Nat) (m : Miss) (f : FlashPage) (v s : State), (s.cellar.misses.find? fun m => m.loc == loc) = some m ∧ m.step < 5 ∧ s.classD = false ∧ (let a := s.countReads m
      let b := if m.step = 1 ∧ ok = false then a.bump (locPageIndex loc) 0x05C else a
      let c := if m.step = 1 ∧ ok ∧ b.fld (locPageIndex loc) 0x048 15 8 ≤ bits then b.earlyWarn loc else b
      if m.step = 1 ∧ ok then c.codeword bits else c) = v ∧ KM.get v.cellar.flash loc = some f :=
  ⟨0, true, 0, miss0, wFlash, (wMiss.countReads miss0).codeword 0, wMiss, by decide +kernel, by decide +kernel, by decide +kernel, rfl, by decide +kernel⟩

theorem test_wit_flash_complete_sheafWaitExpire : ∃ (region key : Nat) (b : OpenBand) (s : State), region < 4 ∧ key < 66 ∧ KM.get s.cellar.open_ (66 * region + key) = some b ∧ b.used ≠ [] :=
  ⟨0, 0, { lun := 0, block := 1040, used := [0] }, { State.reset with cellar.open_ := [(0, { lun := 0, block := 1040, used := [0] })] }, by decide +kernel⟩

theorem test_wit_flash_complete_relocationCopyDone : ∃ (loc : Nat) (v w x : State) (f : FlashPage) (k n : Nat) (s : State), s.relocatable loc = true ∧ { s with cellar.rewrites := s.cellar.rewrites.filter (· ≠ loc) } = v ∧ KM.get s.cellar.flash loc = some f ∧ (v.relocBand 64 (locRegion loc) 0).1 = some k ∧ (v.relocBand 64 (locRegion loc) 0).2 = w ∧ w.slotIn (locRegion loc) k f.page = some n ∧ (w.takeSlot (locRegion loc) k n).program n f = x :=
  ⟨0, wMoveV, wMoveW, (wMoveW.takeSlot (locRegion 0) wMoveK wMoveLoc).program wMoveLoc wFlash, wFlash, wMoveK, wMoveLoc, wMove, by decide +kernel, rfl, by decide +kernel, by decide +kernel, rfl, by decide +kernel, rfl⟩

theorem test_wit_flash_complete_dailyWearRelocation : ∃ (region b : Nat) (s : State), region < 4 ∧ s.leastWorn (s.candidates region) = some b ∧ s.peOf b * s.generalBands < s.peSum region :=
  ⟨0, (wWorn.leastWorn (wWorn.candidates 0)).getD 0, wWorn, by decide +kernel⟩

theorem test_wit_flash_complete_programFail : ∃ (channel lun block : Nat) (s : State), channel < 64 ∧ lun < 16 ∧ block < s.lunBlocks ∧ s.absent (pNC channel) = false :=
  ⟨0, 0, 0, State.reset, by decide +kernel⟩

theorem test_wit_flash_complete_eraseFail : ∃ (channel lun block : Nat) (s : State), channel < 64 ∧ lun < 16 ∧ block < s.lunBlocks ∧ s.absent (pNC channel) = false :=
  ⟨0, 0, 0, State.reset, by decide +kernel⟩

theorem test_wit_flash_complete_lunRetireWrite : ∃ (req : Requester) (channel : Nat) (s : State), channel < 64 ∧ s.writable req (pNC channel) = true :=
  ⟨.steward, 0, State.reset, by decide +kernel⟩

theorem test_wit_flash_complete_lunFault : ∃ (channel lun : Nat) (s : State), channel < 64 ∧ lun < 16 ∧ s.absent (pNC channel) = false :=
  ⟨0, 0, State.reset, by decide +kernel⟩

theorem test_wit_flash_complete_lunRetired : ∃ (channel lun : Nat) (v s : State), channel < 64 ∧ lun < 16 ∧ s.fld (pNC channel) 0x044 (2 * lun + 1) (2 * lun) = 1 ∧ (s.cellar.victims.any fun b => decide (b / 16384 = channel / 16 * 16 + lun)) = false ∧ (s.setLun channel lun 2).fire (pNC channel) 3 = v :=
  ⟨0, 0, ((wReg (pNC 0) 0x044 1).setLun 0 0 2).fire (pNC 0) 3, wReg (pNC 0) 0x044 1, by decide +kernel, by decide +kernel, by decide +kernel, by decide +kernel, rfl⟩

theorem test_wit_flash_complete_stagingReadDone : ∃ (page : Nat) (f : StageFill) (v s : State), s.cellar.stageFills.find? (fun f => f.page == page) = some f ∧ ({ s with cellar.stageFills := s.cellar.stageFills.filter fun x => x.page ≠ page }) = v ∧ (f.stale = true ∨ (s.mapOf page).state ≠ .mapped) :=
  ⟨0, { page := 0, stale := true, op := 0 }, { State.reset with cellar.stageFills := [] }, { State.reset with cellar.stageFills := [{ page := 0, stale := true, op := 0 }] }, by decide +kernel, rfl, by decide +kernel⟩

theorem test_wit_flash_complete_stagingReadDone2 : ∃ (page : Nat) (f : StageFill) (v s : State), s.cellar.stageFills.find? (fun f => f.page == page) = some f ∧ ({ s with cellar.stageFills := s.cellar.stageFills.filter fun x => x.page ≠ page }) = v ∧ f.stale = false ∧ (s.mapOf page).state = .mapped :=
  ⟨0, { page := 0, stale := false, op := 0 }, { wStage with cellar.stageFills := [] }, wStage, by decide +kernel, rfl, by decide +kernel⟩

theorem test_wit_flash_complete_stagingReadDone3 : ∃ (page : Nat) (f : StageFill) (v s : State), s.cellar.stageFills.find? (fun f => f.page == page) = some f ∧ ({ s with cellar.stageFills := s.cellar.stageFills.filter fun x => x.page ≠ page }) = v ∧ f.stale = false ∧ (s.mapOf page).state = .mapped :=
  ⟨0, { page := 0, stale := false, op := 0 }, { wStage with cellar.stageFills := [] }, wStage, by decide +kernel, rfl, by decide +kernel⟩

/-! DramComplete -/

theorem test_wit_dram_complete_refreshInterval : ∃ (channel rank : Nat) (s : State), s.hasChannel channel = true ∧ rank < 4 ∧ bit (s.reg (pDC channel) 0x048) 0 = false :=
  ⟨0, 0, State.reset, by decide +kernel⟩

theorem test_wit_dram_complete_rowActivation : ∃ (channel sub rank group bank row tenant : Nat) (b : Bank) (e : ActEntry) (w s : State), s.hasChannel channel = true ∧ sub < 2 ∧ rank < 4 ∧ group < 8 ∧ bank < 4 ∧ s.bank (bankKey channel sub rank group bank) = b ∧ (let v := (s.setBank (bankKey channel sub rank group bank) { row := some row, entries := activate row tenant b.entries }).bump (pDC channel) 0x054
    let v := v.setRank channel rank { v.rank channel rank with powerDown := false }
    if (KM.get v.dram.throttles (channel / 6 * 4096 + tenant)).isSome then v.bump (pDC channel) 0x06C else v) = w ∧ (activate row tenant b.entries).find? (fun e => e.row == row) = some e ∧ e.count < w.fld (pDC channel) 0x044 31 16 :=
  ⟨0, 0, 0, 0, 0, 0, 0, State.reset.bank (bankKey 0 0 0 0 0), wAct, ((State.reset.setBank (bankKey 0 0 0 0 0) { row := some 0, entries := activate 0 0 [] }).bump (pDC 0) 0x054).setRank 0 0 { ((State.reset.setBank (bankKey 0 0 0 0 0) { row := some 0, entries := activate 0 0 [] }).bump (pDC 0) 0x054).rank 0 0 with powerDown := false }, State.reset, by decide +kernel, by decide +kernel, by decide +kernel, by decide +kernel, by decide +kernel, rfl, rfl, by decide +kernel, by decide +kernel⟩

theorem test_wit_dram_complete_rowActivation2 : ∃ (channel sub rank group bank row tenant : Nat) (b : Bank) (e : ActEntry) (w s : State), s.hasChannel channel = true ∧ sub < 2 ∧ rank < 4 ∧ group < 8 ∧ bank < 4 ∧ s.bank (bankKey channel sub rank group bank) = b ∧ (let v := (s.setBank (bankKey channel sub rank group bank) { row := some row, entries := activate row tenant b.entries }).bump (pDC channel) 0x054
    let v := v.setRank channel rank { v.rank channel rank with powerDown := false }
    if (KM.get v.dram.throttles (channel / 6 * 4096 + tenant)).isSome then v.bump (pDC channel) 0x06C else v) = w ∧ (activate row tenant b.entries).find? (fun e => e.row == row) = some e ∧ w.fld (pDC channel) 0x044 31 16 ≤ e.count :=
  ⟨0, 0, 0, 0, 0, 0, 0, (wReg (pDC 0) 0x044 0).bank (bankKey 0 0 0 0 0), wAct, (((wReg (pDC 0) 0x044 0).setBank (bankKey 0 0 0 0 0) { row := some 0, entries := activate 0 0 [] }).bump (pDC 0) 0x054).setRank 0 0 { (((wReg (pDC 0) 0x044 0).setBank (bankKey 0 0 0 0 0) { row := some 0, entries := activate 0 0 [] }).bump (pDC 0) 0x054).rank 0 0 with powerDown := false }, wReg (pDC 0) 0x044 0, by decide +kernel, by decide +kernel, by decide +kernel, by decide +kernel, by decide +kernel, rfl, rfl, by decide +kernel, by decide +kernel⟩

theorem test_wit_dram_complete_rankPdIdle : ∃ (channel rank : Nat) (s : State), s.hasChannel channel = true ∧ rank < 4 ∧ s.fld (pDC channel) 0x040 15 8 ≠ 0 :=
  ⟨0, 0, wReg (pDC 0) 0x040 0x100, by decide +kernel⟩

theorem test_wit_dram_complete_dimmTempPoll : ∃ (channel : Nat) (s : State), s.hasChannel channel = true :=
  ⟨0, State.reset, by decide +kernel⟩

theorem test_wit_dram_complete_spdFault : ∃ (channel : Nat) (s : State), s.hasChannel channel = true ∧ (s.channelInfo channel).unreadable = true :=
  ⟨0, State.reset.setChannelInfo 0 { unreadable := true }, by decide +kernel⟩

theorem test_wit_dram_complete_retrainReqWrite : ∃ (req : Requester) (region : Nat) (s : State), region < 4 ∧ s.writable req (pRG region) = true :=
  ⟨.steward, 0, State.reset, by decide +kernel⟩

theorem test_wit_dram_complete_retrainBypassStart : ∃ (region : Nat) (s : State), region < 4 ∧ s.dueOf region ≠ 0 ∧ s.ownSequence region = false ∧ s.otherBusy region = false ∧ s.lowerFirst region = false ∧ s.dueRepair region = none :=
  ⟨0, wReg (pRG 0) 0x148 1, by decide +kernel⟩

theorem test_wit_dram_complete_retrainBypassStart2 : ∃ (region : Nat) (x : Nat × Nat × Nat) (s : State), region < 4 ∧ s.dueOf region ≠ 0 ∧ s.ownSequence region = false ∧ s.otherBusy region = false ∧ s.lowerFirst region = false ∧ s.dueRepair region = some x :=
  ⟨0, (0, 0, 0), (wReg (pRG 0) 0x148 1).setChannelInfo 0 { repairs := [(0, 0)] }, by decide +kernel⟩

theorem test_wit_dram_complete_trainStepDone : ∃ (region : Nat) (t : Train) (s : State), KM.get s.dram.trains region = some t ∧ t.phase ≠ .repairStep ∧ (t.kind = .speed ∨ s.speedTarget region = s.speedOf region) ∧ t.step + 1 < phaseSteps t.phase :=
  ⟨0, wTrain .retrain .csCa, wTrains .retrain .csCa, by decide +kernel⟩

theorem test_wit_dram_complete_trainStepDone2 : ∃ (region : Nat) (t : Train) (v s : State), KM.get s.dram.trains region = some t ∧ t.phase ≠ .repairStep ∧ (t.kind = .speed ∨ s.speedTarget region = s.speedOf region) ∧ phaseSteps t.phase ≤ t.step + 1 ∧ t.phase ≠ .verify ∧ (if nextPhase t.kind t.phase = .repairStep then (if t.phase = .quiesce then s.quiesce (regionChannels region) else s).refreshTo t.repair.1 (-8) false [0, 1, 2, 3] else (if t.phase = .quiesce then s.quiesce (regionChannels region) else s)) = v :=
  ⟨0, wTrain .retrain .zq, wTrains .retrain .zq, wTrains .retrain .zq, by decide +kernel, by decide +kernel, by decide +kernel, by decide +kernel, by decide +kernel, rfl⟩

theorem test_wit_dram_complete_trainVerifyDone : ∃ (region working committed : Nat) (t : Train) (lost : List Nat) (s : State), KM.get s.dram.trains region = some t ∧ t.phase = .verify ∧ (maskChannels region t.channels).filter (fun c => !working.testBit (c % 6) && !committed.testBit (c % 6)) = lost ∧ lost = [] :=
  ⟨0, 1, 0, wTrain .retrain .verify, [], wTrains .retrain .verify, by decide +kernel⟩

theorem test_wit_dram_complete_trainVerifyDone2 : ∃ (region working committed : Nat) (t : Train) (lost : List Nat) (s : State), KM.get s.dram.trains region = some t ∧ t.phase = .verify ∧ (maskChannels region t.channels).filter (fun c => !working.testBit (c % 6) && !committed.testBit (c % 6)) = lost ∧ lost ≠ [] :=
  ⟨0, 0, 0, wTrain .retrain .verify, [0], wTrains .retrain .verify, by decide +kernel⟩

theorem test_wit_dram_complete_retrainDeferred : ∃ (region : Nat) (s : State), (KM.get s.dram.deferred region).isSome = true :=
  ⟨0, { State.reset with dram.deferred := KM.put [] 0 default }, by decide +kernel⟩

theorem test_wit_dram_complete_speedChangeStart : ∃ (region : Nat) (s : State), region < 4 ∧ s.speedTarget region ≠ s.speedOf region ∧ s.ownSequence region = false ∧ s.otherBusy region = false :=
  ⟨0, wReg (pRG 0) 0x140 0x1000000, by decide +kernel⟩

theorem test_wit_dram_complete_speedChangeDone : ∃ (region : Nat) (t : Train) (v s : State), KM.get s.dram.trains region = some t ∧ t.kind = .speed ∧ s.setSpeed t.speed (regionChannels region) = v :=
  ⟨0, wTrain .speed .verify, (wTrains .speed .verify).setSpeed 0 (regionChannels 0), wTrains .speed .verify, by decide +kernel, by decide +kernel, rfl⟩

theorem test_wit_dram_complete_hardRepairStepDone : ∃ (region : Nat) (t : Train) (v s : State), KM.get s.dram.trains region = some t ∧ t.phase = .repairStep ∧ s.repairDone region t = v :=
  ⟨0, wTrain .repair .repairStep, (wTrains .repair .repairStep).repairDone 0 (wTrain .repair .repairStep), wTrains .repair .repairStep, by decide +kernel, by decide +kernel, rfl⟩

theorem test_wit_dram_complete_softRepairDone : ∃ (channel sub rank group bank row : Nat) (v s : State), (s.integ.soft.any fun x => decide (x.row = { channel, sub, rank, group, bank, row, column := 0 }) && x.running) = true ∧ { s with integ.soft := s.integ.soft.map fun (x : SoftRepair) => if x.row = { channel, sub, rank, group, bank, row, column := 0 } then { x with running := false } else x } = v :=
  ⟨0, 0, 0, 0, 0, 0, wSoft false, wSoft true, by decide +kernel, rfl⟩

/-! IntegrityComplete -/

theorem test_wit_integrity_complete_loftLineDecode : ∃ (dpa : Nat) (errors : List (Nat × Byte)) (reader : LineReader) (es fix : List (Nat × Byte)) (u v s : State), dpa < s.loftTop ∧ s.recovering (dpa / 64) = false ∧ errors.filter (fun e => decide (e.1 < 80)) = es ∧ (s.rowHit dpa).bump (pDC (s.placeOf dpa).channel) 0x04C = u ∧ decodeLine (u.erasedAt (s.placeOf dpa)) (if s.poisoned (dpa / 64) then es ++ poisonPattern else es) = .clean fix ∧ (if reader = .demand then u.bump (pXT (s.placeOf dpa).channel) 0x048 else u) = v :=
  ⟨0, [], .demand, [], [], (State.reset.rowHit 0).bump (pDC (State.reset.placeOf 0).channel) 0x04C, ((State.reset.rowHit 0).bump (pDC (State.reset.placeOf 0).channel) 0x04C).bump (pXT (State.reset.placeOf 0).channel) 0x048, State.reset, by decide +kernel, by decide +kernel, by decide +kernel, rfl, by decide +kernel, rfl⟩

theorem test_wit_integrity_complete_loftLineDecode2 : ∃ (dpa : Nat) (errors : List (Nat × Byte)) (reader : LineReader) (es : List (Nat × Byte)) (u v w s : State), dpa < s.loftTop ∧ s.recovering (dpa / 64) = false ∧ errors.filter (fun e => decide (e.1 < 80)) = es ∧ (s.rowHit dpa).bump (pDC (s.placeOf dpa).channel) 0x04C = u ∧ decodeLine (u.erasedAt (s.placeOf dpa)) (if s.poisoned (dpa / 64) then es ++ poisonPattern else es) = .poisoned ∧ (if reader = .demand then (u.bump (pDC (s.placeOf dpa).channel) 0x11C).bump (pXT (s.placeOf dpa).channel) 0x04C else u.bump (pDC (s.placeOf dpa).channel) 0x11C) = v ∧ ((if s.poisoned (dpa / 64) ∨ reader = .scan then v else v.poisonLine (dpa / 64)) = w) :=
  ⟨0, [], .demand, [], (wBad.rowHit 0).bump (pDC (wBad.placeOf 0).channel) 0x04C, (((wBad.rowHit 0).bump (pDC (wBad.placeOf 0).channel) 0x04C).bump (pDC (wBad.placeOf 0).channel) 0x11C).bump (pXT (wBad.placeOf 0).channel) 0x04C, (((wBad.rowHit 0).bump (pDC (wBad.placeOf 0).channel) 0x04C).bump (pDC (wBad.placeOf 0).channel) 0x11C).bump (pXT (wBad.placeOf 0).channel) 0x04C, wBad, by decide +kernel, by decide +kernel, by decide +kernel, rfl, by decide +kernel, rfl, rfl⟩

theorem test_wit_integrity_complete_loftLineDecode3 : ∃ (dpa : Nat) (errors es : List (Nat × Byte)) (u s : State), dpa < s.loftTop ∧ s.recovering (dpa / 64) = false ∧ errors.filter (fun e => decide (e.1 < 80)) = es ∧ (s.rowHit dpa).bump (pDC (s.placeOf dpa).channel) 0x04C = u ∧ decodeLine (u.erasedAt (s.placeOf dpa)) (if s.poisoned (dpa / 64) then es ++ poisonPattern else es) = .uncorrectable :=
  ⟨0, wErr, wErr, (State.reset.rowHit 0).bump (pDC (State.reset.placeOf 0).channel) 0x04C, State.reset, by decide +kernel, by decide +kernel, by decide +kernel, rfl, by decide +kernel⟩

theorem test_wit_integrity_complete_lineRecoveryDone : ∃ (dpa : Nat) (g : Bool) (bs : List Byte) (s : State), KM.get s.loft.recov (dpa / 64) = some (2, g) ∧ s.shadowLine (dpa / 64) = some bs :=
  ⟨0, default, (wRecov.shadowLine 0).getD [], wRecov, by decide +kernel⟩

theorem test_wit_integrity_complete_lineRecoveryDone2 : ∃ (dpa : Nat) (s : State), (KM.get s.loft.recov (dpa / 64)).isSome = true :=
  ⟨0, wRecov, by decide +kernel⟩

theorem test_wit_integrity_complete_pageRetireDone : ∃ (page n : Nat) (v s : State), page ∈ s.integ.retiring ∧ (KM.get s.win.locks (lockKey (s.mapOf page).object (s.mapOf page).index)).isSome = false ∧ s.fld (pRG (s.regionOf page)) 0x184 8 0 = n ∧ n ≠ 0 ∧ { s with integ.retiring := s.integ.retiring.filter (· ≠ page), integ.remap := KM.put s.integ.remap page (256 - n) } = v :=
  ⟨0, 256, { State.reset with integ.retiring := [], integ.remap := KM.put [] 0 0 }, { State.reset with integ.retiring := [0] }, by decide +kernel, by decide +kernel, by decide +kernel, by decide +kernel, rfl⟩

theorem test_wit_integrity_complete_parityError2 : ∃ (page a : Nat) (p : Placement) (v s : State), ((s.bump pCHK 0x078).setFld pCHK 0x07C 13 0 page).fireLimited pCHK 2 = v ∧ (v.fab.placements.find? fun p => p.trig.arrival == a) = some p :=
  ⟨0, 1, wPlace, ((wPlaced.bump pCHK 0x078).setFld pCHK 0x07C 13 0 0).fireLimited pCHK 2, wPlaced, rfl, by decide +kernel⟩

theorem test_wit_integrity_complete_parityError3 : ∃ (page : Nat) (v s : State), ((s.bump pCHK 0x078).setFld pCHK 0x07C 13 0 page).fireLimited pCHK 2 = v :=
  ⟨0, ((State.reset.bump pCHK 0x078).setFld pCHK 0x07C 13 0 0).fireLimited pCHK 2, State.reset, rfl⟩

theorem test_wit_integrity_complete_scanStart : ∃ (req : Requester) (data : Word) (v s : State), s.writable req pCHK = true ∧ bit data 31 = true ∧ s.writeFields pCHK 0x040 data = v ∧ v.integ.scan = none ∧ (v.fld pCHK 0x040 5 4 = 0 ∨ v.polyAllowed = true) ∧ v.scanRange (v.fld pCHK 0x040 1 0) (v.reg64 pCHK 0x044 0x048) (v.num pCHK 0x04C) = true :=
  ⟨.steward, 0x80000003, (wReg pCHK 0x04C 64).writeFields pCHK 0x040 0x80000003, wReg pCHK 0x04C 64, by decide +kernel, by decide +kernel, rfl, by decide +kernel⟩

theorem test_wit_integrity_complete_scanAbort : ∃ (req : Requester) (data : Word) (x : Scan) (v s : State), s.writable req pCHK = true ∧ bit data 30 = true ∧ s.writeFields pCHK 0x040 data = v ∧ v.integ.scan = some x :=
  ⟨.steward, 0x40000000, { source := 3, addr := 0, len := 64, poly := 0 }, wScan.writeFields pCHK 0x040 0x40000000, wScan, by decide +kernel, by decide +kernel, rfl, by decide +kernel⟩

theorem test_wit_integrity_complete_scanDone : ∃ (bytes : List Byte) (x : Scan) (d : List Byte) (s : State), s.integ.scan = some x ∧ s.scanData x bytes = d :=
  ⟨[], { source := 3, addr := 0, len := 64, poly := 0 }, wScan.scanData { source := 3, addr := 0, len := 64, poly := 0 } [], wScan, by decide +kernel, rfl⟩

theorem test_wit_integrity_complete_gleanSlice : ∃ (region : Nat) (s : State), region < s.regions ∧ s.regionMode region = .normal ∧ ¬(2 ≤ s.phase ∧ s.phase ≤ 5) :=
  ⟨0, wReg (pRG 0) 0x00C 2, by decide +kernel⟩

theorem test_wit_integrity_complete_gleanPassEnd : ∃ (region : Nat) (cellar : Bool) (v s : State), region < s.regions ∧ s.bump (pGL region) (if cellar then 0x05C else 0x058) = v :=
  ⟨0, true, State.reset.bump (pGL 0) 0x05C, State.reset, by decide +kernel, rfl⟩

/-! LarderComplete -/

theorem test_wit_larder_complete_larderRequest : ∃ (op prio slot client tag aadLen len salt counter dataRef : Nat) (q : LarderReq) (s : State), ({ op := op % 16, prio := prio % 4, slot := slot % 8192, client := client % 256, tag := tag % 2 ^ 24, aadLen, len, salt := salt % 2 ^ 32, counter := counter % 2 ^ 64, dataRef := dataRef % 2 ^ 32 } : LarderReq) = q ∧ q.prio ≤ 2 ∧ aadLen ≤ 4096 ∧ s.reqCheck q = none :=
  ⟨1, 0, 16, 0, 0, 0, 16, 0, 0, 0, req0, State.reset.setSlot 16 { state := .active, kind := 4 }, by decide +kernel⟩

theorem test_wit_larder_complete_larderRequest2 : ∃ (op prio slot client tag aadLen len salt counter dataRef : Nat) (q : LarderReq) (st : Nat) (s : State), ({ op := op % 16, prio := prio % 4, slot := slot % 8192, client := client % 256, tag := tag % 2 ^ 24, aadLen, len, salt := salt % 2 ^ 32, counter := counter % 2 ^ 64, dataRef := dataRef % 2 ^ 32 } : LarderReq) = q ∧ q.prio ≤ 2 ∧ aadLen ≤ 4096 ∧ s.reqCheck q = some st :=
  ⟨1, 0, 16, 0, 0, 0, 16, 0, 0, 0, req0, lsSLOT_EMPTY, State.reset, by decide +kernel⟩

theorem test_wit_larder_complete_sealUnitDone : ∃ (engine : Nat) (q : LarderReq) (v s : State), KM.get s.larder.engines engine = some q ∧ { s with larder.engines := KM.del s.larder.engines engine } = v :=
  ⟨0, req0, { State.reset with larder.engines := [] }, wEngine, by decide +kernel, rfl⟩

theorem test_wit_larder_complete_sealUnitDone2 : ∃ (engine : Nat) (q : LarderReq) (v s : State), KM.get s.larder.engines engine = some q ∧ { s with larder.engines := KM.del s.larder.engines engine } = v :=
  ⟨0, req0, { State.reset with larder.engines := [] }, wEngine, by decide +kernel, rfl⟩

theorem test_wit_larder_complete_hwmRecordProgrammed : ∃ (slot : Nat) (s : State), (s.slot slot).marking = true :=
  ⟨16, State.reset.setSlot 16 { marking := true }, by decide +kernel⟩

theorem test_wit_larder_complete_drbgReseed : ∃ (s : State), bit (s.reg pLD 0x048) 1 = true :=
  ⟨wReg pLD 0x048 2, by decide +kernel⟩

theorem test_wit_larder_complete_healthTestFail : ∃ (v s : State), (({ s with larder.healthFails := s.now :: s.larder.healthFails.filter fun t => decide (s.now < t + second) }).bump pLD 0x04C).fireLimited pLD 0 = v ∧ ((s.now :: s.larder.healthFails.filter fun t => decide (s.now < t + second)).length < 3 ∨ v.drbgStopped = true) :=
  ⟨(({ State.reset with larder.healthFails := State.reset.now :: State.reset.larder.healthFails.filter fun t => decide (State.reset.now < t + second) }).bump pLD 0x04C).fireLimited pLD 0, State.reset, rfl, by decide +kernel⟩

theorem test_wit_larder_complete_healthTestFail2 : ∃ (v s : State), (({ s with larder.healthFails := s.now :: s.larder.healthFails.filter fun t => decide (s.now < t + second) }).bump pLD 0x04C).fireLimited pLD 0 = v ∧ 3 ≤ (s.now :: s.larder.healthFails.filter fun t => decide (s.now < t + second)).length ∧ v.drbgStopped = false :=
  ⟨(({ State.reset with larder.healthFails := [0, 0, 0] }).bump pLD 0x04C).fireLimited pLD 0, { State.reset with larder.healthFails := [0, 0] }, rfl, by decide +kernel⟩

theorem test_wit_larder_complete_drbgReinstantiate : ∃ (s : State), s.drbgStopped = true :=
  ⟨wReg pLD 0x048 4, by decide +kernel⟩

theorem test_wit_larder_complete_slotProbeWrite : ∃ (req : Requester) (data : Word) (k : Slot) (s : State), s.writable req pLD = true ∧ s.resultValid pLD 0x06C = false ∧ s.slot (bits data 12 0) = k :=
  ⟨.steward, 0, State.reset.slot 0, State.reset, by decide +kernel⟩

/-! StewardCoresComplete -/

theorem test_wit_steward_cores_complete_checkpoint : ∃ (early : Bool) (s : State), s.pairRuns = true ∧ s.stwState ≠ 6 ∧ (early = false ∨ logLimit ≤ s.stw.logBytes) :=
  ⟨false, wStw 1, by decide +kernel⟩

theorem test_wit_steward_cores_complete_miscompare : ∃ (s : State), (s.stwState = 1 ∨ s.stwState = 5) :=
  ⟨wStw 1, by decide +kernel⟩

theorem test_wit_steward_cores_complete_coreBistDone : ∃ (v s : State), s.stwState = 2 ∧ (s.coreBist s.lead true).coreBist s.shadow true = v :=
  ⟨((wRoles 2 2).coreBist 0 true).coreBist 1 true, wRoles 2 2, by decide +kernel, rfl⟩

theorem test_wit_steward_cores_complete_coreBistDone2 : ∃ (v s : State), s.stwState = 2 ∧ (s.coreBist s.lead true).coreBist s.shadow false = v :=
  ⟨((wRoles 2 2).coreBist 0 true).coreBist 1 false, wRoles 2 2, by decide +kernel, rfl⟩

theorem test_wit_steward_cores_complete_coreBistDone3 : ∃ (v s : State), s.stwState = 2 ∧ (s.coreBist s.lead false).coreBist s.shadow true = v :=
  ⟨((wRoles 2 2).coreBist 0 false).coreBist 1 true, wRoles 2 2, by decide +kernel, rfl⟩

theorem test_wit_steward_cores_complete_coreBistDone4 : ∃ (v s : State), s.stwState = 2 ∧ (s.coreBist s.lead false).coreBist s.shadow false = v ∧ 3 ≤ s.spare :=
  ⟨((wRoles 2 3).coreBist 0 false).coreBist 1 false, wRoles 2 3, by decide +kernel, rfl, by decide +kernel⟩

theorem test_wit_steward_cores_complete_coreBistDone5 : ∃ (v s : State), s.stwState = 2 ∧ (s.coreBist s.lead false).coreBist s.shadow false = v ∧ s.spare < 3 :=
  ⟨((wRoles 2 2).coreBist 0 false).coreBist 1 false, wRoles 2 2, by decide +kernel, rfl, by decide +kernel⟩

theorem test_wit_steward_cores_complete_spareLoaded : ∃ (ok : Bool) (v s : State), s.spare < 3 ∧ s.stwState = 3 ∧ { s.coreBist s.spare ok with stw.failing := none } = v :=
  ⟨true, { (wRoles 3 2).coreBist 2 true with stw.failing := none }, wRoles 3 2, by decide +kernel, by decide +kernel, rfl⟩

theorem test_wit_steward_cores_complete_spareLoaded2 : ∃ (ok : Bool) (op core : Nat) (retire : Bool) (v s : State), s.spare < 3 ∧ s.stwState = 5 ∧ s.coreBist s.spare ok = v ∧ s.stw.swap = some (op, core, retire) :=
  ⟨true, 1, 0, false, { wRoles 5 2 with stw.swap := some (1, 0, false) }.coreBist 2 true, { wRoles 5 2 with stw.swap := some (1, 0, false) }, by decide +kernel, by decide +kernel, rfl, by decide +kernel⟩

theorem test_wit_steward_cores_complete_replayEnd : ∃ (n : Nat) (s : State), s.stw.replayTo = some n ∧ n ≤ s.stw.replaySeen :=
  ⟨0, { State.reset with stw.replayTo := some 0 }, by decide +kernel⟩

theorem test_wit_steward_cores_complete_replayEnd2 : ∃ (n : Nat) (s : State), s.stw.replayTo = some n ∧ n ≤ s.stw.replaySeen :=
  ⟨0, { State.reset with stw.replayTo := some 0 }, by decide +kernel⟩

theorem test_wit_steward_cores_complete_fenceOutput : ∃ (slot epoch : Nat) (kind : OutputKind) (addr : Nat) (data : List Byte) (s : State), slot < 3 ∧ epoch = s.coreEpoch slot ∧ ¬(kind = .sramWrite ∧ (List.range data.length).any (fun i => within (addr + i) (codePart s.part)) = true) ∧ s.stw.replayTo.isSome = false :=
  ⟨0, State.reset.coreEpoch 0, .pageAccess, 0, [], State.reset, by decide +kernel⟩

theorem test_wit_steward_cores_complete_fenceOutput2 : ∃ (slot epoch : Nat) (kind : OutputKind) (addr : Nat) (data : List Byte) (s : State), slot < 3 ∧ epoch = s.coreEpoch slot ∧ ¬(kind = .sramWrite ∧ (List.range data.length).any (fun i => within (addr + i) (codePart s.part)) = true) ∧ s.stw.replayTo.isSome = true :=
  ⟨0, State.reset.coreEpoch 0, .pageAccess, 0, [], { State.reset with stw.replayTo := some 0 }, by decide +kernel⟩

theorem test_wit_steward_cores_complete_wdogWrite : ∃ (req : Requester) (s : State), s.writable req pSTW = true :=
  ⟨.steward, State.reset, by decide +kernel⟩

theorem test_wit_steward_cores_complete_bootRomStart : ∃ (ok0 ok1 : Bool) (s : State), s.seqState = 15 ∧ s.seqDown = false ∧ s.stwState = 0 ∧ s.bootStage = 0 ∧ (ok0 = true ∨ ok1 = true) :=
  ⟨true, true, wBoot 0, by decide +kernel⟩

theorem test_wit_steward_cores_complete_bootRomStart2 : ∃ (s : State), s.seqState = 15 ∧ s.seqDown = false ∧ s.stwState = 0 ∧ s.bootStage = 0 :=
  ⟨wBoot 0, by decide +kernel⟩

theorem test_wit_steward_cores_complete_mainImageStart : ∃ (okA okB : Bool) (want : Nat) (s : State), s.seqState = 15 ∧ s.seqDown = false ∧ s.stwState = 0 ∧ s.bootStage = 1 ∧ s.stw.bootBack = false ∧ s.stw.nextBank.getD s.bank_ = want ∧ (if want = 0 then okA else okB) = true :=
  ⟨true, true, 0, wBoot 1, by decide +kernel⟩

/-! AtticComplete -/

theorem test_wit_attic_complete_atticCmdWrite : ∃ (offset : Nat) (data : List Byte) (s : State), offset = cycleA ∧ data = [0xC3] ∧ s.attic.seq.command = none ∧ s.attic.seq.cycles = 0 :=
  ⟨cycleA, [0xC3], State.reset, by decide +kernel⟩

theorem test_wit_attic_complete_atticCmdWrite2 : ∃ (offset : Nat) (data : List Byte) (s : State), offset = cycleB ∧ data = [0x3C] ∧ s.attic.seq.command = none ∧ s.attic.seq.cycles = 1 ∧ s.now ≤ s.attic.seq.since + 100000 :=
  ⟨cycleB, [0x3C], wSeq 1, by decide +kernel⟩

theorem test_wit_attic_complete_atticCmdWrite3 : ∃ (offset : Nat) (data : List Byte) (c : Byte) (s : State), offset = cycleA ∧ data = [c] ∧ s.attic.seq.command = none ∧ s.attic.seq.cycles = 2 ∧ s.now ≤ s.attic.seq.since + 100000 :=
  ⟨cycleA, [0x74], 0x74, wSeq 2, by decide +kernel⟩

theorem test_wit_attic_complete_atticCmdWrite4 : ∃ (offset : Nat) (data : List Byte) (c : Nat) (s : State), offset < 2 ^ 26 ∧ data ≠ [] ∧ s.attic.seq.command = some c :=
  ⟨0, [0xE6], 0x62, { State.reset with attic.seq := { command := some 0x62 } }, by decide +kernel⟩

theorem test_wit_attic_complete_atticSeqTimeout : ∃ (s : State), s.attic.seq.cycles ≠ 0 :=
  ⟨wSeq 1, by decide +kernel⟩

theorem test_wit_attic_complete_atticRead : ∃ (offset len : Nat) (v s : State), offset < 2 ^ 26 ∧ len ≠ 0 ∧ (if s.attic.seq.cycles = 0 then s else s.voidSeq) = v ∧ v.attic.statusMode = true :=
  ⟨0, 1, { State.reset with attic.statusMode := true }, { State.reset with attic.statusMode := true }, by decide +kernel, by decide +kernel, rfl, by decide +kernel⟩

theorem test_wit_attic_complete_atticRead2 : ∃ (offset len corrected : Nat) (v s : State), offset < 2 ^ 26 ∧ len ≠ 0 ∧ (if s.attic.seq.cycles = 0 then s else s.voidSeq) = v ∧ v.attic.statusMode = false ∧ 8 < corrected :=
  ⟨0, 1, 9, State.reset, State.reset, by decide +kernel, by decide +kernel, rfl, by decide +kernel⟩

theorem test_wit_attic_complete_atticRead3 : ∃ (offset len corrected : Nat) (v w s : State), offset < 2 ^ 26 ∧ len ≠ 0 ∧ (if s.attic.seq.cycles = 0 then s else s.voidSeq) = v ∧ v.attic.statusMode = false ∧ corrected ≤ 8 ∧ v.openPage (offset / 4096) = w :=
  ⟨0, 1, 0, State.reset, State.reset.openPage 0, State.reset, by decide +kernel, by decide +kernel, rfl, by decide +kernel, by decide +kernel, rfl⟩

theorem test_wit_attic_complete_atticResetDeferEnd : ∃ (s : State), s.programming = false :=
  ⟨State.reset, by decide +kernel⟩

theorem test_wit_attic_complete_xipFetch : ∃ (offset : Nat) (s : State), offset < 2 ^ 26 ∧ s.attic.statusMode = false ∧ offset / 64 ∈ s.attic.buffer :=
  ⟨0, { State.reset with attic.buffer := [0] }, by decide +kernel⟩

theorem test_wit_attic_complete_xipFetch2 : ∃ (offset : Nat) (taken : Bool) (s : State), offset < 2 ^ 26 ∧ s.attic.statusMode = false ∧ offset / 64 ∉ s.attic.buffer ∧ taken = true ∧ offset / 64 ∈ s.attic.branch :=
  ⟨0, true, { State.reset with attic.branch := [0] }, by decide +kernel⟩

theorem test_wit_attic_complete_xipFetch3 : ∃ (offset : Nat) (taken : Bool) (v s : State), offset < 2 ^ 26 ∧ s.attic.statusMode = false ∧ offset / 64 ∉ s.attic.buffer ∧ ¬(taken = true ∧ offset / 64 ∈ s.attic.branch) ∧ ((if offset / 64 / 64 ∈ s.attic.openPages then s else s.bump pAC 0x074).openPage (offset / 64 / 64)).refill (offset / 64) = v :=
  ⟨0, true, ((State.reset.bump pAC 0x074).openPage 0).refill 0, State.reset, by decide +kernel, by decide +kernel, by decide +kernel, by decide +kernel, rfl⟩

/-! PowerSequenceCompletes -/

theorem test_wit_power_sequence_completes_coldStart : ∃ (waiting : List Handshake) (v s : State), ((((((s.setRails false (List.range 14)).setSeqOut false).holdSync.setFaultN 3 false).setFaultN 2 false).setFaultN 1 false).abortHandshakes 17 waiting).loseVolatile.loseRegs coldMask = v :=
  ⟨[], ((((((State.reset.setRails false (List.range 14)).setSeqOut false).holdSync.setFaultN 3 false).setFaultN 2 false).setFaultN 1 false).abortHandshakes 17 []).loseVolatile.loseRegs coldMask, State.reset, rfl⟩

theorem test_wit_power_sequence_completes_startConditionsMet : ∃ (s : State), s.seqState = 0 ∧ s.seq.holding = true ∧ s.seqFaulted = false ∧ s.lockout = false ∧ s.seq.stayDown = false ∧ s.power.tripped = false ∧ s.seq.zeroAt + s.seq.offMs * 1000000 ≤ s.now ∧ (bit (s.reg pSEQ 0x040) 31 = false ∨ s.seqBit 23 = true) :=
  ⟨State.reset, by decide +kernel⟩

theorem test_wit_power_sequence_completes_seqSyncRise : ∃ (s : State), s.seq.holding = false ∧ s.seqState = 0 :=
  ⟨wFreed 0, by decide +kernel⟩

theorem test_wit_power_sequence_completes_seqSyncRise2 : ∃ (s : State), s.seq.holding = false ∧ s.seqState ≠ 0 ∧ s.seqDown = true :=
  ⟨{ wDownAt 15 with seq.holding := false }, by decide +kernel⟩

theorem test_wit_power_sequence_completes_seqSyncRise3 : ∃ (s : State), s.seq.holding = false ∧ s.seqState ≠ 0 ∧ s.seqDown = false ∧ s.seqState < 15 ∧ s.seqFaulted = true :=
  ⟨{ (wSeqAt 5).setFld pSEQ 0x04C 26 26 1 with seq.holding := false }, by decide +kernel⟩

theorem test_wit_power_sequence_completes_seqSyncRise4 : ∃ (s : State), s.seq.holding = false ∧ s.seqState ≠ 0 ∧ s.seqDown = false ∧ s.seqState < 15 ∧ s.seqFaulted = false :=
  ⟨wFreed 5, by decide +kernel⟩

theorem test_wit_power_sequence_completes_seqStepTimeout : ∃ (s : State), s.seqState ≠ 0 ∧ s.seqState < 15 ∧ s.seqDown = false ∧ s.seqFaulted = false ∧ s.seq.holding = true :=
  ⟨wSeqAt 5, by decide +kernel⟩

theorem test_wit_power_sequence_completes_seqStepTimeout2 : ∃ (s : State), s.seqState ≠ 0 ∧ s.seqState < 15 ∧ s.seqDown = false ∧ s.seqFaulted = false ∧ s.seq.holding = false :=
  ⟨wFreed 5, by decide +kernel⟩

theorem test_wit_power_sequence_completes_seqDownRequest : ∃ (s : State), s.seqState = 15 ∧ s.seqDown = false :=
  ⟨wSeqAt 15, by decide +kernel⟩

theorem test_wit_power_sequence_completes_pgInputLow : ∃ (rail : Nat) (s : State), s.hasRail rail = true :=
  ⟨0, State.reset, by decide +kernel⟩

theorem test_wit_power_sequence_completes_pgStable : ∃ (rail : Nat) (v w s : State), s.hasRail rail = true ∧ bit (s.reg pSEQ 0x050) rail = true ∧ s.setFld pSEQ 0x04C rail rail 1 = v ∧ v.seqDown = false ∧ v.seqFaulted = false ∧ rail ∈ v.railsOf v.seqState ∧ rail ∉ v.seq.stable ∧ { v with seq.stable := insertSorted rail v.seq.stable } = w :=
  ⟨4, wPg.setFld pSEQ 0x04C 4 4 1, { wPg.setFld pSEQ 0x04C 4 4 1 with seq.stable := insertSorted 4 (wPg.setFld pSEQ 0x04C 4 4 1).seq.stable }, wPg, by decide +kernel, by decide +kernel, rfl, by decide +kernel, by decide +kernel, by decide +kernel, by decide +kernel, rfl⟩

theorem test_wit_power_sequence_completes_seqInRise : ∃ (s : State), bit (s.reg pSEQ 0x040) 31 = true :=
  ⟨wCasc 0, by decide +kernel⟩

theorem test_wit_power_sequence_completes_seqInFall : ∃ (v s : State), bit (s.reg pSEQ 0x040) 31 = true ∧ s.setSeqBit 23 false = v :=
  ⟨(wCasc 15).setSeqBit 23 false, wCasc 15, by decide +kernel, rfl⟩

theorem test_wit_power_sequence_completes_railLost : ∃ (rail : Nat) (v s : State), s.hasRail rail = true ∧ s.seqState = 15 ∧ s.seqDown = false ∧ (s.setFld pSEQ 0x04C rail rail 0).seqFire 3 = v ∧ rail = 0 :=
  ⟨0, ((wSeqAt 15).setFld pSEQ 0x04C 0 0 0).seqFire 3, wSeqAt 15, by decide +kernel, by decide +kernel, by decide +kernel, rfl, by decide +kernel⟩

theorem test_wit_power_sequence_completes_railLost2 : ∃ (rail : Nat) (v s : State), s.hasRail rail = true ∧ s.seqState = 15 ∧ s.seqDown = false ∧ (s.setFld pSEQ 0x04C rail rail 0).seqFire 3 = v ∧ (rail = 7 ∨ rail = 8 ∨ rail = 13) :=
  ⟨7, ((wSeqAt 15).setFld pSEQ 0x04C 7 7 0).seqFire 3, wSeqAt 15, by decide +kernel, by decide +kernel, by decide +kernel, rfl, by decide +kernel⟩

theorem test_wit_power_sequence_completes_railLost3 : ∃ (rail : Nat) (v s : State), s.hasRail rail = true ∧ s.seqState = 15 ∧ s.seqDown = false ∧ (s.setFld pSEQ 0x04C rail rail 0).seqFire 3 = v ∧ rail ≠ 0 ∧ (¬(rail = 7 ∨ rail = 8 ∨ rail = 13)) :=
  ⟨1, ((wSeqAt 15).setFld pSEQ 0x04C 1 1 0).seqFire 3, wSeqAt 15, by decide +kernel, by decide +kernel, by decide +kernel, rfl, by decide +kernel⟩

theorem test_wit_power_sequence_completes_dischargeTimeout : ∃ (rail : Nat) (s : State), s.seqDown = true ∧ rail ∈ s.railsOf s.seqState ∧ rail ∉ s.seq.discharged ∧ bit (s.reg pSEQ 0x050) rail = false :=
  ⟨3, wDownAt 4, by decide +kernel⟩

theorem test_wit_power_sequence_completes_seqStall : ∃ (s : State), s.seqDown = true ∧ s.seq.holding = false ∧ s.seq.localStep = false :=
  ⟨{ wDownAt 5 with seq.holding := false }, by decide +kernel⟩

theorem test_wit_power_sequence_completes_faultHoldExpire : ∃ (s : State), s.seqFaulted = true ∧ s.seqDown = false ∧ s.seqState ≠ 0 ∧ s.seq.holding = true :=
  ⟨(wSeqAt 5).setFld pSEQ 0x04C 26 26 1, by decide +kernel⟩

theorem test_wit_power_sequence_completes_faultRetry : ∃ (v s : State), s.seqState = 0 ∧ s.seqFaulted = true ∧ s.setSeqBit 26 false = v ∧ v.num pSEQ 0x078 < v.fld pSEQ 0x040 27 24 :=
  ⟨((wSeqAt 0).setFld pSEQ 0x04C 26 26 1).setSeqBit 26 false, ((wSeqAt 0).setFld pSEQ 0x04C 26 26 1), by decide +kernel, by decide +kernel, rfl, by decide +kernel⟩

theorem test_wit_power_sequence_completes_faultRetry2 : ∃ (v s : State), s.seqState = 0 ∧ s.seqFaulted = true ∧ s.setSeqBit 26 false = v ∧ v.fld pSEQ 0x040 27 24 ≤ v.num pSEQ 0x078 :=
  ⟨(((wSeqAt 0).setFld pSEQ 0x04C 26 26 1).setNum pSEQ 0x078 15).setSeqBit 26 false, (((wSeqAt 0).setFld pSEQ 0x04C 26 26 1).setNum pSEQ 0x078 15), by decide +kernel, by decide +kernel, rfl, by decide +kernel⟩

theorem test_wit_power_sequence_completes_cascDelayExpire : ∃ (s : State), s.seqState = 15 ∧ s.seqDown = false :=
  ⟨wSeqAt 15, by decide +kernel⟩

theorem test_wit_power_sequence_completes_cascDownWaitExpire : ∃ (s : State), s.seqState = 14 ∧ s.seqDown = true :=
  ⟨wDownAt 14, by decide +kernel⟩

theorem test_wit_power_sequence_completes_islandClocksLocked : ∃ (s : State), s.seqState = 13 ∧ s.seqDown = false ∧ s.seqFaulted = false ∧ s.seq.holding = true :=
  ⟨wSeqAt 13, by decide +kernel⟩

/-! ClocksAndChipResetComplete -/

theorem test_wit_clocks_and_chip_reset_complete_refclkLoss : ∃ (ref : Nat) (v s : State), ref ≤ 2 ∧ bit (s.reg pHD 0x040) ref = true ∧ ((s.setFld pHD 0x040 ref ref 0).bump pHD 0x044).fireLimited pHD 0 second ref = v ∧ ref = 0 :=
  ⟨0, (((wReg pHD 0x040 7).setFld pHD 0x040 0 0 0).bump pHD 0x044).fireLimited pHD 0 second 0, wReg pHD 0x040 7, by decide +kernel, by decide +kernel, rfl, by decide +kernel⟩

theorem test_wit_clocks_and_chip_reset_complete_refclkLoss2 : ∃ (ref : Nat) (v s : State), ref ≤ 2 ∧ bit (s.reg pHD 0x040) ref = true ∧ ((s.setFld pHD 0x040 ref ref 0).bump pHD 0x044).fireLimited pHD 0 second ref = v ∧ ref = 1 :=
  ⟨1, (((wReg pHD 0x040 7).setFld pHD 0x040 1 1 0).bump pHD 0x044).fireLimited pHD 0 second 1, wReg pHD 0x040 7, by decide +kernel, by decide +kernel, rfl, by decide +kernel⟩

theorem test_wit_clocks_and_chip_reset_complete_refclkLoss3 : ∃ (ref : Nat) (v s : State), ref ≤ 2 ∧ bit (s.reg pHD 0x040) ref = true ∧ ((s.setFld pHD 0x040 ref ref 0).bump pHD 0x044).fireLimited pHD 0 second ref = v ∧ ref = 2 :=
  ⟨2, (((wReg pHD 0x040 7).setFld pHD 0x040 2 2 0).bump pHD 0x044).fireLimited pHD 0 second 2, wReg pHD 0x040 7, by decide +kernel, by decide +kernel, rfl, by decide +kernel⟩

theorem test_wit_clocks_and_chip_reset_complete_refclkReturn : ∃ (ref : Nat) (s : State), ref ≤ 2 ∧ s.seqState = 15 :=
  ⟨0, wSeqAt 15, by decide +kernel⟩

theorem test_wit_clocks_and_chip_reset_complete_islandUnlock : ∃ (k : Nat) (v s : State), k < 17 ∧ bit (s.reg pHD (islandReg k + 4)) 30 = false ∧ bit (s.reg pHD (islandReg k + 4)) 31 = true ∧ (s.setFld pHD (islandReg k + 4) 31 31 0).fire pHD 1 = v ∧ v.lossOrRestore = false ∧ k = 12 :=
  ⟨12, (((wReg pHD (islandReg 12 + 4) 0x80000000)).setFld pHD (islandReg 12 + 4) 31 31 0).fire pHD 1, ((wReg pHD (islandReg 12 + 4) 0x80000000)), by decide +kernel, by decide +kernel, by decide +kernel, rfl, by decide +kernel⟩

theorem test_wit_clocks_and_chip_reset_complete_islandUnlock2 : ∃ (k : Nat) (v s : State), k < 17 ∧ bit (s.reg pHD (islandReg k + 4)) 30 = false ∧ bit (s.reg pHD (islandReg k + 4)) 31 = true ∧ (s.setFld pHD (islandReg k + 4) 31 31 0).fire pHD 1 = v ∧ v.lossOrRestore = false ∧ k ≠ 12 :=
  ⟨0, (((wReg pHD (islandReg 0 + 4) 0x80000000)).setFld pHD (islandReg 0 + 4) 31 31 0).fire pHD 1, ((wReg pHD (islandReg 0 + 4) 0x80000000)), by decide +kernel, by decide +kernel, by decide +kernel, rfl, by decide +kernel⟩

theorem test_wit_clocks_and_chip_reset_complete_islandUnlock3 : ∃ (k : Nat) (v s : State), k < 17 ∧ bit (s.reg pHD (islandReg k + 4)) 30 = false ∧ bit (s.reg pHD (islandReg k + 4)) 31 = true ∧ (s.setFld pHD (islandReg k + 4) 31 31 0).fire pHD 1 = v ∧ v.lossOrRestore = true :=
  ⟨0, (((wReg pHD (islandReg 0 + 4) 0x80000000).setNum pPLD 0x044 1).setFld pHD (islandReg 0 + 4) 31 31 0).fire pHD 1, ((wReg pHD (islandReg 0 + 4) 0x80000000).setNum pPLD 0x044 1), by decide +kernel, by decide +kernel, by decide +kernel, rfl, by decide +kernel⟩

theorem test_wit_clocks_and_chip_reset_complete_chipReset : ∃ (d : ChipDue) (s : State), s.arch.chipDue = some d ∧ s.programming = false ∧ s.seqState = 15 ∧ s.seqDown = false :=
  ⟨due0, { wSeqAt 15 with arch.chipDue := some due0 }, by decide +kernel⟩

/-! AgeingCompletes -/

theorem test_wit_ageing_completes_ageingWindowOpen : ∃ (s : State), s.age.window = false :=
  ⟨State.reset, by decide +kernel⟩

theorem test_wit_ageing_completes_bankMeasDone : ∃ (b : BankRun) (s : State), s.age.bank = some b :=
  ⟨{ start := 0, since := 0, op := 0 }, wBank 0, by decide +kernel⟩

theorem test_wit_ageing_completes_bankMeasAbort : ∃ (b : BankRun) (s : State), s.age.bank = some b :=
  ⟨{ start := 0, since := 0, op := 0 }, wBank 0, by decide +kernel⟩

theorem test_wit_ageing_completes_retryProbeDone : ∃ (region : Nat) (counts : List (List Nat)) (v s : State), region < 4 ∧ (200 + region) ∈ s.age.running ∧ s.chooseTables (16 * region) (counts.take 16) = v :=
  ⟨0, [], { State.reset with age.running := [200] }.chooseTables 0 [], { State.reset with age.running := [200] }, by decide +kernel, by decide +kernel, rfl⟩

theorem test_wit_ageing_completes_senseProbeDone : ∃ (channel margin : Nat) (v s : State), channel < 24 ∧ (400 + channel) ∈ s.age.running ∧ s.setFld (pDC channel) 0x140 4 0 (min 16 margin) = v :=
  ⟨0, 0, { State.reset with age.running := [400] }.setFld (pDC 0) 0x140 4 0 0, { State.reset with age.running := [400] }, by decide +kernel, by decide +kernel, rfl⟩

theorem test_wit_ageing_completes_ageingWindowClose : ∃ (s : State), s.age.window = true :=
  ⟨{ State.reset with age.window := true }, by decide +kernel⟩

theorem test_wit_ageing_completes_slackMonitor : ∃ (island : Nat) (slack least : Int) (s : State), island < 17 ∧ s.lossOrRestore = false ∧ (match KM.get s.age.slack island with | some x => min x slack | none => slack) = least :=
  ⟨0, 0, 0, State.reset, by decide +kernel⟩

theorem test_wit_ageing_completes_eyeMeasure : ∃ (page lane height width : Nat) (v s : State), s.realLane { page, lane } = true ∧ s.lossOrRestore = false ∧ (s.noteEye { page, lane } height width).setDone 5 1 = v ∧ ((page = 0x4C ∨ bit (v.reg page (laneBase page + 0x10)) (4 + lane) = true ∨ ({ page, lane } : Lane) ∈ v.age.retraining ∨ ({ page, lane } : Lane) ∈ v.age.queue ∨ v.eyeBelow height width 24 8 = false)) :=
  ⟨0x4C, 0, 0, 0, (State.reset.noteEye { page := 0x4C, lane := 0 } 0 0).setDone 5 1, State.reset, by decide +kernel, by decide +kernel, rfl, by decide +kernel⟩

theorem test_wit_ageing_completes_eyeMeasure2 : ∃ (page lane height width : Nat) (v s : State), s.realLane { page, lane } = true ∧ s.lossOrRestore = false ∧ (s.noteEye { page, lane } height width).setDone 5 1 = v ∧ (¬(page = 0x4C ∨ bit (v.reg page (laneBase page + 0x10)) (4 + lane) = true ∨ ({ page, lane } : Lane) ∈ v.age.retraining ∨ ({ page, lane } : Lane) ∈ v.age.queue ∨ v.eyeBelow height width 24 8 = false)) :=
  ⟨0x40, 0, 0, 0, (State.reset.noteEye { page := 0x40, lane := 0 } 0 0).setDone 5 1, State.reset, by decide +kernel, by decide +kernel, rfl, by decide +kernel⟩

theorem test_wit_ageing_completes_laneRetrainDone : ∃ (page lane height width : Nat) (v s : State), ({ page, lane } : Lane) ∈ s.age.retraining ∧ ({ s with age.retraining := s.age.retraining.filter (· ≠ { page, lane }), age.retrained := KM.put s.age.retrained (laneKey { page, lane }) s.rtcSeconds } : State).noteEye { page, lane } height width = v :=
  ⟨0x40, 0, 0, 0, ({ State.reset with age.retraining := [], age.retrained := KM.put State.reset.age.retrained (laneKey { page := 0x40, lane := 0 }) State.reset.rtcSeconds } : State).noteEye { page := 0x40, lane := 0 } 0 0, { State.reset with age.retraining := [{ page := 0x40, lane := 0 }] }, by decide +kernel, rfl⟩

/-! FaultsAndHistoryComplete -/

theorem test_wit_faults_and_history_complete_fcFiringArrival : ∃ (page src sev : Nat) (l : List (Nat × Nat × Nat)) (v s : State), s.host.routed = (page, src, sev) :: l ∧ { s with host.routed := l } = v :=
  ⟨pTC, 5, 1, [], State.reset, { State.reset with host.routed := [(pTC, 5, 1)] }, by decide +kernel, rfl⟩

theorem test_wit_faults_and_history_complete_graceExpire : ∃ (ty src page sev : Nat) (s : State), (s.fcClass ty src).timer = some (page, sev) ∧ (s.fcClass ty src).pending = true ∧ (s.fcClass ty src).timerStepped = false :=
  ⟨0, 0, 1, 1, wGrace true, by decide +kernel⟩

theorem test_wit_faults_and_history_complete_graceExpire2 : ∃ (ty src page sev : Nat) (s : State), (s.fcClass ty src).timer = some (page, sev) ∧ ((s.fcClass ty src).pending = false ∨ (s.fcClass ty src).timerStepped = true) :=
  ⟨0, 0, 1, 1, wGrace false, by decide +kernel⟩

theorem test_wit_faults_and_history_complete_classAckWrite : ∃ (req : Requester) (data : Word) (s : State), s.writable req pFC = true ∧ (s.fcClass (bits data 15 8) (bits data 4 0)).pending = true :=
  ⟨.steward, 0, wGrace true, by decide +kernel⟩

theorem test_wit_faults_and_history_complete_classAckWrite2 : ∃ (req : Requester) (data : Word) (s : State), s.writable req pFC = true ∧ (s.fcClass (bits data 15 8) (bits data 4 0)).pending = false :=
  ⟨.steward, 0, State.reset, by decide +kernel⟩

theorem test_wit_faults_and_history_complete_classCfgWrite : ∃ (req : Requester) (ty src : Nat) (s : State), s.writable req pFC = true ∧ s.fld pFC 0x040 15 8 = ty ∧ s.fld pFC 0x040 4 0 = src ∧ classDefined ty src = true :=
  ⟨.steward, 0x11, 1, wReg pFC 0x040 0x1101, by decide +kernel⟩

theorem test_wit_faults_and_history_complete_faultNClrWrite : ∃ (req : Requester) (data : Word) (s : State), s.writable req pFC = true ∧ bit data 0 = true ∧ ((s.fc.classes.any fun p => p.2.pending && decide (p.2.last = 4 ∨ p.2.last = 5)) = false) :=
  ⟨.steward, 1, State.reset, by decide +kernel⟩

theorem test_wit_faults_and_history_complete_fcInjectWrite : ∃ (req : Requester) (s : State), s.writable req pFC = true ∧ s.fld pFC 0x07C 1 0 ≠ 3 :=
  ⟨.steward, State.reset, by decide +kernel⟩

theorem test_wit_faults_and_history_complete_fcInjectWrite2 : ∃ (req : Requester) (data : Word) (f : Firing) (s : State), s.writable req pFC = true ∧ s.fld pFC 0x07C 1 0 = 3 ∧ (pageType (bits data 29 16)).isSome = true ∧ s.absent (bits data 29 16) = false ∧ s.firing (bits data 29 16) (bits data 4 0) (bits data 31 30) = f :=
  ⟨.steward, 0, (wReg pFC 0x07C 3).firing 0 0 0, wReg pFC 0x07C 3, by decide +kernel, by decide +kernel, by decide +kernel, by decide +kernel, rfl⟩

theorem test_wit_faults_and_history_complete_rtcSetGo : ∃ (req : Requester) (data : Word) (v : State) (n : Nat) (s : State), s.writable req pRTC = true ∧ s.writeFields pRTC 0x04C data = v ∧ bit data 31 = true ∧ (v.num pRTC 0x048 + 2 ^ 32 * bits data 7 0) * 1024 + bits data 25 16 = n ∧ v.clock.valid = true ∧ (Int.ofNat n - Int.ofNat v.rtc).natAbs ≤ 1024 :=
  ⟨.steward, 0x80000000, { State.reset with clock.valid := true }.writeFields pRTC 0x04C 0x80000000, 0, { State.reset with clock.valid := true }, by decide +kernel, rfl, by decide +kernel⟩

theorem test_wit_faults_and_history_complete_rtcSetGo2 : ∃ (req : Requester) (data : Word) (v : State) (n : Nat) (s : State), s.writable req pRTC = true ∧ s.writeFields pRTC 0x04C data = v ∧ bit data 31 = true ∧ (v.num pRTC 0x048 + 2 ^ 32 * bits data 7 0) * 1024 + bits data 25 16 = n ∧ ¬(v.clock.valid = true ∧ (Int.ofNat n - Int.ofNat v.rtc).natAbs ≤ 1024) :=
  ⟨.steward, 0x80000000, State.reset.writeFields pRTC 0x04C 0x80000000, 0, State.reset, by decide +kernel, rfl, by decide +kernel⟩

theorem test_wit_faults_and_history_complete_rtcSlewDone : ∃ (s : State), ¬(s.slewLeft = 0 ∧ s.clock.slew = 0) :=
  ⟨{ State.reset with clock.slew := 5 }, by decide +kernel⟩

theorem test_wit_faults_and_history_complete_rtcOscFail : ∃ (s : State), s.clock.onOsc = false :=
  ⟨State.reset, by decide +kernel⟩

theorem test_wit_faults_and_history_complete_summaryBoundary : ∃ (seconds : Nat) (v s : State), s.isBoundary seconds = true ∧ seconds < 2 ^ 40 ∧ (s.reachRtc seconds).hist.last < seconds ∧ (s.reachRtc seconds).abandonGroup = v :=
  ⟨86400, (State.reset.reachRtc 86400).abandonGroup, State.reset, by decide +kernel, by decide +kernel, by decide +kernel, rfl⟩

theorem test_wit_faults_and_history_complete_historyPageProgram : ∃ (s : State), s.hist.queue ≠ [] ∧ s.phaseBusy = false ∧ s.hist.scanned = true ∧ s.attic.op.isSome = false :=
  ⟨{ State.reset with hist.scanned := true, hist.queue := [{ ty := 5, index := 0, flags := 0, start := 0, end_ := 0, body := [] }] }, by decide +kernel⟩

theorem test_wit_faults_and_history_complete_historyHeadScanDone : ∃ (p : Nat × Nat) (l : List (Nat × Nat)) (v s : State), s.hist.scanned = false ∧ ({ s with hist.scanned := true }) = v ∧ v.hist.slots.reverse = p :: l :=
  ⟨(0, 0), [], { State.reset with hist.slots := [(0, 0)], hist.scanned := true }, { State.reset with hist.slots := [(0, 0)] }, by decide +kernel, rfl, by decide +kernel⟩

theorem test_wit_faults_and_history_complete_historyHeadScanDone2 : ∃ (v s : State), s.hist.scanned = false ∧ ({ s with hist.scanned := true }) = v ∧ v.hist.slots.reverse = [] :=
  ⟨{ State.reset with hist.scanned := true }, State.reset, by decide +kernel, rfl, by decide +kernel⟩

theorem test_wit_faults_and_history_complete_historyEraseDeferLimit : ∃ (i : Nat) (s : State), s.hist.deferred = some i :=
  ⟨0, { State.reset with hist.deferred := some 0 }, by decide +kernel⟩

/-! TallyAndCountersComplete -/

theorem test_wit_tally_and_counters_complete_minuteBoundary : ∃ (seconds : Nat) (v s : State), seconds % 60 = 0 ∧ seconds < 2 ^ 40 ∧ s.reachRtc seconds = v ∧ v.tally.last < seconds :=
  ⟨60, State.reset.reachRtc 60, State.reset, by decide +kernel, by decide +kernel, rfl, by decide +kernel⟩

theorem test_wit_tally_and_counters_complete_tallyCloseStart : ∃ (sec : Nat) (cs : KMap (List Nat)) (ts : List Nat) (s : State), s.tally.frozen = some (sec, cs) ∧ s.closeTenants cs = ts ∧ ts.length ≤ stagingSize - s.tally.staged.length :=
  ⟨60, [], [0], { State.reset with tally.frozen := some (60, []) }, by decide +kernel⟩

theorem test_wit_tally_and_counters_complete_tallyRingDelivery : ∃ (fn : Fn) (s : State), (s.ring fn).on = true ∧ (s.ring fn).full = false ∧ (s.tally.staged.any fun p => decide ((s.ring fn).next ≤ p.1)) = true :=
  ⟨.pf0, wTally, by decide +kernel⟩

theorem test_wit_tally_and_counters_complete_tallyRingHeadWrite : ∃ (req : Requester) (data : Word) (fn : Fn) (s : State), s.writable req pTLY = true ∧ (if req = .pf1 then .pf1 else .pf0) = fn ∧ (s.ring fn).on = true ∧ bits data 19 0 < 2 ^ (s.ring fn).log2 :=
  ⟨.steward, 0, .pf0, wTally, by decide +kernel⟩

theorem test_wit_tally_and_counters_complete_tallyProbeWrite : ∃ (req : Requester) (s : State), s.writable req pTLY = true ∧ s.resultValid pTLY 0x068 = false :=
  ⟨.steward, State.reset, by decide +kernel⟩

theorem test_wit_tally_and_counters_complete_counterSelectWrite : ∃ (req : Requester) (page n : Nat) (data : Word) (s : State), n < 16 ∧ s.writable req page = true ∧ bits (s.counter page n).sel 30 0 = bits (selectWord data) 30 0 :=
  ⟨.steward, pTC, 0, 0, State.reset, by decide +kernel⟩

theorem test_wit_tally_and_counters_complete_counterSelectWrite2 : ∃ (req : Requester) (page n : Nat) (data : Word) (s : State), n < 16 ∧ s.writable req page = true ∧ bits (s.counter page n).sel 30 0 ≠ bits (selectWord data) 30 0 :=
  ⟨.steward, pTC, 0, 1, State.reset, by decide +kernel⟩

theorem test_wit_tally_and_counters_complete_counterClearWrite : ∃ (req : Requester) (page n : Nat) (data : Word) (s : State), n < 16 ∧ s.writable req page = true ∧ bit data 0 = true :=
  ⟨.steward, pTC, 0, 1, State.reset, by decide +kernel⟩

theorem test_wit_tally_and_counters_complete_counterOverflowClear : ∃ (req : Requester) (page n : Nat) (data : Word) (s : State), n < 16 ∧ s.writable req page = true ∧ bit data 31 = true :=
  ⟨.steward, pTC, 0, 0x80000000, State.reset, by decide +kernel⟩

theorem test_wit_tally_and_counters_complete_counterValueLoRead : ∃ (page n : Nat) (s : State), n < 16 ∧ (pageType page).isSome = true ∧ s.absent page = false ∧ ¬(bit (s.counter page n).sel 31 = true ∧ s.counting page = true ∧ timed ((pageType page).getD 0xFF) (bits (s.counter page n).sel 7 0) = true) :=
  ⟨pTC, 0, State.reset, by decide +kernel⟩

theorem test_wit_tally_and_counters_complete_counterValueLoRead2 : ∃ (page n : Nat) (s : State), n < 16 ∧ (pageType page).isSome = true ∧ s.absent page = false ∧ (bit (s.counter page n).sel 31 = true ∧ s.counting page = true ∧ timed ((pageType page).getD 0xFF) (bits (s.counter page n).sel 7 0) = true) :=
  ⟨pTC, 0, (wReg pTC 0x00C 2).setCounter pTC 0 { sel := 0x80000001 }, by decide +kernel⟩

theorem test_wit_tally_and_counters_complete_sampleRecordClose : ∃ (sampler arrival ingress memory mirror tail t : Nat) (o : OpenSample) (s : State), ((s.sampler sampler).open_.find? fun o => o.arrival == arrival) = some o ∧ sampler < 8 ∧ reached ingress + reached memory + reached mirror + reached tail = t ∧ t < (s.sampler sampler).minLat :=
  ⟨0, 1, 0, 0, 0, 0, 0, wOpen, (wSampler.setSampler 0 { minLat := 1, open_ := [wOpen] }), by decide +kernel⟩

theorem test_wit_tally_and_counters_complete_sampleRecordClose2 : ∃ (sampler arrival ingress memory mirror tail t : Nat) (o : OpenSample) (s : State), ((s.sampler sampler).open_.find? fun o => o.arrival == arrival) = some o ∧ sampler < 8 ∧ reached ingress + reached memory + reached mirror + reached tail = t ∧ (s.sampler sampler).minLat ≤ t :=
  ⟨0, 1, 0, 0, 0, 0, 0, wOpen, wSampler, by decide +kernel⟩

theorem test_wit_tally_and_counters_complete_sampleRecordClose3 : ∃ (sampler : Nat) (s : State), sampler = 8 ∧ (s.sampler 8).enable = true ∧ s.pairRuns = true ∧ s.stwState ≠ 6 ∧ s.stw.replayTo.isSome = false :=
  ⟨8, (wStw 1).setSampler 8 { enable := true }, by decide +kernel⟩

theorem test_wit_tally_and_counters_complete_samplerPopRead : ∃ (sampler : Nat), sampler ≤ 8 :=
  ⟨0, by decide +kernel⟩

/-! LateRowsComplete -/

theorem test_wit_late_rows_complete_detectorRecovery : ∃ (v s : State), s.power.tripped = true ∧ s.phase ≠ 1 ∧ { s with power.tripped := false } = v :=
  ⟨State.reset, { State.reset with power.tripped := true }, by decide +kernel, by decide +kernel, rfl⟩

theorem test_wit_late_rows_complete_vbusDip : ∃ (s : State), s.power.countAt.isSome = true :=
  ⟨{ State.reset with power.countAt := some 0 }, by decide +kernel⟩

theorem test_wit_late_rows_complete_laneFault : ∃ (port : Nat) (s : State), port < 8 ∧ port < s.planes :=
  ⟨0, State.reset, by decide +kernel⟩

theorem test_wit_late_rows_complete_laneFault2 : ∃ (port : Nat), 8 ≤ port ∧ port < 12 :=
  ⟨8, by decide +kernel⟩

theorem test_wit_late_rows_complete_retrainPeriodExpire : ∃ (channel : Nat) (s : State), s.hasChannel channel = true ∧ s.fld (pRG (channel / 6)) 0x140 15 0 ≠ 0 :=
  ⟨0, wReg (pRG 0) 0x140 1, by decide +kernel⟩

theorem test_wit_late_rows_complete_gleanPositionSave : ∃ (region : Nat) (s : State), region < s.regions :=
  ⟨0, State.reset, by decide +kernel⟩

theorem test_wit_late_rows_complete_nandEraseDone : ∃ (band : Nat) (s : State), band ∈ s.cellar.erasing :=
  ⟨0, { State.reset with cellar.erasing := [0] }, by decide +kernel⟩

theorem test_wit_late_rows_complete_cqCoalesceExpire : ∃ (fn : Fn) (q : Nat) (a : AdminQ) (s : State), s.aq fn q = some a ∧ a.unsignalled ≠ 0 :=
  ⟨.pf0, 0, { aq0 with unsignalled := 1 }, State.reset.setAq .pf0 0 { aq0 with unsignalled := 1 }, by decide +kernel⟩

end Sys2Proof.Machine
end

section
/-!
PROOFS. The statements of the scope of the model: every command is taken; writes to pages that are not there; firings and the event registers; commands that fail the checks every
command meets; BIST results, resets of a function and the event registers of a page.
-/

namespace Sys2Proof.Machine

/-! ### Every command is taken -/

/-- Settles O7: no meaning faults or refuses, each answers a next state. -/
theorem everyCommandIsTaken : Obligations.EveryCommandIsTaken := by
  intro c s
  cases c with
  | _ => exact ⟨_, rfl⟩

/-! ### Firings that change nothing -/

/-- A page that is reserved or absent raises nothing (R3, R35). -/
theorem fireMask_absent {page : Nat} {m : Word} {s : State} (h : pageType page = none ∨ s.absent page = true) : s.fireMask page m = s :=
  if_pos (by rcases h with h | h <;> simp [h])

/-- No source fires. -/
theorem fireMask_zero (page : Nat) (s : State) : s.fireMask page 0 = s := if_pos (.inl rfl)

/-! ### Rows that write a register of a page (R3, R35, R42) -/

/-- A row that writes a register of a page for a requester is a write that the page's presence and its lock guard; the rows of one unit among several are so for the units there are. -/
theorem exec_of_writesPage {c : Instr} {req : Requester} {page : Nat} (s : State) (h : writesPage c = some (req, page)) :
    ∃ f, exec c s = .next (s.guarded req page f) := by
  have below {b n : Nat} {x : Requester × Nat} (h : (if n < b then some x else none) = some (req, page)) : ¬ b ≤ n ∧ x = (req, page) := by
    split at h
    · exact ⟨by omega, Option.some.inj h⟩
    · cases h
  cases c with
  | counterSelectWrite | counterClearWrite | counterOverflowClear | bypassReq | bypassEnd | retrainReqWrite | freqReqWrite | sqTailDoorbell | cqHeadDoorbell
  | lunRetireWrite =>
    obtain ⟨hn, e⟩ := below h
    cases e
    exact ⟨_, congrArg Host.Outcome.next (if_neg hn)⟩
  | pgCtrlEnable | pgCtrlDrain | pgCtrlDrill | resetReq | evFirstWrite | evInjectWrite | resultAckWrite | aqEnableSet | aqEnableClear | apertureBaseWrite | classAckWrite
  | classCfgWrite | faultNClrWrite | fcInjectWrite | tenantDirtyProbe | rateProbeWrite | rtcSetGo | scanStart | scanAbort | slotProbeWrite | wdogWrite | tallyRingHeadWrite
  | tallyProbeWrite | witnessVerdictWrite | portEnWrite =>
    cases Option.some.inj h
    exact ⟨_, rfl⟩
  | _ => exact nomatch h

/-- A write of BAR0 is a write of the register it names, where it is aligned. -/
theorem exec_registerWrite_bar0 (req : Requester) (addr : Nat) (data : Word) (s : State) :
    exec (.registerWrite req 0 addr data) s = .next (if addr % 4 ≠ 0 then s else s.writeRegister req (addr / 4096) (addr % 4096) data) := rfl

/-- A write at an offset of a page that is reserved or absent. -/
theorem writeRegister_absent {req : Requester} {page off : Nat} {data : Word} {s : State} (h : pageType page = none ∨ s.absent page = true) :
    s.writeRegister req page off data = s := by
  unfold State.writeRegister
  exact if_pos (by rcases h with h | h <;> simp [h])

/-- Settles O13: every such row is guarded by the page's presence, before anything else. -/
theorem writesToAbsentPagesChangeNothing : Obligations.WritesToAbsentPagesChangeNothing := by
  refine ⟨fun c req page s hc h => ?_, fun req addr data s h => ?_, fun req page data firing s h => ?_, fun req page hold s h => ?_⟩
  · obtain ⟨f, e⟩ := exec_of_writesPage s hc
    rw [e, guarded_absent s req page f h]
  · rw [exec_registerWrite_bar0, writeRegister_absent h, ite_self]
  · show Host.Outcome.next ((s.guarded req page _).fireMask page _) = _
    rw [guarded_absent s req page _ h, fireMask_absent h]
  · exact congrArg Host.Outcome.next (if_pos (by rcases h with h | h <;> simp [h]))

/-! ### Firings and the event registers (R38) -/

/-- BIN keeps its value when a register of the common header is written, and with it which pages are absent. -/
theorem absent_setReg_header {page off : Nat} (w : Word) (s : State) (p : Nat) (h : off < 0x040) : (s.setReg page off w).absent p = s.absent p := by
  unfold State.absent State.bin State.fld
  rw [reg_setReg s w (by decide) (by omega), if_neg (by omega)]

/-- A page that a write reaches is present. -/
theorem present_of_writable {req : Requester} {page : Nat} {s : State} (hw : s.writable req page = true) : s.absent page = false := by
  unfold State.writable at hw
  simp only [Bool.and_eq_true, Bool.not_eq_true'] at hw
  obtain ⟨⟨_, ha⟩, _⟩ := hw
  exact ha

/-- The sources of the page's type that the row names fire. -/
theorem exec_eventFire {page ty : Nat} (sources : Word) (s : State) (hp : pageType page = some ty) :
    exec (.eventFire page sources) s = .next (s.fireMask page (sources &&& BitVec.ofNat 32 (definedSources ty))) := by
  show execEventFire page sources s = _
  unfold execEventFire
  rw [hp]

/-- A reserved page has no sources. -/
theorem exec_eventFire_reserved {page : Nat} (sources : Word) (s : State) (hp : pageType page = none) : exec (.eventFire page sources) s = .next s := by
  show execEventFire page sources s = _
  unfold execEventFire
  rw [hp]

/-- A write of EV_STATUS that lands clears its bits, and then the sources of the same cycle fire. -/
theorem exec_evStatusWrite {req : Requester} {page : Nat} (data firing : Word) {s : State} (hw : s.writable req page = true) :
    exec (.evStatusWrite req page data firing) s =
      .next ((s.setReg page 0x010 (s.reg page 0x010 &&& ~~~data)).fireMask page (firing &&& BitVec.ofNat 32 (definedSources ((pageType page).getD 0xFF)))) := by
  show Host.Outcome.next ((s.guarded req page _).fireMask page _) = _
  rw [guarded_of_writable s _ hw]

/-- Settles O10: `fire_regs` says what a firing leaves in the event registers and `reg_fireMask_ne` that it leaves every other; a clearing write is a write of EV_STATUS before it. -/
theorem firingsRecordTheEventRegisters : Obligations.FiringsRecordTheEventRegisters := by
  refine ⟨fun page ty sources s hp ha hm => ?_, fun req page ty data firing s hw hp hm => ?_, fun req page data s hw => ?_, fun page sources s h => ?_⟩
  · obtain ⟨status, count, first⟩ := fire_regs page _ s (by rw [hp]; rfl) ha hm
    exact ⟨_, exec_eventFire sources s hp, status, count, first, fun p o ho hne => reg_fireMask_ne s _ ho hne⟩
  · have ha := present_of_writable hw
    have he := exec_evStatusWrite data firing hw
    rw [hp] at he
    have keep {o : Nat} (p : Nat) (ho : o < 4096) (hne : p ≠ page ∨ o ≠ 0x010) :
        (s.setReg page 0x010 (s.reg page 0x010 &&& ~~~data)).reg p o = s.reg p o := by
      rw [reg_setReg s _ ho (by decide), if_neg (by omega)]
    obtain ⟨status, count, first⟩ := fire_regs page _ (s.setReg page 0x010 (s.reg page 0x010 &&& ~~~data)) (by rw [hp]; rfl)
      (by rw [absent_setReg_header _ s page (by decide), ha]) hm
    rw [reg_setReg_self] at status
    rw [keep page (by decide) (.inr (by decide))] at count first
    exact ⟨_, he, status, count, first, fun p o ho hne => (reg_fireMask_ne _ _ ho hne).trans (keep p ho (by omega))⟩
  · have he := exec_evStatusWrite data 0 hw
    rw [show (0 : Word) &&& _ = 0 from BitVec.zero_and, fireMask_zero] at he
    exact ⟨_, he, reg_setReg_self s _ _ _, fun p o ho hne => by rw [reg_setReg s _ ho (by decide), if_neg (by omega)]⟩
  · cases hp : pageType page with
    | none => exact exec_eventFire_reserved sources s hp
    | some ty => rw [exec_eventFire sources s hp, fireMask_absent h]

/-! ### Commands that fail the checks every command meets (R9, R50, R51, R334, R372) -/

/-- A row that stands for an administration command runs it through the checks every command meets. -/
theorem exec_of_adminOf {i : Instr} {op : Nat} {c : AdminCmd} (s : State) (h : adminOf i = some (op, c)) : ∃ body, exec i s = .next (s.adminRun op c body) := by
  have other {p : Prop} [Decidable p] {x : Nat × AdminCmd} (h : (if p then none else some x) = some (op, c)) : ¬ p ∧ x = (op, c) := by
    split at h
    · cases h
    · exact ⟨‹_›, Option.some.inj h⟩
  cases i with
  | resetLevel | resetPowerCycle | resetPowerDown | fwActivateNextReset | fwActivateLive | samplerConfigRequest | samplerConfigInstruction | invalidOpcode =>
    obtain ⟨hp, e⟩ := other h
    cases e
    exact ⟨_, congrArg Host.Outcome.next (if_neg hp)⟩
  | nop | createQp | deleteQp | abort | getChallenge | identify | setVector | runBist | clearCounts | lockBreak | drillAuth | journalRead | tenantCreate | tenantErase
  | windowCreate | objectCreate | objectAlias | windowRevoke | windowRevokeObject | windowModify | hintPreload | hintLock | hintUnlock | hintPinUp | hintPinClear
  | hintReadahead | cacheInvalidate | migratePromote | migrateDemote | qpCreate | qpModifyReady | qpModifyError | qpModifyReset | qpModifyPaths | qpModifyKeysel
  | qpModifySync | qpModifyAcks | qpDestroy | peerSet | planeControlOut | planeControlIn | tenantShare | policySet | powerCapSet | roleSwap | resyncStart | auditStart
  | keyImportWrapped | keyImportEcdh | keyRewrite | keyRewriteNewStorage | keyZeroise | streamOpen | fwStage | coreSwap | configRead | configWrite | tallyRingSet
  | historyClear | marginPlanRead | ageingRun =>
    cases Option.some.inj h
    exact ⟨_, rfl⟩
  | _ => exact nomatch h

/-- A command turned away met the checks in the state it was found in, or in the one its journal entry left, with itself marked as running. -/
theorem turnedAway_checks {s u : State} {op opId st : Nat} {c : AdminCmd} (h : s.turnedAway op c = some (opId, st, u)) :
    ∃ (t : State) (cmds : List Outstanding), (t = s ∨ t = (s.enter op c).2) ∧ ({ t with host.cmds := cmds } : State).checks op c = (some st, u) := by
  unfold State.turnedAway at h
  split at h
  · cases h
  · rename_i o before _
    split at h
    · dsimp only at h
      split at h
      · rename_i hc
        cases h
        refine ⟨_, _, ?_, hc⟩
        split
        · exact .inl rfl
        · exact .inr rfl
      · cases h
    · cases h

/-- Entering a command in the journal moves no register but the journal sequence that the Steward shows (R364). -/
theorem reg_enter_ne (s : State) (op : Nat) (c : AdminCmd) {p o : Nat} (ho : o < 4096) (h : p ≠ pSTW ∨ (o ≠ 0x068 ∧ o ≠ 0x06C)) : (s.enter op c).2.reg p o = s.reg p o := by
  unfold State.enter State.set64
  rw [reg_setNum _ ho (by decide), if_neg (by omega), reg_setNum _ ho (by decide), if_neg (by omega)]
  rfl

/-- The frame of a command turned away: its bookkeeping, entered in the journal and marked as running, and a challenge it used up. -/
theorem turnedAway_frame {s u : State} {op opId st : Nat} {c : AdminCmd} (h : s.turnedAway op c = some (opId, st, u)) :
    (∀ p o, o < 4096 → (p ≠ pSTW ∨ (o ≠ 0x068 ∧ o ≠ 0x06C)) → u.reg p o = s.reg p o) ∧
      u = { s with regs := u.regs, host.cmds := u.host.cmds, host.journal := u.host.journal, host.nextJseq := u.host.nextJseq, host.nextOp := u.host.nextOp,
                   host.challenges := u.host.challenges } := by
  obtain ⟨t, cmds, ht, hc⟩ := turnedAway_checks h
  have hu := checks_keep { t with host.cmds := cmds } op c
  rw [hc] at hu
  dsimp only at hu
  generalize u.host.challenges = left at hu
  subst hu
  rcases ht with rfl | rfl
  · exact ⟨fun _ _ _ _ => rfl, rfl⟩
  · exact ⟨fun p o ho hp => reg_enter_ne s op c ho hp, rfl⟩

/-! #### The checks in their order (log 38) -/

theorem checks_badFields {op : Nat} {c : AdminCmd} {s : State} (hf : badFields c = true) : s.checks op c = (some stINVALID_FIELD, s) := if_pos hf

section
variable {op : Nat} {c : AdminCmd} {s : State} (hf : badFields c = false)
include hf

theorem checks_rescue (h6 : s.stwState = 6) (hr : rescueOk op c = false) : s.checks op c = (some stSTATE_CONFLICT, s) := by
  unfold State.checks
  rw [if_neg (by simp [hf]), if_pos ⟨h6, hr⟩]

variable (hr : s.stwState ≠ 6 ∨ rescueOk op c = true)
include hr

/-- Past the field encodings and RESCUE, the transfer and the authorisation decide. -/
theorem checks_past_rescue : s.checks op c =
    if c.xferOk = false then (some stDATA_XFER_ERROR, s)
    else if cmdAuth c then (if s.authOk op c then (none, s.useChallenge c) else (some stAUTH_FAIL, s.useChallenge c))
    else if op ∈ authOps ∧ ¬(op = 0x41 ∧ c.target = 2 ∧ (KM.getD {} s.larder.slots 2).state = .empty) then (some stAUTH_FAIL, s)
    else (none, s) := by
  unfold State.checks
  rw [if_neg (by simp [hf]), if_neg (fun ⟨h6, hr'⟩ => hr.elim (· h6) (by simp [hr']))]

theorem checks_transfer (hx : c.xferOk = false) : s.checks op c = (some stDATA_XFER_ERROR, s) := by
  rw [checks_past_rescue hf hr, if_pos hx]

theorem checks_unauthorised (hx : c.xferOk = true) (ho : op ∈ authOps) (ha : cmdAuth c = false)
    (he : op ≠ 0x41 ∨ c.target ≠ 2 ∨ (KM.getD {} s.larder.slots 2).state ≠ .empty) : s.checks op c = (some stAUTH_FAIL, s) := by
  rw [checks_past_rescue hf hr, if_neg (by simp [hx]), if_neg (by simp [ha]), if_pos ⟨ho, by tauto⟩]

theorem checks_bad_authorisation (hx : c.xferOk = true) (ha : cmdAuth c = true) (hk : s.authOk op c = false) :
    s.checks op c = (some stAUTH_FAIL, s.useChallenge c) := by
  rw [checks_past_rescue hf hr, if_neg (by simp [hx]), if_pos ha, if_neg (by simp [hk])]

end

/-- Settles O15: every administration row runs through the shared checks, which touch nothing but a challenge. -/
theorem aCommandThatFailsItsChecksChangesNothing : Obligations.ACommandThatFailsItsChecksChangesNothing := by
  refine ⟨fun i op opId st c s u hi h => ?_, fun op opId st c s u h => turnedAway_frame h, fun op c s hf => checks_badFields hf, fun op c s hf h6 hr => checks_rescue hf h6 hr,
    fun op c s hf hr hx => checks_transfer hf hr hx, fun op c s hf hr hx ho ha he => checks_unauthorised hf hr hx ho ha he,
    fun op c s hf hr hx ha hk => checks_bad_authorisation hf hr hx ha hk⟩
  obtain ⟨body, e⟩ := exec_of_adminOf s hi
  rw [e, adminRun_turned s op c opId st u h body]

/-! ### BIST, resets of a function, accesses and the event registers (R7, R9, R23, R34, R38, R39) -/

/-- The end of a BIST of a page that is none of the Steward cores'. -/
theorem exec_pageBistDone {page op : Nat} (passed : Bool) {s : State} (hr : KM.get s.host.bistRuns page = some op) (hp : page < pSC 0) :
    exec (.pageBistDone page passed) s =
      .next (if passed then { s with host.bistRuns := KM.del s.host.bistRuns page }.unretire page else { s with host.bistRuns := KM.del s.host.bistRuns page }.setPg page .failed 5) := by
  have hc : ¬ (pSC 0 ≤ page ∧ page ≤ pSC 2) := by omega
  refine congrArg Host.Outcome.next ?_
  cases passed <;> simp [hr, hc]

/-- Settles O22: each row's own branch, by the conditions that the statement gives. -/
theorem bistAndFunctionResetsComplete : Obligations.BistAndFunctionResetsComplete := by
  refine ⟨fun page passed op s => exec_pageBistDone passed, fun fn s => rfl, fun link s hl hb => ?_, fun link s hl hb => ?_, fun s => rfl,
    fun fn offset width write s h => ?_, fun req addr data s h => ?_, fun page sources ty s hp => exec_eventFire sources s hp,
    fun req page data firing ty s hw hp => ?_, fun req page data s hw hb => ?_, fun req page data g s hw hg hd hm => ?_⟩
  · show Host.Outcome.next (if 2 ≤ link then _ else _) = _
    rw [if_neg (by omega), if_pos hb]
  · show Host.Outcome.next (if 2 ≤ link then _ else _) = _
    rw [if_neg (by omega), if_neg (by simp [hb])]
  · have hx : ¬ ((width = 4 ∧ offset % 4 = 0) ∨ (width = 8 ∧ offset % 8 = 0)) := by
      rintro (⟨rfl, k⟩ | ⟨rfl, k⟩) <;> omega
    refine congrArg Host.Outcome.next ?_
    cases write <;> simp [hx]
  · rw [exec_registerWrite_bar0, if_neg (by omega)]
  · rw [exec_evStatusWrite data firing hw, hp]
    rfl
  · show Host.Outcome.next (s.guarded req page _) = _
    rw [guarded_of_writable s _ hw, if_pos hb]
  · show Host.Outcome.next (s.guarded req page _) = _
    rw [guarded_of_writable s _ hw, hg]
    exact congrArg Host.Outcome.next (if_pos ⟨hd, hm⟩)

end Sys2Proof.Machine
end

section
/-!
PROOFS. The statements of the architecture: die links, islands and the life of a page; admin commands over queue pairs, pages, the journal and resets.
-/

namespace Sys2Proof.Machine

/-! ### Requests of PG_CTRL (R18, R22, R26, R37, R289) -/

section
variable {s : State} {req : Requester} {page region : Nat}

/-- A row that a page's presence and its lock guard leaves what its write leaves, where the write lands. -/
theorem next_guarded {f : State → State} {t : State} (hw : s.writable req page = true) (hf : f s = t) :
    (.next (s.guarded req page f) : Res) = .next t := by
  rw [guarded_of_writable s f hw, hf]

/-- A write of DRAIN: a page in service begins to drain when the bit is set. -/
theorem exec_pgCtrlDrain (on : Bool) (hp : page ≠ pFC) (hw : s.writable req page = true) :
    exec (.pgCtrlDrain req page on) s =
      .next (if on ∧ (s.setFld page 0x008 1 1 (b2n on)).pg page = .service then (s.setFld page 0x008 1 1 (b2n on)).beginDrain page
        else s.setFld page 0x008 1 1 (b2n on)) :=
  next_guarded hw (if_neg hp)

/-- A write of DRILL: a page in drill is reset when the bit is cleared. -/
theorem exec_pgCtrlDrill (on : Bool) (hp : page ≠ pFC) (hw : s.writable req page = true) :
    exec (.pgCtrlDrill req page on) s =
      .next (if on = false ∧ (s.setFld page 0x008 2 2 (b2n on)).pg page = .drill then (s.setFld page 0x008 2 2 (b2n on)).requestReset page 1 0
        else s.setFld page 0x008 2 2 (b2n on)) :=
  next_guarded hw (if_neg hp)

/-- RESET_REQ of a page that may be reset, outside a power loss, a restore and a chip reset already due: on the package and the hub die it asks for a chip reset (R18, log 29). -/
theorem exec_resetReq (hw : s.writable req page = true) (hl : s.lossOrRestore = false) (hn : neverReset page = false) (hc : s.arch.chipDue = none) :
    exec (.resetReq req page) s =
      .next (if page < 2 then (s.requestChip 3).setFld page 0x008 3 3 1 else if s.resettable page then s.requestReset page 1 0 else s) :=
  next_guarded hw (if_neg (by simp [hl, hn, hc]))

/-- BYPASS_REQ of a region in service: it is held while a sequence of the region's own runs (R289), and needs a healthy twin otherwise. -/
theorem exec_bypassReq (hr : region < 4) (hw : s.writable req (pRG region) = true) (hp : s.pg (pRG region) = .service) :
    exec (.bypassReq req region) s =
      .next (if s.ownSequence region then (s.setRegion region { s.region region with request := true }).setFld (pRG region) 0x008 4 4 1
        else if s.twinHealthy then s.enterBypass region .runtime else s) :=
  (congrArg Host.Outcome.next (if_neg (by omega))).trans (next_guarded hw (if_neg (not_not_intro hp)))

end

/-! ### What ends a step of a page's life (R22) -/

section
variable {s : State} {page region : Nat}

/-- The end of the operation of a region in BYPASS (log 29). -/
theorem exec_bypassOpDone (ok : Bool) (hp : s.pg (pRG region) = .bypass) (ho : (s.region region).opRuns = true) :
    exec (.bypassOpDone region ok) s = .next (if ok then s.endTrain region else s.failRegion region) :=
  congrArg Host.Outcome.next (if_neg (by simp [hp, ho]))

/-- The end of a start-up, where the page is no region or one that neither a restore nor a failed engine holds in STARTING. -/
theorem exec_startUpDone (passed : Bool) (hp : s.pg page = .starting)
    (hr : pageType page ≠ some 0x08 ∨ (s.restoring (page - 0x10) = false ∧ s.engineFailed (page - 0x10) = false)) :
    exec (.startUpDone page passed) s =
      .next (let xts := decide (pageType page = some 0x4C)
        let t := if xts then s.setFld page 0x040 2 2 (b2n passed) else s
        if passed then t.joinService page
        else
          let t := (t.retirePage page 5).fire page 31
          if xts then t.fire page 0 else if pageType page = some 0x20 then t.planeTrained (page - 0x40) false else t) :=
  congrArg Host.Outcome.next (if_neg (by rcases hr with h | ⟨h1, h2⟩ <;> simp [*]))

/-- The end of a drain, of a page that is neither a fabric port's nor a twin port's: to DRILL where the bit asks for it, else to OFF and out of service. -/
theorem exec_drainDone (hp : s.pg page = .draining) (h21 : pageType page ≠ some 0x21) (h20 : pageType page ≠ some 0x20) :
    exec (.drainDone page) s =
      .next (if bit (s.reg page 0x008) 2 then (s.setFld page 0x008 1 1 0).setPg page .drill 1
        else ({ s.setFld page 0x008 1 1 0 with arch.inService := s.arch.inService.filter (· ≠ page) }.setFld page 0x008 0 0 0).setPg page .off 1) :=
  congrArg Host.Outcome.next ((if_neg (not_not_intro hp)).trans ((if_neg h21).trans (if_neg h20)))

end

/-- Settles O21: each row's own branch, by the conditions that the statement gives. -/
theorem pageLifeCompletes : Obligations.PageLifeCompletes := by
  refine ⟨?dieLinkFlit, ?islandResetEnter, ?islandFreqChangeDone, ?freqReqWrite, ?enable, ?enableConditionsMet, ?drainSet, ?drainCleared, ?drillSet, ?drillCleared,
    ?resetPage, ?resetChip, ?bypassTaken, ?bypassHeld, ?bypassEnd, ?bypassLimitExpire, ?bypassOpDone, ?bypassOpFailed, ?startUpDone, ?engineStartUpDone,
    ?regionStartUpDone, ?drainedToDrill, ?drainedToOff, ?drainTimeout⟩
  case dieLinkFlit =>
    intro die ok s h2 h5 ha hd
    have there : ¬ (die < 2 ∨ 5 < die ∨ s.absent die = true) := by
      simp only [ha, Bool.false_eq_true, or_false]
      omega
    exact congrArg Host.Outcome.next ((if_neg there).trans (if_neg (by simp [hd])))
  case islandResetEnter => exact fun k waiting s hk => congrArg Host.Outcome.next (if_neg (by omega))
  case islandFreqChangeDone =>
    intro k held f s hk ht
    show execIslandFreqChangeDone k held s = _
    unfold execIslandFreqChangeDone
    rw [ht]
    exact congrArg Host.Outcome.next (if_neg (by omega))
  case freqReqWrite =>
    intro req k mhz s hk hw h25 hmax hmin hcap
    refine (congrArg Host.Outcome.next (if_neg (by omega))).trans (next_guarded hw (if_neg ?_))
    generalize bits _ _ _ = nominal at hmax hmin ⊢
    simp only [hcap, Bool.false_eq_true, or_false]
    omega
  case enable => exact fun req page on s hw => next_guarded hw rfl
  case enableConditionsMet =>
    exact fun page s hp => congrArg Host.Outcome.next (if_neg (by simpa [Option.isSome_iff_ne_none] using hp))
  case drainSet =>
    intro req page s hp hw hs
    rw [exec_pgCtrlDrain true hp hw]
    exact congrArg Host.Outcome.next (if_pos ⟨rfl, hs⟩)
  case drainCleared =>
    intro req page s hp hw
    rw [exec_pgCtrlDrain false hp hw]
    exact congrArg Host.Outcome.next (if_neg (by simp))
  case drillSet =>
    intro req page s hp hw
    rw [exec_pgCtrlDrill true hp hw]
    exact congrArg Host.Outcome.next (if_neg (by simp))
  case drillCleared =>
    intro req page s hp hw hd
    rw [exec_pgCtrlDrill false hp hw]
    exact congrArg Host.Outcome.next (if_pos ⟨rfl, hd⟩)
  case resetPage =>
    intro req page s hw hl hn hc h2 hr
    rw [exec_resetReq hw hl hn hc, if_neg (by omega), if_pos hr]
  case resetChip =>
    intro req page s hw hl hn hc h2
    rw [exec_resetReq hw hl hn hc, if_pos h2]
  case bypassTaken =>
    intro req region s hr hw hp ho ht
    rw [exec_bypassReq hr hw hp, if_neg (by simp [ho]), if_pos ht]
  case bypassHeld =>
    intro req region s hr hw hp ho
    rw [exec_bypassReq hr hw hp, if_pos ho]
  case bypassEnd =>
    exact fun req region s hr hw hb =>
      (congrArg Host.Outcome.next (if_neg (by omega))).trans (next_guarded hw (if_neg (not_not_intro hb)))
  case bypassLimitExpire => exact fun region s => rfl
  case bypassOpDone => exact fun region s => exec_bypassOpDone true
  case bypassOpFailed => exact fun region s => exec_bypassOpDone false
  case startUpDone =>
    intro page passed s hp h08 h4C
    rw [exec_startUpDone passed hp (.inl h08)]
    simp [h4C]
  case engineStartUpDone =>
    intro page passed s hp h4C
    rw [exec_startUpDone passed hp (.inl (by simp [h4C]))]
    cases passed <;> simp [h4C, b2n]
  case regionStartUpDone =>
    intro page s hp h08 hr he
    rw [exec_startUpDone true hp (.inr ⟨hr, he⟩)]
    simp [h08]
  case drainedToDrill =>
    intro page s hp hb h21 h20
    rw [exec_drainDone hp h21 h20, if_pos hb]
  case drainedToOff =>
    intro page s hp hb h21 h20
    rw [exec_drainDone hp h21 h20, if_neg (by simp [hb])]
  case drainTimeout => exact fun page s hp he => congrArg Host.Outcome.next (if_neg (by simp [hp, he]))

/-! ### Administration commands that begin (R47) -/

section
variable {s u : State} {op : Nat} {c : AdminCmd} {body : Nat → State → State × Option Answer} (ha : s.admits op c = true) (hu : s.begun op c = u)
include ha hu

/-- A command that begins goes on or ends as its body says in the state it begins in. -/
theorem adminRun_ends_of_body {r : State × Option Answer} (hb : body (s.opOf op c) u = r) : (.next (s.adminRun op c body) : Res) = s.ends op c r := by
  rw [adminRun_ends s body ha, hu, hb]

/-- A command that begins, and whose body answers SUCCESS, completes with its results. -/
theorem adminRun_success_of_body {t : State} {r0 r1 : Nat} (hb : body (s.opOf op c) u = (t, good r0 r1)) :
    (.next (s.adminRun op c body) : Res) = s.success op c t r0 r1 :=
  adminRun_ends_of_body ha hu hb

end

/-- ABORT of a queue that there can be removes the command it names, where that has not started (R496). -/
theorem exec_abort {c : AdminCmd} {s u : State} (ha : s.admits 0x03 c = true) (hu : s.begun 0x03 c = u) (hq : c.p1 ≤ 31) :
    exec (.abort c) s = match u.host.cmds.find? (abortable c) with
      | none => s.success 0x03 c u
      | some o => s.success 0x03 c ({ u with host.cmds := u.host.cmds.filter fun x => !abortable c x }.holdCqe o.cmd.fn o.cmd.sq
          { cid := o.cmd.cid, sqHead := o.sqHead, sqId := o.cmd.sq, status := stABORTED, result0 := 0, result1 := 0, opId := 0 }) 1 := by
  refine (adminRun_ends_of_body ha hu (if_neg (by omega))).trans ?_
  cases u.host.cmds.find? (abortable c) with
  | none => rfl
  | some o => rfl

/-- Settles O24: each command's body in the state it begins in, past its own checks by the conditions that the statement gives. -/
theorem adminPagesAndQueuesComplete : Obligations.AdminPagesAndQueuesComplete := by
  refine ⟨?nop, ?invalidOpcode, ?createQp, ?deleteQp, ?abortNone, ?abortOne, ?getChallenge, ?identify, ?setVector, ?runBist, ?clearCounts, ?lockBreak, ?drillAuth,
    ?journalRead, ?resetLevel, ?resetPowerCycle, ?resetPowerDown⟩
  case nop => exact fun c s ha => adminRun_success_of_body ha rfl rfl
  case invalidOpcode =>
    exact fun op c s u ha hu ho => (congrArg Host.Outcome.next (if_neg ho)).trans (adminRun_ends_of_body ha hu rfl)
  case createQp =>
    intro c s u ha hu h1 h31 hn hm1 hm hz hsq hcq hnamed hv hcoal hq
    refine adminRun_success_of_body ha hu ?_
    dsimp only
    rw [if_pos hnamed, if_neg, if_neg (by simp [hq])]
    simp only [hnamed, reduceCtorEq, false_and, or_false]
    omega
  case deleteQp =>
    intro c s u ha hu h1 h31 hq
    exact adminRun_success_of_body ha hu ((if_neg (by omega)).trans (if_neg (by simpa [Option.isSome_iff_ne_none] using hq)))
  case abortNone =>
    intro c s u ha hu hq hf
    rw [exec_abort ha hu hq, hf]
  case abortOne =>
    intro c o s u ha hu hq hf
    rw [exec_abort ha hu hq, hf]
  case getChallenge => exact fun c s u ha hu hd => adminRun_success_of_body ha hu (if_neg (by simp [hd]))
  case identify => exact fun c s u ha hu hl hd => adminRun_success_of_body ha hu (congrArg (·, good) (if_neg (by simp [hl, hd])))
  case setVector =>
    intro c s u ha hu hp h64 h2047 hl hf
    have valid : ¬ (u.realPage c.target = false ∨ c.p0 < 64 ∨ 2047 < c.p0) := by
      simp only [hp, Bool.true_eq_false, false_or]
      omega
    refine adminRun_success_of_body ha hu ((if_neg valid).trans ((if_neg (by simp [hl])).trans ?_))
    cases c.fn with
    | pf0 =>
      dsimp only
      rw [if_neg hf]
    | pf1 =>
      dsimp only
      rw [if_neg hf]
  case runBist =>
    intro c s u ha hu hp hl hs hf
    exact adminRun_success_of_body ha hu ((if_neg (by simp [hp])).trans ((if_neg (by simp [hl])).trans (if_neg (by simp [hs, hf]))))
  case clearCounts =>
    intro c s u ha hu hp hl ht
    refine adminRun_success_of_body ha hu ((if_neg (by simp [hp])).trans ((if_neg (by simp [hl])).trans ?_))
    exact congrArg (·, good) (if_neg ht)
  case lockBreak => exact fun c s u ha hu hp => adminRun_success_of_body ha hu (if_neg (by simp [hp]))
  case drillAuth =>
    intro c s u ha hu hp hn hm hl hd
    refine adminRun_success_of_body ha hu ((if_neg ?_).trans ((if_neg (by simp [hl])).trans (if_neg (not_not_intro hd))))
    rw [hp, hn, hm]
    simp
  case journalRead =>
    intro c s u ha hu hl
    refine adminRun_success_of_body ha hu ((if_neg (by omega)).trans ?_)
    dsimp only
    rw [List.length_reverse, List.length_take]
  case resetLevel =>
    intro c s u ha hu h0 hp hn hl hr h2 hs
    refine (congrArg Host.Outcome.next (if_neg (by omega))).trans (adminRun_ends_of_body ha hu ?_)
    rw [if_neg (by simp [h0, hp, hn]), if_neg (by simp [hl]), if_neg (by simp [hr]), if_neg (by omega), if_neg (by simp [hs])]
  case resetPowerCycle =>
    intro c s u ha hu h1 hp
    refine (congrArg Host.Outcome.next (if_neg (not_not_intro h1))).trans (adminRun_ends_of_body ha hu ?_)
    rw [hp]
  case resetPowerDown =>
    intro c s u ha hu h2 hp
    refine (congrArg Host.Outcome.next (if_neg (not_not_intro h2))).trans (adminRun_ends_of_body ha hu ?_)
    rw [hp]

end Sys2Proof.Machine
end

section
/-!
PROOFS. What every command and every step keeps: the queue, and the canonical form of the register file and of the Loft.
-/

namespace Sys2Proof.Machine

/-- What a command keeps, said once for all of them: the queue, a canonical register file, and a property of the Loft that, where the command may write there, is the canonical form. -/
theorem kept_exec {Q : KMap Byte → KMap Bool → Prop} {ql : List Instr} (c : Instr) (s : State) (hQ : mayWriteLoft c = true → Q = CanonLoft) (hs : Kept Q ql s) :
    ∀ out, exec c s = .next out → Kept Q ql out := by
  cases c with
  | dieLinkFlit => exact kept_execDieLinkFlit _ _ s hs
  | islandResetEnter => exact kept_execIslandResetEnter _ _ s hs
  | islandFreqChangeDone => exact kept_execIslandFreqChangeDone _ _ s hs
  | freqReqWrite => exact kept_execFreqReqWrite _ _ _ s hs
  | pgCtrlEnable => exact kept_execPgCtrlEnable _ _ _ s hs
  | enableConditionsMet => exact kept_execEnableConditionsMet _ s hs
  | pgCtrlDrain =>
    cases hQ rfl
    exact kept_execPgCtrlDrain _ _ _ s hs
  | pgCtrlDrill =>
    cases hQ rfl
    exact kept_execPgCtrlDrill _ _ _ s hs
  | resetReq =>
    cases hQ rfl
    exact kept_execResetReq _ _ s hs
  | bypassReq => exact kept_execBypassReq _ _ s hs
  | bypassEnd => exact kept_execBypassEnd _ _ s hs
  | bypassLimitExpire => exact kept_execBypassLimitExpire _ s hs
  | bypassOpDone => exact kept_execBypassOpDone _ _ s hs
  | startUpDone =>
    cases hQ rfl
    exact kept_execStartUpDone _ _ s hs
  | drainDone =>
    cases hQ rfl
    exact kept_execDrainDone _ s hs
  | drainTimeout => exact kept_execDrainTimeout _ s hs
  | pageBistDone => exact kept_execPageBistDone _ _ s hs
  | functionLevelReset => exact kept_execFunctionLevelReset _ s hs
  | perstN => exact kept_execPerstN _ s hs
  | trstN => exact kept_execTrstN s hs
  | bar0NarrowAccess fn offset width write => exact kept_execBar0NarrowAccess fn offset width write s hs
  | registerWrite =>
    cases hQ rfl
    exact kept_execRegisterWrite _ _ _ _ s hs
  | eventFire => exact kept_execEventFire _ _ s hs
  | evStatusWrite => exact kept_execEvStatusWrite _ _ _ _ s hs
  | evFirstWrite => exact kept_execEvFirstWrite _ _ _ s hs
  | evInjectWrite => exact kept_execEvInjectWrite _ _ _ s hs
  | pgLockWrite => exact kept_execPgLockWrite _ _ _ s hs
  | resultAckWrite => exact kept_execResultAckWrite _ _ _ _ s hs
  | aqEnableSet => exact kept_execAqEnableSet _ _ s hs
  | aqEnableClear => exact kept_execAqEnableClear _ _ s hs
  | sqTailDoorbell => exact kept_execSqTailDoorbell _ _ _ s hs
  | cqHeadDoorbell => exact kept_execCqHeadDoorbell _ _ _ s hs
  | sqeFetch => exact kept_execSqeFetch _ _ _ _ s hs
  | cqePost => exact kept_execCqePost _ _ s hs
  | cqStall => exact kept_execCqStall _ _ s hs
  | apertureBaseWrite => exact kept_execApertureBaseWrite _ _ _ s hs
  | bar2Read => exact kept_execBar2Read _ _ _ s hs
  | bar2Write =>
    cases hQ rfl
    exact kept_execBar2Write _ _ _ s hs
  | nop => exact kept_execNop _ s hs
  | invalidOpcode => exact kept_execInvalidOpcode _ _ s hs
  | createQp => exact kept_execCreateQp _ s hs
  | deleteQp => exact kept_execDeleteQp _ s hs
  | abort => exact kept_execAbort _ s hs
  | getChallenge => exact kept_execGetChallenge _ s hs
  | identify => exact kept_execIdentify _ s hs
  | setVector => exact kept_execSetVector _ s hs
  | runBist => exact kept_execRunBist _ s hs
  | clearCounts => exact kept_execClearCounts _ s hs
  | lockBreak => exact kept_execLockBreak _ s hs
  | drillAuth => exact kept_execDrillAuth _ s hs
  | journalRead => exact kept_execJournalRead _ s hs
  | resetLevel =>
    cases hQ rfl
    exact kept_execResetLevel _ s hs
  | resetPowerCycle =>
    cases hQ rfl
    exact kept_execResetPowerCycle _ s hs
  | resetPowerDown =>
    cases hQ rfl
    exact kept_execResetPowerDown _ s hs
  | tenantCreate => exact kept_execTenantCreate _ s hs
  | tenantErase =>
    cases hQ rfl
    exact kept_execTenantErase _ s hs
  | windowCreate => exact kept_execWindowCreate _ s hs
  | objectCreate => exact kept_execObjectCreate _ s hs
  | objectAlias => exact kept_execObjectAlias _ s hs
  | windowRevoke => exact kept_execWindowRevoke _ s hs
  | windowRevokeObject =>
    cases hQ rfl
    exact kept_execWindowRevokeObject _ s hs
  | revokeFenceDrained =>
    cases hQ rfl
    exact kept_execRevokeFenceDrained _ s hs
  | revokeLate => exact kept_execRevokeLate _ s hs
  | windowModify => exact kept_execWindowModify _ s hs
  | hintPreload => exact kept_execHintPreload _ s hs
  | hintLock => exact kept_execHintLock _ s hs
  | hintUnlock => exact kept_execHintUnlock _ s hs
  | hintPinUp => exact kept_execHintPinUp _ s hs
  | hintPinClear => exact kept_execHintPinClear _ s hs
  | hintReadahead => exact kept_execHintReadahead _ s hs
  | cacheInvalidate => exact kept_execCacheInvalidate _ s hs
  | windowCacheFillDone => exact kept_execWindowCacheFillDone _ s hs
  | translationFillDone => exact kept_execTranslationFillDone _ _ s hs
  | migratePromote =>
    cases hQ rfl
    exact kept_execMigratePromote _ s hs
  | migrateDemote =>
    cases hQ rfl
    exact kept_execMigrateDemote _ s hs
  | migrateCopyRoundDone =>
    cases hQ rfl
    exact kept_execMigrateCopyRoundDone _ s hs
  | migrateSwitchConfirmed =>
    cases hQ rfl
    exact kept_execMigrateSwitchConfirmed _ s hs
  | migrateStallLimit =>
    cases hQ rfl
    exact kept_execMigrateStallLimit _ s hs
  | moverZeroFillDone =>
    cases hQ rfl
    exact kept_execMoverZeroFillDone _ s hs
  | qpCreate => exact kept_execQpCreate _ s hs
  | qpModifyReady => exact kept_execQpModifyReady _ s hs
  | qpModifyError => exact kept_execQpModifyError _ s hs
  | qpModifyReset => exact kept_execQpModifyReset _ s hs
  | qpModifyPaths => exact kept_execQpModifyPaths _ s hs
  | qpModifyKeysel => exact kept_execQpModifyKeysel _ s hs
  | qpModifySync => exact kept_execQpModifySync _ s hs
  | qpModifyAcks => exact kept_execQpModifyAcks _ s hs
  | qpDestroy => exact kept_execQpDestroy _ s hs
  | peerSet => exact kept_execPeerSet _ s hs
  | planeControlOut => exact kept_execPlaneControlOut _ s hs
  | planeDrainExpire => exact kept_execPlaneDrainExpire _ s hs
  | planeControlIn => exact kept_execPlaneControlIn _ s hs
  | tenantShare => exact kept_execTenantShare _ s hs
  | policySet =>
    cases hQ rfl
    exact kept_execPolicySet _ s hs
  | powerCapSet => exact kept_execPowerCapSet _ s hs
  | roleSwap => exact kept_execRoleSwap _ s hs
  | roleSwapDrained => exact kept_execRoleSwapDrained s hs
  | resyncStart => exact kept_execResyncStart _ s hs
  | resyncComplete =>
    cases hQ rfl
    exact kept_execResyncComplete s hs
  | auditStart => exact kept_execAuditStart _ s hs
  | keyImportWrapped => exact kept_execKeyImportWrapped _ s hs
  | keyImportEcdh => exact kept_execKeyImportEcdh _ s hs
  | keyRewrite => exact kept_execKeyRewrite _ s hs
  | keyRewriteNewStorage => exact kept_execKeyRewriteNewStorage _ s hs
  | rewriteSwitch => exact kept_execRewriteSwitch _ s hs
  | keyZeroise =>
    cases hQ rfl
    exact kept_execKeyZeroise _ s hs
  | streamOpen => exact kept_execStreamOpen _ s hs
  | streamSegDone =>
    cases hQ rfl
    exact kept_execStreamSegDone _ _ _ s hs
  | fwStage => exact kept_execFwStage _ s hs
  | fwActivateNextReset => exact kept_execFwActivateNextReset _ s hs
  | fwActivateLive => exact kept_execFwActivateLive _ s hs
  | liveActivationStepDone => exact kept_execLiveActivationStepDone _ _ _ s hs
  | probationEnd => exact kept_execProbationEnd s hs
  | coreSwap => exact kept_execCoreSwap _ s hs
  | configRead => exact kept_execConfigRead _ s hs
  | configWrite => exact kept_execConfigWrite _ s hs
  | tallyRingSet => exact kept_execTallyRingSet _ s hs
  | historyRead => exact kept_execHistoryRead _ _ s hs
  | historyClear => exact kept_execHistoryClear _ s hs
  | samplerConfigRequest => exact kept_execSamplerConfigRequest _ s hs
  | samplerConfigInstruction => exact kept_execSamplerConfigInstruction _ s hs
  | marginPlanRead => exact kept_execMarginPlanRead _ s hs
  | ageingRun => exact kept_execAgeingRun _ s hs
  | pxtWriteRx =>
    cases hQ rfl
    exact kept_execPxtWriteRx _ s hs
  | pxtReadRx =>
    cases hQ rfl
    exact kept_execPxtReadRx _ s hs
  | markEchoRx =>
    cases hQ rfl
    exact kept_execMarkEchoRx _ s hs
  | probeRx =>
    cases hQ rfl
    exact kept_execProbeRx _ _ s hs
  | probeReplyRx =>
    cases hQ rfl
    exact kept_execProbeReplyRx _ s hs
  | exceptionFrameRx => exact kept_execExceptionFrameRx _ _ s hs
  | nonPxtFrameRx => exact kept_execNonPxtFrameRx _ s hs
  | qpcFetchDone =>
    cases hQ rfl
    exact kept_execQpcFetchDone _ s hs
  | missqWaitExpire => exact kept_execMissqWaitExpire _ s hs
  | qpcWritebackDone => exact kept_execQpcWritebackDone _ s hs
  | packetPlacement =>
    cases hQ rfl
    exact kept_execPacketPlacement _ _ s hs
  | ackDelayExpire => exact kept_execAckDelayExpire _ s hs
  | trackerTimeout => exact kept_execTrackerTimeout _ _ s hs
  | readDataReady => exact kept_execReadDataReady _ _ _ s hs
  | readRespDepart => exact kept_execReadRespDepart _ s hs
  | probeIdleExpire => exact kept_execProbeIdleExpire _ _ s hs
  | probeTimeoutExpire => exact kept_execProbeTimeoutExpire _ _ s hs
  | fabricLinkDown => exact kept_execFabricLinkDown _ s hs
  | fabricLinkUp => exact kept_execFabricLinkUp _ s hs
  | rateBatch => exact kept_execRateBatch _ s hs
  | rateProbeWrite => exact kept_execRateProbeWrite _ _ s hs
  | harvestPlan =>
    cases hQ rfl
    exact kept_execHarvestPlan _ _ s hs
  | harvestProgramDone =>
    cases hQ rfl
    exact kept_execHarvestProgramDone _ _ s hs
  | gatherFillDone =>
    cases hQ rfl
    exact kept_execGatherFillDone _ _ s hs
  | wearBucketSave => exact kept_execWearBucketSave s hs
  | tenantDirtyProbe => exact kept_execTenantDirtyProbe _ _ s hs
  | ledgerPeriod =>
    cases hQ rfl
    exact kept_execLedgerPeriod _ _ _ _ _ _ s hs
  | vbankOv => exact kept_execVbankOv _ _ s hs
  | chargerRestart => exact kept_execChargerRestart s hs
  | senseMismatch => exact kept_execSenseMismatch s hs
  | couplerFault =>
    cases hQ rfl
    exact kept_execCouplerFault s hs
  | vbusOv => exact kept_execVbusOv s hs
  | chargerFault => exact kept_execChargerFault s hs
  | powerLoss =>
    cases hQ rfl
    exact kept_execPowerLoss s hs
  | rideRecovered =>
    cases hQ rfl
    exact kept_execRideRecovered s hs
  | rideExpire =>
    cases hQ rfl
    exact kept_execRideExpire s hs
  | flushDataEnd => exact kept_execFlushDataEnd s hs
  | flushStop => exact kept_execFlushStop _ _ _ s hs
  | managedPowerDown =>
    cases hQ rfl
    exact kept_execManagedPowerDown s hs
  | vbusReturnCountDone => exact kept_execVbusReturnCountDone s hs
  | vbusReturnWaitExpire =>
    cases hQ rfl
    exact kept_execVbusReturnWaitExpire s hs
  | restoreStepDone =>
    cases hQ rfl
    exact kept_execRestoreStepDone _ _ s hs
  | twinWaitExpire =>
    cases hQ rfl
    exact kept_execTwinWaitExpire s hs
  | regionRestoreReady =>
    cases hQ rfl
    exact kept_execRegionRestoreReady _ s hs
  | imageRelease => exact kept_execImageRelease s hs
  | zoneEraseDone => exact kept_execZoneEraseDone _ _ s hs
  | loftPageLoadDone =>
    cases hQ rfl
    exact kept_execLoftPageLoadDone _ _ s hs
  | mirrorDataRx =>
    cases hQ rfl
    exact kept_execMirrorDataRx _ s hs
  | mirrorMetaRx =>
    cases hQ rfl
    exact kept_execMirrorMetaRx _ s hs
  | mackRx =>
    cases hQ rfl
    exact kept_execMackRx _ s hs
  | leaseRx =>
    cases hQ rfl
    exact kept_execLeaseRx _ s hs
  | leaseGrantRx =>
    cases hQ rfl
    exact kept_execLeaseGrantRx _ s hs
  | noticeRx =>
    cases hQ rfl
    exact kept_execNoticeRx _ s hs
  | readReqRx => exact kept_execReadReqRx _ s hs
  | readDataRx =>
    cases hQ rfl
    exact kept_execReadDataRx _ s hs
  | logRx => exact kept_execLogRx _ s hs
  | auditReqRx =>
    cases hQ rfl
    exact kept_execAuditReqRx _ s hs
  | auditDigestRx => exact kept_execAuditDigestRx _ s hs
  | helloRx =>
    cases hQ rfl
    exact kept_execHelloRx _ s hs
  | twinFrameDrop => exact kept_execTwinFrameDrop _ _ s hs
  | mackSendTimer =>
    cases hQ rfl
    exact kept_execMackSendTimer _ s hs
  | twinRtoExpire => exact kept_execTwinRtoExpire _ s hs
  | mirrorUnappliedLimit =>
    cases hQ rfl
    exact kept_execMirrorUnappliedLimit _ s hs
  | leaseSendTimer => exact kept_execLeaseSendTimer s hs
  | leaseExpire =>
    cases hQ rfl
    exact kept_execLeaseExpire s hs
  | grantMissingExpire =>
    cases hQ rfl
    exact kept_execGrantMissingExpire s hs
  | helloTimeout =>
    cases hQ rfl
    exact kept_execHelloTimeout s hs
  | witnessVerdictWrite =>
    cases hQ rfl
    exact kept_execWitnessVerdictWrite _ _ s hs
  | soloEnter =>
    cases hQ rfl
    exact kept_execSoloEnter s hs
  | twinPortLinkDown =>
    cases hQ rfl
    exact kept_execTwinPortLinkDown _ s hs
  | twinPortLinkUp =>
    cases hQ rfl
    exact kept_execTwinPortLinkUp _ s hs
  | portEnWrite =>
    cases hQ rfl
    exact kept_execPortEnWrite _ _ s hs
  | readReqTimeout =>
    cases hQ rfl
    exact kept_execReadReqTimeout _ s hs
  | nandReadDone =>
    cases hQ rfl
    exact kept_execNandReadDone _ _ _ s hs
  | sheafWaitExpire =>
    cases hQ rfl
    exact kept_execSheafWaitExpire _ _ s hs
  | relocationCopyDone => exact kept_execRelocationCopyDone _ s hs
  | dailyWearRelocation => exact kept_execDailyWearRelocation _ s hs
  | programFail => exact kept_execProgramFail _ _ _ s hs
  | eraseFail => exact kept_execEraseFail _ _ _ s hs
  | lunRetireWrite => exact kept_execLunRetireWrite _ _ _ s hs
  | lunFault => exact kept_execLunFault _ _ s hs
  | lunRetired => exact kept_execLunRetired _ _ s hs
  | stagingReadDone =>
    cases hQ rfl
    exact kept_execStagingReadDone _ _ s hs
  | refreshInterval => exact kept_execRefreshInterval _ _ _ s hs
  | rowActivation => exact kept_execRowActivation _ _ _ _ _ _ _ s hs
  | throttleEnd => exact kept_execThrottleEnd _ _ s hs
  | bankIdleTimer => exact kept_execBankIdleTimer _ _ _ _ _ s hs
  | rankPdIdle => exact kept_execRankPdIdle _ _ s hs
  | dimmTempPoll => exact kept_execDimmTempPoll _ _ _ s hs
  | spdFault => exact kept_execSpdFault _ s hs
  | retrainReqWrite => exact kept_execRetrainReqWrite _ _ _ s hs
  | retrainBypassStart => exact kept_execRetrainBypassStart _ s hs
  | trainStepDone => exact kept_execTrainStepDone _ s hs
  | trainVerifyDone => exact kept_execTrainVerifyDone _ _ _ _ s hs
  | retrainDeferred => exact kept_execRetrainDeferred _ s hs
  | speedChangeStart => exact kept_execSpeedChangeStart _ s hs
  | speedChangeDone => exact kept_execSpeedChangeDone _ _ s hs
  | hardRepairStepDone =>
    cases hQ rfl
    exact kept_execHardRepairStepDone _ s hs
  | softRepairDone => exact kept_execSoftRepairDone _ _ _ _ _ _ s hs
  | loftLineDecode =>
    cases hQ rfl
    exact kept_execLoftLineDecode _ _ _ s hs
  | lineRecoveryDone =>
    cases hQ rfl
    exact kept_execLineRecoveryDone _ _ s hs
  | pageRetireDone => exact kept_execPageRetireDone _ s hs
  | parityError => exact kept_execParityError _ _ s hs
  | scanStart => exact kept_execScanStart _ _ s hs
  | scanAbort => exact kept_execScanAbort _ _ _ s hs
  | scanDone => exact kept_execScanDone _ _ s hs
  | gleanSlice =>
    cases hQ rfl
    exact kept_execGleanSlice _ _ _ _ _ _ s hs
  | gleanPassEnd => exact kept_execGleanPassEnd _ _ s hs
  | larderRequest => exact kept_execLarderRequest _ _ _ _ _ _ _ _ _ _ s hs
  | sealUnitDone =>
    cases hQ rfl
    exact kept_execSealUnitDone _ _ _ s hs
  | hwmRecordProgrammed => exact kept_execHwmRecordProgrammed _ s hs
  | drbgReseed => exact kept_execDrbgReseed s hs
  | healthTestFail => exact kept_execHealthTestFail s hs
  | drbgReinstantiate => exact kept_execDrbgReinstantiate s hs
  | classDSensor =>
    cases hQ rfl
    exact kept_execClassDSensor s hs
  | keyRecordBlockErase => exact kept_execKeyRecordBlockErase s hs
  | slotProbeWrite => exact kept_execSlotProbeWrite _ _ s hs
  | checkpoint => exact kept_execCheckpoint _ s hs
  | miscompare => exact kept_execMiscompare s hs
  | coreBistDone => exact kept_execCoreBistDone _ _ s hs
  | spareLoaded => exact kept_execSpareLoaded _ s hs
  | replayEnd => exact kept_execReplayEnd _ s hs
  | fenceOutput => exact kept_execFenceOutput _ _ _ _ _ _ s hs
  | wdogWrite => exact kept_execWdogWrite _ s hs
  | stewardWatchdog => exact kept_execStewardWatchdog s hs
  | bootRomStart => exact kept_execBootRomStart _ _ s hs
  | mainImageStart => exact kept_execMainImageStart _ _ _ _ _ s hs
  | atticCmdWrite => exact kept_execAtticCmdWrite _ _ s hs
  | atticSeqTimeout => exact kept_execAtticSeqTimeout s hs
  | atticOpDone => exact kept_execAtticOpDone _ s hs
  | atticRead => exact kept_execAtticRead _ _ _ s hs
  | atticResetDeferEnd =>
    cases hQ rfl
    exact kept_execAtticResetDeferEnd s hs
  | xipFetch => exact kept_execXipFetch _ _ s hs
  | coldStart =>
    cases hQ rfl
    exact kept_execColdStart _ _ s hs
  | startConditionsMet => exact kept_execStartConditionsMet s hs
  | seqSyncRise =>
    cases hQ rfl
    exact kept_execSeqSyncRise _ _ s hs
  | seqStepTimeout => exact kept_execSeqStepTimeout s hs
  | seqDownRequest =>
    cases hQ rfl
    exact kept_execSeqDownRequest s hs
  | pgInputLow => exact kept_execPgInputLow _ s hs
  | pgStable => exact kept_execPgStable _ s hs
  | seqInRise => exact kept_execSeqInRise s hs
  | seqInFall =>
    cases hQ rfl
    exact kept_execSeqInFall s hs
  | railLost =>
    cases hQ rfl
    exact kept_execRailLost _ s hs
  | dischargeTimeout =>
    cases hQ rfl
    exact kept_execDischargeTimeout _ s hs
  | seqStall =>
    cases hQ rfl
    exact kept_execSeqStall s hs
  | faultHoldExpire => exact kept_execFaultHoldExpire s hs
  | faultRetry => exact kept_execFaultRetry s hs
  | cascDelayExpire => exact kept_execCascDelayExpire s hs
  | cascDownWaitExpire => exact kept_execCascDownWaitExpire s hs
  | refclkLoss =>
    cases hQ rfl
    exact kept_execRefclkLoss _ s hs
  | refclkReturn => exact kept_execRefclkReturn _ s hs
  | islandUnlock =>
    cases hQ rfl
    exact kept_execIslandUnlock _ s hs
  | chipReset =>
    cases hQ rfl
    exact kept_execChipReset s hs
  | ageingWindowOpen => exact kept_execAgeingWindowOpen s hs
  | ageingRetryTimer => exact kept_execAgeingRetryTimer s hs
  | bankMeasDone => exact kept_execBankMeasDone _ _ _ _ _ _ _ s hs
  | bankMeasAbort => exact kept_execBankMeasAbort s hs
  | retryProbeDone => exact kept_execRetryProbeDone _ _ _ s hs
  | senseProbeDone => exact kept_execSenseProbeDone _ _ s hs
  | ageingWindowClose => exact kept_execAgeingWindowClose s hs
  | slackMonitor => exact kept_execSlackMonitor _ _ s hs
  | eyeMeasure =>
    cases hQ rfl
    exact kept_execEyeMeasure _ _ _ _ s hs
  | laneRetrainDone =>
    cases hQ rfl
    exact kept_execLaneRetrainDone _ _ _ _ s hs
  | fcFiringArrival =>
    cases hQ rfl
    exact kept_execFcFiringArrival s hs
  | graceExpire =>
    cases hQ rfl
    exact kept_execGraceExpire _ _ s hs
  | classAckWrite => exact kept_execClassAckWrite _ _ s hs
  | classCfgWrite => exact kept_execClassCfgWrite _ _ s hs
  | faultNClrWrite => exact kept_execFaultNClrWrite _ _ s hs
  | fcInjectWrite =>
    cases hQ rfl
    exact kept_execFcInjectWrite _ _ s hs
  | rtcSetGo => exact kept_execRtcSetGo _ _ s hs
  | rtcSlewDone => exact kept_execRtcSlewDone s hs
  | rtcNowLoRead => exact kept_execRtcNowLoRead s hs
  | summaryBoundary => exact kept_execSummaryBoundary _ s hs
  | historyPageProgram => exact kept_execHistoryPageProgram s hs
  | historyStateCopy => exact kept_execHistoryStateCopy _ _ s hs
  | historyHeadScanDone => exact kept_execHistoryHeadScanDone s hs
  | historyEraseDeferLimit => exact kept_execHistoryEraseDeferLimit s hs
  | minuteBoundary => exact kept_execMinuteBoundary _ s hs
  | tallyCloseStart => exact kept_execTallyCloseStart s hs
  | tallyStagingCopy => exact kept_execTallyStagingCopy s hs
  | tallyRingDelivery => exact kept_execTallyRingDelivery _ s hs
  | tallyRingHeadWrite => exact kept_execTallyRingHeadWrite _ _ s hs
  | tallyProbeWrite => exact kept_execTallyProbeWrite _ _ s hs
  | counterSelectWrite => exact kept_execCounterSelectWrite _ _ _ _ s hs
  | counterClearWrite => exact kept_execCounterClearWrite _ _ _ _ s hs
  | counterOverflowClear => exact kept_execCounterOverflowClear _ _ _ _ s hs
  | counterValueLoRead => exact kept_execCounterValueLoRead _ _ s hs
  | sampleRecordClose => exact kept_execSampleRecordClose _ _ s hs
  | samplerPopRead => exact kept_execSamplerPopRead _ s hs
  | detectorRecovery => exact kept_execDetectorRecovery s hs
  | vbusDip => exact kept_execVbusDip s hs
  | railDischarged =>
    cases hQ rfl
    exact kept_execRailDischarged _ s hs
  | islandClocksLocked => exact kept_execIslandClocksLocked s hs
  | laneFault => exact kept_execLaneFault _ s hs
  | rtcOscFail => exact kept_execRtcOscFail s hs
  | retrainPeriodExpire => exact kept_execRetrainPeriodExpire _ s hs
  | gleanPositionSave => exact kept_execGleanPositionSave _ s hs
  | atticRecordRewrite => exact kept_execAtticRecordRewrite _ s hs
  | nandEraseDone => exact kept_execNandEraseDone _ s hs
  | cqCoalesceExpire => exact kept_execCqCoalesceExpire _ _ s hs

/-- From a canonical state a command answers a canonical one, and leaves the queue. -/
theorem kept_exec_of_canon {c : Instr} {s t : State} (hs : Canon s) (h : exec c s = .next t) : Kept CanonLoft s.pending t :=
  kept_exec c s (fun _ => rfl) (kept_of_canon hs) t h

/-- A step with a command waiting is that command on the rest of the queue. -/
theorem step_of_pending {c : Instr} {q : List Instr} {s : State} (h : s.pending = c :: q) : step s = exec c { s with pending := q } := by
  unfold step
  rw [h]

/-- An idle step moves the clock on. -/
theorem step_of_idle {s : State} (h : s.pending = []) : step s = .next { s with now := s.now + 1 } := by
  unfold step
  rw [h]

/-- Settles O5: the idle step touches no memory, and every command keeps the canonical form. -/
theorem everyStepKeepsTheCanonicalForm : Obligations.EveryStepKeepsTheCanonicalForm := by
  intro s t hs ht
  cases hp : s.pending with
  | nil =>
    rw [step_of_idle hp] at ht
    cases ht
    exact hs
  | cons c q =>
    rw [step_of_pending hp] at ht
    exact canon_of_kept (kept_exec_of_canon (s := { s with pending := q }) hs ht)

/-- Settles O6: a command keeps the queue it runs with, which for a step is the rest behind the front. -/
theorem aCommandLeavesTheRestOfTheQueue : Obligations.ACommandLeavesTheRestOfTheQueue := by
  refine ⟨fun c s t hs ht => pending_of_kept (kept_exec_of_canon hs ht), fun c q s t hs hp ht => ?_⟩
  rw [step_of_pending hp] at ht
  exact pending_of_kept (kept_exec_of_canon (s := { s with pending := q }) hs ht)

end Sys2Proof.Machine
end

section
/-!
PROOFS. The state after reset, page locks, and the registers of results.
-/

namespace Sys2Proof.Machine

/-! ### The state after reset (R36, and the register tables) -/

/-- After reset a register reads its reset value. -/
theorem reg_reset (page : Nat) {off : Nat} (h : off < 4096) : State.reset.reg page off = resetWord page off := by
  show resetWord ((page * 4096 + off) / 4096) ((page * 4096 + off) % 4096) = _
  rw [show (page * 4096 + off) / 4096 = page by omega, show (page * 4096 + off) % 4096 = off by omega]

/-- The header registers that reset to 0: of the header only the identity, the version, the enables, the severities, the island and the parent hold more. -/
theorem resetWord_zero (page : Nat) {off : Nat} (h : off < 0x040) (ho : off ∉ [0x000, 0x004, 0x014, 0x020, 0x024, 0x030, 0x034]) : resetWord page off = 0 := by
  simp only [List.mem_cons, List.not_mem_nil, or_false, not_or] at ho
  obtain ⟨h00, h04, h14, h20, h24, h30, h34⟩ := ho
  unfold resetWord
  split
  · rfl
  · rw [if_neg h00, if_neg h04, if_neg h14, if_neg h20, if_neg h24, if_neg h30, if_neg h34, if_pos h]
    rfl

theorem resetWord_pgVersion {page ty : Nat} (h : pageType page = some ty) : resetWord page 0x004 = 0xB1010100 := by
  unfold resetWord
  rw [h]
  rfl

theorem resetWord_evEnable {page ty : Nat} (h : pageType page = some ty) : resetWord page 0x014 = BitVec.ofNat 32 (definedSources ty) := by
  unfold resetWord
  rw [h]
  rfl

/-- Settles O3: the register file and the Loft list nothing after reset, so that every register reads its table's value and every byte 0. -/
theorem resetLeavesTheRegistersAtTheirResetValues : Obligations.ResetLeavesTheRegistersAtTheirResetValues := by
  refine ⟨fun page ty h => ?_, ?_, rfl, fun a => ⟨rfl, rfl⟩⟩
  · have zero {off : Nat} (h : off < 0x040) (ho : off ∉ [0x000, 0x004, 0x014, 0x020, 0x024, 0x030, 0x034]) : State.reset.reg page off = 0 :=
      (reg_reset page (by omega)).trans (resetWord_zero page h ho)
    exact ⟨(reg_reset page (by decide)).trans (resetWord_pgVersion h), zero (by decide) (by decide), zero (by decide) (by decide), zero (by decide) (by decide),
      (reg_reset page (by decide)).trans (resetWord_evEnable h), zero (by decide) (by decide), zero (by decide) (by decide), zero (by decide) (by decide)⟩
  · unfold State.fld State.num
    decide +kernel

/-- Settles O4: nothing is listed after reset. -/
theorem resetIsCanonical : Obligations.ResetIsCanonical := ⟨rfl, canonLoft_empty⟩

/-! ### Page locks (R41, R42) -/

/-- Settles O11: each such write falls through to the state as it is, whether or not the page exists. -/
theorem aPageLockHasOneOwner : Obligations.APageLockHasOneOwner := by
  refine ⟨fun req page s h => ?_, fun req page s h => ?_⟩
  · refine congrArg Host.Outcome.next ?_
    rw [if_pos rfl, if_pos h, ite_self]
  · have hn : ¬ (bit (s.reg page 0x02C) 31 = true ∧ s.fld page 0x02C 17 16 = reqCode req) := by
      rintro ⟨held, own⟩
      rcases h with h | h
      · simp [held] at h
      · exact h own
    refine congrArg Host.Outcome.next ?_
    rw [if_neg Bool.false_ne_true, if_neg hn, ite_self]

/-- A write at an offset that a lock covers, where another requester holds the lock: the registers it covers are those of the header that software writes, and the page's own. -/
theorem writeRegister_locked {req : Requester} {page off : Nat} {data : Word} {s : State} (hp : (pageType page).isSome = true) (hb : page < 0x4000) (ha : s.absent page = false)
    (hl : s.lockedOut req page = true) (ho : off ∈ [0x008, 0x010, 0x014, 0x018, 0x01C, 0x020, 0x024] ∨ 0x040 ≤ off) : s.writeRegister req page off data = s.lockDrop := by
  have there : ¬ ((pageType page).isNone = true ∨ 0x4000 ≤ page ∨ s.absent page = true) := by
    simp only [ha, Option.isNone_iff_eq_none, Bool.false_eq_true, or_false]
    rintro (h | h)
    · simp [h] at hp
    · omega
  simp only [List.mem_cons, List.not_mem_nil, or_false] at ho
  have covered : off ∉ [0x000, 0x004, 0x00C, 0x028, 0x030, 0x034, 0x038, 0x03C] := by
    simp only [List.mem_cons, List.not_mem_nil, or_false]
    omega
  unfold State.writeRegister
  rw [if_neg there, if_neg (by omega), if_neg covered, if_pos hl]

/-- Counting changes the counters only. -/
theorem perfCount_eq (s : State) (page code n : Nat) : s.perfCount page code n = { s with perf := (s.perfCount page code n).perf } := by
  unfold State.perfCount
  split <;> rfl

/-- Raising a counter changes the register file and the performance counters only. -/
theorem bump_eq (s : State) (page off n : Nat) : s.bump page off n = { s with regs := (s.bump page off n).regs, perf := (s.bump page off n).perf } := by
  have h := perfCount_eq (s.setReg page off (satAdd (s.reg page off) n)) page (0x40 + (off - 0x040) / 4) n
  unfold State.bump
  rw [h]
  rfl

theorem bump_host (s : State) (page off n : Nat) : (s.bump page off n).host = s.host := by rw [bump_eq]

/-- Settles O12: every such row is guarded by the page's lock, and a dropped write is a raised counter. -/
theorem aLockedOutWriteIsDroppedAndCounted : Obligations.ALockedOutWriteIsDroppedAndCounted := by
  refine ⟨fun c req page s hc hp ha hl => ?_, fun req addr data s h4 hp ha hl hb ho => ?_, fun s => ⟨?_, fun p o ho hne => ?_, bump_eq s pPKG 0x04C 1⟩⟩
  · obtain ⟨f, e⟩ := exec_of_writesPage s hc
    rw [e, guarded_locked s req page f hp ha hl]
  · rw [exec_registerWrite_bar0, if_neg (not_not_intro h4), writeRegister_locked hp (by omega) ha hl ho]
  · exact (reg_bump s (by decide) (by decide)).trans (if_pos ⟨rfl, rfl⟩)
  · exact (reg_bump s ho (by decide)).trans (if_neg (by omega))

/-! ### Result registers (R43) -/

/-- A write of an ACK register that lands consumes the result its header shows, or counts. -/
theorem exec_resultAckWrite {req : Requester} {page off h : Nat} (data : Word) {s : State} (hw : s.writable req page = true)
    (hh : ackHeader ((pageType page).getD 0xFF) off = some h) : exec (.resultAckWrite req page off data) s = .next (s.ack page h (bits data 15 0)) := by
  refine next_guarded hw ?_
  rw [hh]

theorem ack_of_valid {page h seq : Nat} {s : State} (hv : s.resultValid page h = true) (hs : seq = s.fld page h 15 0) : s.ack page h seq = s.consume page h :=
  if_pos ⟨hv, hs⟩

theorem ack_of_mismatch {page h seq : Nat} {s : State} (hm : s.resultValid page h = false ∨ seq ≠ s.fld page h 15 0) : s.ack page h seq = s.bump pPKG 0x054 :=
  if_neg fun ⟨hv, hs⟩ => hm.elim (by simp [hv]) (· hs)

/-- What publishing the record at the front leaves, once the header has been written with a word of the same sequence and the record taken from those that wait. -/
theorem present_regs_of_taken {page h : Nat} {ws : List Nat} (q : List (List Nat)) {s : State} {cleared : Word} (hh : h + 4 * (ws.length + 1) ≤ 4096)
    (ho : regKey page h ∉ s.host.overflow) (hs : bits cleared 15 0 = s.fld page h 15 0) {t : State}
    (ht : ({ s.setReg page h cleared with host.results := KM.putD [] s.host.results (regKey page h) q } : State).present page h ws = t) :
    t.reg page h = BitVec.ofNat 32 (2 ^ 31 + nextSeq (s.fld page h 15 0)) ∧
      (∀ i, i < ws.length → t.reg page (h + 4 + 4 * i) = BitVec.ofNat 32 (ws.getD i 0)) ∧
      (∀ p o, o < 4096 → (p ≠ page ∨ o < h ∨ h + 4 * (ws.length + 1) ≤ o) → t.reg p o = s.reg p o) ∧
      KM.getD [] t.host.results (regKey page h) = q := by
  subst ht
  obtain ⟨header, words, rest, records⟩ := present_regs
    ({ s.setReg page h cleared with host.results := KM.putD [] s.host.results (regKey page h) q } : State) page h ws hh ho
  refine ⟨header.trans ?_, words, fun p o hp hne => (rest p o hp hne).trans ?_, ?_⟩
  · rw [← hs]
    exact congrArg (fun w => BitVec.ofNat 32 (2 ^ 31 + nextSeq (bits w 15 0))) (reg_setReg_self s page h _)
  · exact (reg_setReg s _ hp (by omega)).trans (if_neg (by omega))
  · rw [records]
    exact KM.getD_putD_self [] s.host.results (regKey page h) q

/-- Settles O14: an ACK consumes or counts; consuming clears VALID, and publishes the record that waits. -/
theorem resultRegistersAreConsumedByTheirSequence : Obligations.ResultRegistersAreConsumedByTheirSequence := by
  refine ⟨fun req page off h data s hw hh h4 hv hs hr => ?_, fun req page off h w data ws q s hw hh h4 hv hs hr ho => ?_, fun req page off h data s hw hh hm => ?_⟩
  · refine ⟨_, exec_resultAckWrite data hw hh, ?_⟩
    rw [ack_of_valid hv hs, consume_empty s page h hr]
    exact ⟨reg_setReg_self s page h _, fun p o hp hne => (reg_setReg s _ hp h4).trans (if_neg (by omega)), setReg_host s page h _⟩
  · refine ⟨_, exec_resultAckWrite data hw hh, ?_⟩
    rw [ack_of_valid hv hs, hs]
    exact present_regs_of_taken q h4 ho (bits_setBits_below _ 0 (by decide) (by decide) (by decide) (by decide)) (consume_waiting s page h (w :: ws) q hr).symm
  · refine ⟨_, exec_resultAckWrite data hw hh, ?_⟩
    rw [ack_of_mismatch hm]
    exact ⟨(reg_bump s (by decide) (by decide)).trans (if_pos ⟨rfl, rfl⟩), fun p o hp hne => (reg_bump s hp (by decide)).trans (if_neg (by omega)), bump_host s _ _ _⟩

end Sys2Proof.Machine
end

section
/-!
PROOFS. The statement of chapter 02's commands: page locks, result registers, the queues of a function, and the BAR2 window.
-/

namespace Sys2Proof.Machine

/-! ### The queues of a function (R44 to R48, R493, R494) -/

section
variable {s : State} {fn : Fn} {q : Nat} {a : AdminQ}

theorem setAq_cmds (v : AdminQ) : (s.setAq fn q v).host.cmds = s.host.cmds := by cases fn <;> rfl

/-- A pair of registers as a number, after a write of another register of the page. -/
theorem reg64_setReg_ne {page off lo hi : Nat} (w : Word) (ho : off < 4096) (hl : lo < 4096) (hh : hi < 4096) (nl : lo ≠ off) (nh : hi ≠ off) :
    (s.setReg page off w).reg64 page lo hi = s.reg64 page lo hi := by
  unfold State.reg64 State.num
  rw [reg_setReg s w hl ho, if_neg (by omega), reg_setReg s w hh ho, if_neg (by omega)]

/-- A doorbell of a queue pair that there is. -/
theorem exec_sqTailDoorbell (data : Word) (hq : q < 32) (hw : s.writable (fnReq fn) 0x004C = true) (ha : s.aq fn q = some a) (hh : a.halted = false) :
    exec (.sqTailDoorbell fn q data) s =
      .next (if a.sqSize ≤ bits data 11 0 then s.haltAq fn q a else s.setAq fn q { a with sqTail := bits data 11 0 }) := by
  refine (congrArg Host.Outcome.next (if_neg (by omega))).trans (next_guarded hw ?_)
  rw [ha]
  exact if_neg (by simp [hh])

/-- The completion entry as it is written: UNCHECKED shows in bit 31 of RESULT1 (R366). -/
def State.shown (s : State) (e : Cqe) : Cqe := if bit (s.reg pSTW 0x040) 28 then { e with result1 := withBit e.result1 31 } else e

/-- The oldest completion held is posted, and signalled at once where the queue does not coalesce (log 41). -/
theorem exec_cqePost {e : Cqe} {rest : List Cqe} (ha : s.aq fn q = some a) (hh : a.held = e :: rest) (hf : a.full = false) (hc : a.coalUs = 0) :
    exec (.cqePost fn q) s =
      .next (((s.emit (.cqe fn (a.cqBase + 32 * a.cqTail) (s.shown e) a.phase)).setAq fn q
        { a with held := rest, cqTail := (a.cqTail + 1) % a.cqSize, phase := if (a.cqTail + 1) % a.cqSize = 0 then !a.phase else a.phase, unsignalled := 0 }).signal
          fn a.vector) := by
  show execCqePost fn q s = _
  unfold execCqePost
  rw [ha]
  dsimp only
  rw [hh]
  dsimp only
  rw [if_neg (by simp [hf])]
  simp only [hc, true_or, if_true]
  rfl

/-- A half of APERTURE_BASE is taken where the aperture stays below the top of the populated Loft. -/
theorem exec_apertureBaseWrite (high : Bool) (data : Word) {t : State} (hw : s.writable (fnReq fn) 0x004C = true)
    (ht : (if high then s.setNum (pPX fn) 0x05C (bits data 16 0) else s.setReg (pPX fn) 0x058 (setBits 0 31 30 (bits data 31 30))) = t)
    (hl : t.aperture fn + 2 ^ 36 ≤ s.loftTop) : exec (.apertureBaseWrite fn high data) s = .next t := by
  subst ht
  exact next_guarded hw (if_neg (Nat.not_lt.mpr hl))

end

/-- Settles O23: each row's own branch, by the conditions that the statement gives. -/
theorem locksResultsAndQueuesComplete : Obligations.LocksResultsAndQueuesComplete := by
  refine ⟨?lockTaken, ?lockReleased, ?resultAck, ?aqEnabled, ?aqStopped, ?aqSizes, ?sqTail, ?sqTailHalts, ?cqHead, ?sqeFetch, ?cqePost, ?cqePostUnchecked, ?cqStall,
    ?apertureLow, ?apertureHigh, ?bar2Read, ?bar2Write⟩
  case lockTaken =>
    intro req page s hp ha hb
    have there : ¬ ((pageType page).isNone = true ∨ s.absent page = true) := by simp [ha, Option.isSome_iff_ne_none.mp hp]
    exact congrArg Host.Outcome.next ((if_neg there).trans ((if_pos rfl).trans (if_neg (by simp [hb]))))
  case lockReleased =>
    intro req page s hp ha hb ho
    have there : ¬ ((pageType page).isNone = true ∨ s.absent page = true) := by simp [ha, Option.isSome_iff_ne_none.mp hp]
    exact congrArg Host.Outcome.next ((if_neg there).trans ((if_neg Bool.false_ne_true).trans (if_pos ⟨hb, ho⟩)))
  case resultAck => exact fun req page off data h s hw hh => exec_resultAckWrite data hw hh
  case aqEnabled =>
    intro fn data s hw hb hcq hsq hsb hcb
    refine next_guarded hw ((if_neg (by simp [hb])).trans ?_)
    dsimp only
    rw [reg64_setReg_ne _ (by decide) (by decide) (by decide) (by decide) (by decide), reg64_setReg_ne _ (by decide) (by decide) (by decide) (by decide) (by decide)]
    exact if_neg (by simp [hcq, hsq, hsb, hcb])
  case aqStopped => exact fun fn data s hw hb => next_guarded hw (if_pos hb)
  case aqSizes => exact fun fn data s hw hb => next_guarded hw (if_neg (by simp [hb]))
  case sqTail =>
    intro fn q data a s hq hw ha hh hv
    rw [exec_sqTailDoorbell data hq hw ha hh, if_neg (by omega)]
  case sqTailHalts =>
    intro fn q data a s hq hw ha hh hv
    rw [exec_sqTailDoorbell data hq hw ha hh, if_pos hv]
  case cqHead =>
    intro fn q data a s hq hw ha hv
    refine (congrArg Host.Outcome.next (if_neg (by omega))).trans (next_guarded hw ?_)
    rw [ha]
    exact if_neg (by omega)
  case sqeFetch =>
    intro fn q op c a s ha hh hne hf hp h6 hfn hsq hcid hm
    have fetched : ¬ (a.halted = true ∨ a.sqHead = a.sqTail ∨ a.full = true ∨ s.pairRuns = false ∨ (s.stwState = 6 ∧ q ≠ 0) ∨ c.fn ≠ fn ∨ c.sq ≠ q) := by
      simpa [hh, hne, hf, hp, hfn, hsq] using h6
    show execSqeFetch fn q op c s = _
    unfold execSqeFetch
    rw [ha]
    dsimp only
    rw [if_neg fetched, if_neg (by simp [hcid]), setAq_cmds, hm, if_pos rfl]
  case cqePost =>
    intro fn q a e rest s ha hh hf hb hc
    rw [exec_cqePost ha hh hf hc, show s.shown e = e from if_neg (by simp [hb])]
  case cqePostUnchecked =>
    intro fn q a e rest s ha hh hf hb hc
    rw [exec_cqePost ha hh hf hc, show s.shown e = _ from if_pos hb]
  case cqStall =>
    intro fn q a s ha hf
    show execCqStall fn q s = _
    unfold execCqStall
    rw [ha]
    exact congrArg Host.Outcome.next (if_pos hf)
  case apertureLow => exact fun fn data s hw => exec_apertureBaseWrite false data hw rfl
  case apertureHigh => exact fun fn data s hw => exec_apertureBaseWrite true data hw rfl
  case bar2Read => exact fun fn addr len s hl hz => congrArg Host.Outcome.next (if_neg (by omega))
  case bar2Write =>
    intro fn addr data s hd hn hl hb ht hu
    refine congrArg Host.Outcome.next ((if_neg (by simp only [hd, false_or]; omega)).trans (if_neg ?_))
    simp only [hu, Bool.false_eq_true, or_false]
    omega

end Sys2Proof.Machine
end

section
/-!
PROOFS. The statement of the detector, lanes, training periods and what is saved.
-/

namespace Sys2Proof.Machine

/-- Settles O51: each row's own branch, by the conditions that the statement gives. -/
theorem lateRowsComplete : Obligations.LateRowsComplete := by
  refine ⟨?detectorRecovery, ?vbusDip, ?fabricLane, ?twinLane, ?retrainPeriod, ?gleanPosition, ?recordRewrite, ?eraseDone, ?cqCoalesce⟩
  case detectorRecovery =>
    intro v s ht hp hv
    subst hv
    exact congrArg Host.Outcome.next (if_neg (by simp [ht, hp]))
  case vbusDip => exact fun s hc => congrArg Host.Outcome.next (if_pos hc)
  case fabricLane => exact fun port s h8 hp => congrArg Host.Outcome.next ((if_pos h8).trans (if_neg (Nat.not_le.mpr hp)))
  case twinLane => exact fun port s h8 h12 => congrArg Host.Outcome.next ((if_neg (Nat.not_lt.mpr h8)).trans (if_pos h12))
  case retrainPeriod => exact fun channel s hc hr => congrArg Host.Outcome.next (if_neg (by simp [hc, hr]))
  case gleanPosition => exact fun region s hr => congrArg Host.Outcome.next (if_neg (Nat.not_le.mpr hr))
  case recordRewrite => exact fun page s => rfl
  case eraseDone => exact fun band s hb => congrArg Host.Outcome.next (if_pos hb)
  case cqCoalesce =>
    intro fn q a s ha hu
    show execCqCoalesceExpire fn q s = _
    unfold execCqCoalesceExpire
    rw [ha]
    exact congrArg Host.Outcome.next (if_neg hu)

end Sys2Proof.Machine
end

section
/-!
PROOFS. The statements of the memory frame: the commands that store nothing in the Loft, and the bytes that a placement stores to.
-/

namespace Sys2Proof.Machine

/-- The Loft's bytes and poison marks are those of the state. -/
def LoftOf (s : State) (bytes : KMap Byte) (poison : KMap Bool) : Prop := bytes = s.loft.bytes ∧ poison = s.loft.poison

theorem kept_loftOf {s : State} (h : Canon s) : Kept (LoftOf s) s.pending s := ⟨rfl, h.1, rfl, rfl⟩

theorem sameLoft_of_kept {s t : State} {ql : List Instr} (h : Kept (LoftOf s) ql t) : SameLoft s t := by
  obtain ⟨-, -, hb, hp⟩ := h
  intro a
  unfold State.loftByte State.poisoned
  rw [hb, hp]
  exact ⟨rfl, rfl⟩

/-- Settles O8: a command that may not write the Loft keeps every property of the Loft's bytes and poison marks (`kept_exec`), and so their being those of the state it runs in. -/
theorem commandsThatLeaveTheLoftAlone : Obligations.CommandsThatLeaveTheLoftAlone := by
  intro c s t hs hc ht
  have quiet : mayWriteLoft c = true → LoftOf s = CanonLoft := fun h => by rw [hc] at h; cases h
  exact sameLoft_of_kept (kept_exec c s quiet (kept_loftOf hs) t ht)

/-! ### The placement of a packet (R100, R163, R179, R216, R303) -/

section
variable {s : State} {a : Nat}

theorem kept_reads_of_canon (h : Canon s) (a : Nat) : Kept (Reads a (s.loftByte a) (s.poisoned (a / 64))) s.pending s := ⟨rfl, h.1, rfl, rfl⟩

theorem reads_of_kept {v : Byte} {w : Bool} {ql : List Instr} (h : Kept (Reads a v w) ql s) : s.loftByte a = v ∧ s.poisoned (a / 64) = w := h.2.2

/-- A placement reached leaves every byte outside the pieces of the packet found as it was. -/
theorem reads_execPacketPlacement {v : Byte} {w : Bool} {ql : List Instr} {qpn psn : Nat} {t : State}
    (ho : ∀ p data, s.fab.placements.find? (fun p => p.qpn == qpn && p.trig.psn == psn) = some p → s.openPacket p = some data →
      ¬ ({ s with fab.placements := s.fab.placements.erase p } : State).piecesStore p data p.poison a p.pieces)
    (hs : Kept (Reads a v w) ql s) (ht : execPacketPlacement qpn psn s = .next t) : Kept (Reads a v w) ql t := by
  unfold execPacketPlacement at ht
  cases hf : s.fab.placements.find? (fun p => p.qpn == qpn && p.trig.psn == psn) with
  | none =>
    rw [hf] at ht
    cases ht
    exact hs
  | some p =>
    rw [hf] at ht
    cases ht
    dsimp only
    split
    case isTrue => exact hs
    case isFalse =>
      have taken : Kept (Reads a v w) ql { s with fab.placements := s.fab.placements.erase p } := kept_with_fab _ hs
      refine kept_State_settleAll _ ?_
      split
      case isTrue => exact kept_State_duplicate _ _ _ taken
      case isFalse =>
        split
        case h_1 => exact kept_State_refuse _ _ _ _ _ _ _ (kept_State_bump _ _ _ _ taken)
        case h_2 data hd =>
          split
          case isTrue => exact kept_State_notFresh _ _ _ (kept_State_fire _ _ _ (kept_State_bump _ _ _ _ taken))
          case isFalse => exact reads_placePacket _ _ _ (ho p data hf hd) taken

end

/-- Settles O9: each way of the command but the placement itself stores nothing, and the placement stores to its pieces only (`reads_placePacket`). -/
theorem aPlacementStoresToItsPiecesOnly : Obligations.APlacementStoresToItsPiecesOnly :=
  fun _ _ a _ _ hs ht ho => reads_of_kept (reads_execPacketPlacement ho (kept_reads_of_canon hs a) ht)

end Sys2Proof.Machine
end

section
/-!
PROOFS. The statements of chapter 03's commands: tenants, objects and windows with their revocation, hints and caches, migration and the scrubbing of released pages.
-/

namespace Sys2Proof.Machine

/-- Settles O25: each command's body in the state it begins in, past its own checks by the conditions that the statement gives. -/
theorem tenantsAndWindowsComplete : Obligations.TenantsAndWindowsComplete := by
  refine ⟨?tenantCreate, ?tenantErase, ?windowCreate, ?objectCreate, ?objectAlias, ?windowRevoke, ?windowRevokeObject, ?revokeFenceDrained, ?revokeLate,
    ?windowModifyGrant, ?windowModifyCut⟩
  case tenantCreate =>
    intro c t s u ha hu h1 h4095 hn hd hc hm
    refine adminRun_success_of_body ha hu ((if_neg (by omega)).trans ?_)
    rw [hn]
    dsimp only
    rw [if_neg (by simp [hd]), if_neg (by simp [hc]), hm]
  case tenantErase =>
    intro c x s u ha hu hx he hb
    refine adminRun_ends_of_body ha hu ?_
    rw [hx]
    exact if_neg (by simp [he, hb])
  case windowCreate =>
    intro c k i id pages s u ha hu h3 ht hb hi hid hq
    refine adminRun_ends_of_body ha hu ((if_neg (by simp [ht, h3])).trans ?_)
    rw [hb, hi, hid]
    exact if_neg (by simp [hq])
  case objectCreate =>
    intro c k id pages s u ha hu h3 hg ht hb hid
    refine adminRun_ends_of_body ha hu ?_
    dsimp only
    rw [hg, if_neg (by simp [ht, h3]), hb, hid]
    rfl
  case objectAlias =>
    intro c i s u ha hu hv hd hh hs h4095 h3 ht hg hr ho hn hr' hi hq
    refine adminRun_ends_of_body ha hu ((if_neg (by simp [hv, hd])).trans ((if_neg (by simp [hh, hs])).trans ((if_neg ?_).trans ?_)))
    · simp [ht, hg, hr, ho, h4095, h3, hn, hr']
    · rw [hi]
      exact if_neg (by simp [hq])
  case windowRevoke =>
    intro c s u ha hu h0 hc
    refine adminRun_ends_of_body ha hu ((if_neg (by simp [h0])).trans ?_)
    rw [hc]
  case windowRevokeObject =>
    intro c s u ha hu h1 hv hd hh hs hg
    exact adminRun_ends_of_body ha hu ((if_neg (by simp [h1, hv, hd])).trans (if_neg (by simp [hh, hs, hg])))
  case revokeFenceDrained => exact fun idx s => rfl
  case revokeLate => exact fun idx s hf => congrArg Host.Outcome.next (if_pos hf)
  case windowModifyGrant =>
    intro c s u ha hu hc h3 h0 hn hr hw hrd hz
    refine adminRun_ends_of_body ha hu ?_
    rw [hc]
    refine (if_neg (by simp [h0, hr]; omega)).trans (if_neg ?_)
    rintro (⟨h, g⟩ | ⟨h, g⟩ | h)
    · rw [hw h] at g
      cases g
    · rw [hrd h] at g
      cases g
    · omega
  case windowModifyCut =>
    intro c s u ha hu hc h3 h0 hn hr hz
    refine adminRun_ends_of_body ha hu ?_
    rw [hc]
    exact (if_neg (by simp [h0, hr]; omega)).trans (if_pos (.inr (.inr hz)))

/-- Settles O26: each command's body in the state it begins in, past its own checks by the conditions that the statement gives. -/
theorem windowHintsAndCachesComplete : Obligations.WindowHintsAndCachesComplete := by
  refine ⟨?preload, ?lock, ?unlock, ?pinUp, ?pinClear, ?readahead, ?invalidateTrans, ?invalidateBoth, ?windowFill, ?staleFill, ?transFill⟩
  case preload =>
    intro c s u ha hu hp hc hn
    refine adminRun_ends_of_body ha hu ((if_neg (not_not_intro hp)).trans ?_)
    rw [hc]
    exact if_neg (by simp [hn])
  case lock =>
    intro c e s u ha hu hp hc he hl hn
    refine adminRun_success_of_body ha hu ((if_neg (not_not_intro hp)).trans ?_)
    rw [hc]
    dsimp only
    rw [he]
    exact (if_neg (by simp [hl])).trans (if_neg (by omega))
  case unlock =>
    intro c s u ha hu hp hc
    refine adminRun_success_of_body ha hu ((if_neg (not_not_intro hp)).trans ?_)
    rw [hc]
  case pinUp =>
    intro c s u ha hu hp hc hn hr
    refine adminRun_ends_of_body ha hu ((if_neg (not_not_intro hp)).trans ?_)
    rw [hc]
    exact if_neg (by omega)
  case pinClear =>
    intro c s u ha hu hp hc
    refine adminRun_ends_of_body ha hu ((if_neg (not_not_intro hp)).trans ?_)
    rw [hc]
  case readahead =>
    intro c s u ha hu hp hc hn h4096 hr
    refine adminRun_ends_of_body ha hu ((if_neg (not_not_intro hp)).trans ?_)
    rw [hc]
    exact if_neg (by omega)
  case invalidateTrans =>
    intro c s u ha hu ht hp
    refine adminRun_success_of_body ha hu ((if_neg (by omega)).trans ?_)
    dsimp only
    rw [if_pos ht, if_neg (by omega)]
  case invalidateBoth =>
    intro c s u ha hu ht hp
    refine adminRun_success_of_body ha hu ((if_neg (by omega)).trans ?_)
    dsimp only
    rw [if_neg (by omega), if_neg (by omega)]
  case windowFill =>
    intro idx f s hf hs hn
    refine congrArg Host.Outcome.next ?_
    rw [hf]
    dsimp only
    rw [if_neg (by simp [hs]), if_neg (by simp [hn])]
  case staleFill =>
    intro idx f s hf hs hv hr hg h4
    refine congrArg Host.Outcome.next ?_
    rw [hf]
    dsimp only
    rw [if_pos hs, if_neg (by simp [hv, hr]), if_neg (not_not_intro hg), if_neg (by omega)]
  case transFill =>
    intro object page f s hf
    refine congrArg Host.Outcome.next ?_
    rw [hf]

section
variable {c : AdminCmd} {u : State} {op : Nat}

/-- A MIGRATE that passes its checks queues its pages, with the destinations its buffer names, and claims the first (R82). -/
theorem migrate_of_valid (demote : Bool) (hv : (u.object c.target).valid = true) (hd : (u.object c.target).destroying = false) (hp : c.p2 = if demote then 2 else 1)
    (hn : c.p1 ≠ 0) (h4096 : c.p1 ≤ 4096) (hr : c.p0 + c.p1 ≤ (u.object c.target).sizePages) (hb : 8 * c.p1 ≤ (proper c).length)
    (hh : u.objectHome c.target = true) (hs : u.streaming c.target = false)
    (ha : (((List.range c.p1).map fun k => leNat (((proper c).drop (8 * k)).take 8)).any fun d => decide (d % 16384 ≠ 0)) = false) :
    u.migrate c op demote =
      (let dests := (List.range c.p1).map fun k => leNat (((proper c).drop (8 * k)).take 8)
       let work := (List.range c.p1).map fun k => (c.p0 + k, dests.getD k 0 / 16384, false)
       ({ u with win.migrations := u.win.migrations ++ [({ op, object := c.target, demote, work, phase := .claim, source := 0 } : Migration)] }.nextPage op, none)) := by
  have fields : ¬ ((u.object c.target).valid = false ∨ (u.object c.target).destroying = true ∨ c.p2 ≠ (if demote then 2 else 1) ∨ c.p1 = 0 ∨ 4096 < c.p1 ∨
      (u.object c.target).sizePages < c.p0 + c.p1 ∨ (proper c).length < 8 * c.p1) := by
    simp only [hv, hd, ← hp, Bool.true_eq_false, Bool.false_eq_true, ne_eq, not_true_eq_false, false_or]
    omega
  exact (if_neg fields).trans ((if_neg (by simp [hh, hs])).trans (if_neg (by rw [ha]; exact Bool.false_ne_true)))

end

section
variable {op i dest : Nat} {r : Bool} {m : Migration} {rest : List (Nat × Nat × Bool)} {s : State}

/-- The first copy round of a page whose source reads without poison: its four quarters are copied, and the switch follows once no line has changed meanwhile (R82). -/
theorem exec_migrateCopyRoundDone_copy {d : KMap Byte} (hm : s.migration op = some m) (hw : m.work = (i, dest, r) :: rest) (hp : m.phase = .copy)
    (hd : s.pageData m.source = some (d, [])) :
    exec (.migrateCopyRoundDone op) s =
      .next (let t := s.copyRanges dest d true [(0, 4096), (4096, 4096), (8192, 4096), (12288, 4096)]
        if m.lines = [] then t.sendSwitch m i dest else t.setMigration { m with phase := .recopy 1, todo := m.lines, lines := [] }) := by
  refine congrArg Host.Outcome.next ?_
  cases m
  dsimp only at hw hp hd
  subst hw hp
  rw [hm]
  dsimp only
  rw [hd]
  simp only [reduceCtorEq, or_false]
  exact if_neg (not_not_intro rfl)

end

/-- Settles O27: each command's body in the state it begins in, and each row's own branch, by the conditions that the statement gives. -/
theorem migrationAndScrubComplete : Obligations.MigrationAndScrubComplete := by
  refine ⟨?promote, ?demote, ?copyAgain, ?copySwitch, ?switchConfirmed, ?stallLimit, ?zeroFillDone⟩
  case promote =>
    exact fun c s u ha hu hv hd hp hn h4096 hr hb hh hs hal =>
      adminRun_ends_of_body ha hu (migrate_of_valid false hv hd hp hn h4096 hr hb hh hs hal)
  case demote =>
    exact fun c s u ha hu hv hd hp hn h4096 hr hb hh hs hal =>
      adminRun_ends_of_body ha hu (migrate_of_valid true hv hd hp hn h4096 hr hb hh hs hal)
  case copyAgain =>
    intro op m i dest r rest d s hm hw hp hd hl
    exact (exec_migrateCopyRoundDone_copy hm hw hp hd).trans (congrArg Host.Outcome.next (if_neg hl))
  case copySwitch =>
    intro op m i dest r rest d s hm hw hp hd hl
    exact (exec_migrateCopyRoundDone_copy hm hw hp hd).trans (congrArg Host.Outcome.next (if_pos hl))
  case switchConfirmed =>
    intro op m i dest r rest s hm hw hp ha
    refine congrArg Host.Outcome.next ?_
    rw [hm]
    dsimp only
    rw [hw]
    exact if_neg (by simp [hp, ha])
  case stallLimit =>
    intro op m i dest r rest s hm hw hp
    refine congrArg Host.Outcome.next ?_
    rw [hm]
    dsimp only
    rw [hw]
    dsimp only
    have switching : m.phase ≠ .switching := by simp [hp]
    rw [if_neg (by simp [hp]), if_neg switching]
  case zeroFillDone => exact fun page s hs hc => congrArg Host.Outcome.next (if_neg (by simp [hs, hc]))

end Sys2Proof.Machine
end

section
/-!
PROOFS. The statements of chapter 04 on the wire: the order of sequence numbers, packets that pass the receive checks, and the frames, the context cache, placement and timers beside them.
-/

namespace Sys2Proof.Machine

/-! ### Sequence numbers (R92) -/

/-- The distance from one 32-bit number to another is their difference modulo 2^32. -/
theorem dist32_eq_emod {a : Nat} (b : Nat) (ha : a < 2 ^ 32) : (dist32 a b : Int) = ((b : Int) - a) % 2 ^ 32 := by
  unfold dist32
  omega

/-- Settles O17: the model's distance is the difference modulo 2^32 (`dist32_eq_emod`), and the number after one is defined modulo 2^32. -/
theorem sequenceNumbersAreModulo2ToThe32 : Obligations.SequenceNumbersAreModulo2ToThe32 := by
  refine ⟨fun a b ha _ => ?_, fun a => rfl⟩
  rw [precedes, decide_eq_true_iff, ← dist32_eq_emod b ha]
  omega

/-! ### Packets that pass the receive checks (R94, R95, R99, R147) -/

section
variable {f : Frame} {s : State}

/-- The request sampler takes no other packet than a WRITE or a READ (R472). -/
theorem sampleRequest_of_control (h1 : (parsePxt f.payload).opcode ≠ 1) (h2 : (parsePxt f.payload).opcode ≠ 2) : s.sampleRequest f = s :=
  if_neg (by simp [h1, h2])

/-- A PROBE, a PROBE_REPLY or a MARK_ECHO that reaches its service is served in the state in which it has been counted. -/
theorem rxFrame_of_reaches_control {op : Nat} (d : Nat) (h : s.reaches f op = true) (h1 : op ≠ 1) (h2 : op ≠ 2) :
    s.rxFrame f d = ((s.counted f).serveFrame f d ((s.counted f).triggerOf f)).settleAll := by
  have hop := opcode_of_reaches h
  rw [rxFrame_of_reaches d h, sampleRequest_of_control (hop ▸ h1) (hop ▸ h2)]

/-- A WRITE or READ of a good format goes on to its classification. -/
theorem serveFrame_request {d : Nat} {t : Trigger} (hop : (parsePxt f.payload).opcode = 1 ∨ (parsePxt f.payload).opcode = 2)
    (hc : firstBad (if (parsePxt f.payload).opcode = 1 then writeChecks (parsePxt f.payload) f.payload else readChecks (parsePxt f.payload) f.payload) = none) :
    s.serveFrame f d t = s.rxRequest (parsePxt f.payload).dqpn (parsePxt f.payload) f.payload t := by
  unfold State.serveFrame
  dsimp only
  rw [if_neg (by omega), if_neg (by omega), if_neg (by omega), if_pos hop, hc]

/-- A MARK_ECHO of a good format adds its counts (R147). -/
theorem serveFrame_echo {d : Nat} {t : Trigger} (hop : (parsePxt f.payload).opcode = 4)
    (hc : firstBad (echoChecks (parsePxt f.payload) f.payload (s.planesOf (parsePxt f.payload).dqpn)) = none) :
    s.serveFrame f d t = s.addEchoes (s.qp (parsePxt f.payload).dqpn).peer (marksOf f.payload (markCount (parsePxt f.payload)) 20) := by
  unfold State.serveFrame
  dsimp only
  rw [if_neg (by omega), if_neg (by omega), if_pos hop, hc]

end

/-- Settles O33: each packet reaches its service counted (`rxFrame_of_reaches`), and the service of its opcode goes its granted way. -/
theorem packetsComplete : Obligations.PacketsComplete := by
  refine ⟨?read, ?write, ?echo, ?probe, ?probeReply⟩
  case read =>
    intro f v s hr hv hc ht hg
    have hop := opcode_of_reaches hr
    refine congrArg Host.Outcome.next ((rxFrame_of_reaches 0 hr).trans (congrArg State.settleAll ?_))
    rw [hv, serveFrame_request (.inr hop) (by simp [hop, hc]), rxRequest_of_timely (by simp [hop]) ht, if_neg (by omega), rxRead_of_grants hg]
  case write =>
    intro f v w x y s hr hv hc ht hw hg hm hx hn ha hy
    have hop := opcode_of_reaches hr
    refine congrArg Host.Outcome.next ((rxFrame_of_reaches 0 hr).trans (congrArg State.settleAll ?_))
    rw [hv, serveFrame_request (.inl hop) (by simp [hop, hc]), rxRequest_of_timely (by simp [hop]) ht, if_pos hop, hw,
      rxWrite_of_grants hg hn (Prod.ext hm hx) (Prod.ext ha hy)]
  case echo =>
    intro f v s hr hv hc
    refine congrArg Host.Outcome.next ((rxFrame_of_reaches_control 0 hr (by omega) (by omega)).trans (congrArg State.settleAll ?_))
    rw [hv, serveFrame_echo (opcode_of_reaches hr) hc]
  case probe =>
    intro f delay v s hr hv
    refine congrArg Host.Outcome.next ((rxFrame_of_reaches_control _ hr (by omega) (by omega)).trans (congrArg State.settleAll ?_))
    rw [hv]
    exact if_pos (opcode_of_reaches hr)
  case probeReply =>
    intro f v s hr hv hp
    have hop := opcode_of_reaches hr
    refine congrArg Host.Outcome.next ((rxFrame_of_reaches_control 0 hr (by omega) (by omega)).trans (congrArg State.settleAll ?_))
    rw [hv]
    exact (if_neg (by omega)).trans ((if_pos hop).trans (if_pos hp))

/-! ### Exception frames, the context cache, placement and timers (R86, R88, R105, R115 to R117, R122, R127, R128) -/

/-- Settles O34: each row's own branch, by the conditions that the statement gives. -/
theorem fabricServiceCompletes : Obligations.FabricServiceCompletes := by
  refine ⟨?exceptionFrame, ?nonPxtFrame, ?fetchStale, ?fetchInstalled, ?missqWait, ?writeback, ?placement, ?placementDuplicate, ?ackDelay, ?trackerOpen, ?headMirrored⟩
  case exceptionFrame =>
    intro kind f n s hp hr hf hv hl hn hlt
    subst hn
    refine congrArg Host.Outcome.next ((if_neg (by simp [hp, hr, hf])).trans ((if_neg (by simp [hv])).trans (if_neg ?_)))
    omega
  case nonPxtFrame => exact fun f s hd hp hr hf hk => congrArg Host.Outcome.next (if_neg (by simp [hd, hp, hr, hf, hk]))
  case fetchStale =>
    intro qpn f s hf hs
    refine congrArg Host.Outcome.next ?_
    rw [hf]
    exact if_pos hs
  case fetchInstalled =>
    intro qpn f s hf hs
    refine congrArg Host.Outcome.next ?_
    rw [hf]
    dsimp only
    rw [if_neg (by simp [hs])]
  case missqWait =>
    intro plane w s hw
    refine congrArg Host.Outcome.next ?_
    rw [hw]
  case writeback =>
    intro qpn e s he hi
    refine congrArg Host.Outcome.next ?_
    rw [he]
    exact if_neg (by simp [hi])
  case placement =>
    intro qpn psn p data v s hp hs hw hv hc hr ho hf
    refine congrArg Host.Outcome.next ?_
    subst hv
    rw [hp]
    refine (if_neg (by simp [hs, hw])).trans (congrArg State.settleAll ((if_neg (by simp [hc, hr])).trans ?_))
    rw [ho]
    exact if_neg (not_not_intro hf)
  case placementDuplicate =>
    intro qpn psn p v s hp hs hw hv hd
    refine congrArg Host.Outcome.next ?_
    subst hv
    rw [hp]
    exact (if_neg (by simp [hs, hw])).trans (congrArg State.settleAll (if_pos hd))
  case ackDelay =>
    intro qpn d t s hd ht
    refine congrArg Host.Outcome.next ?_
    rw [hd, ht]
  case trackerOpen => exact fun qpn msn s ht => congrArg Host.Outcome.next (if_pos ht)
  case headMirrored => exact fun qpn msn s ht hm he ho => congrArg Host.Outcome.next ((if_neg (by simp [ht])).trans (if_pos ⟨hm, he, ho⟩))

end Sys2Proof.Machine
end

section
/-!
PROOFS. The statements of chapter 05 on delivery, and of chapter 06's rates: queue pairs, peers and planes, read responses, PROBEs, links and rate control.
-/

namespace Sys2Proof.Machine

/-! ### Queue pair commands (R111) -/

section
variable {s u : State} {op : Nat} {c : AdminCmd} {code : Option Nat} {allowed : QpState → Bool} {body : State → Qp → State × Option Answer}
  (ha : s.admits op c = true) (hu : s.begun op c = u) (h1 : 1 ≤ c.target) (hmax : c.target ≤ 1048575) (hcode : code = none ∨ code = some c.p0)
  (hst : allowed (u.qp c.target).state = true)
include ha hu h1 hmax hcode hst

/-- A queue pair command that begins, with a QPN there can be and in a state that allows it, completes with SUCCESS where its effect,
in the state with fills of the queue pair stale, does. -/
theorem qpCommand_success {t : State} {r0 : Nat} (hb : body (u.staleFetch c.target) (u.qp c.target) = (t, good r0)) :
    (.next (s.qpCommand op c code allowed body) : Res) = s.success op c t r0 := by
  have named : ¬ (c.target = 0 ∨ 1048575 < c.target ∨ (code.isSome ∧ code ≠ some c.p0)) := by
    rintro (h | h | ⟨hs, hn⟩)
    · omega
    · omega
    · rcases hcode with rfl | h
      · cases hs
      · exact hn h
  exact adminRun_success_of_body ha hu ((if_neg named).trans ((if_neg (by simp [hst])).trans hb))

end

/-- Settles O28: each command's body in the state it begins in, past its own checks by the conditions that the statement gives; the forms of QP_MODIFY and QP_DESTROY
share `qpCommand_success`. -/
theorem queuePairsAndPlanesComplete : Obligations.QueuePairsAndPlanesComplete := by
  refine ⟨?qpCreate, ?ready, ?error, ?reset, ?paths, ?keysel, ?sync, ?acks, ?destroy, ?peerSet, ?planeOut, ?drainExpire, ?planeIn⟩
  case qpCreate =>
    intro c e s u ha hu h1 hmax htn ht he hen hpl hseal hc0 hc1 hc5 hc6 hc7 h8 h9 hrx0 hrx1 htx0 htx1 hf
    refine adminRun_success_of_body ha hu ?_
    dsimp only
    rw [he]
    dsimp only
    have nonzero : c.target ≠ 0 := by omega
    have keyed : ¬ (c.p0.testBit 24 = true ∧ c.p6 % 8192 = 0) := fun ⟨hs, h0⟩ => hseal hs h0
    refine (if_neg ?_).trans (if_neg (not_not_intro hf))
    simp only [nonzero, Nat.not_lt.2 hmax, htn, ht, hen, hpl, keyed, hc0, hc1, hc5, hc6, hc7, h8, h9, hrx0, hrx1, htx0, htx1, Bool.true_eq_false, and_self,
      not_true_eq_false, or_self, not_false_eq_true]
  case ready => exact fun c s u ha hu h1 hmax hp hst => qpCommand_success ha hu h1 hmax (.inr (hp ▸ rfl)) hst rfl
  case error => exact fun c s u ha hu h1 hmax hp hst => qpCommand_success ha hu h1 hmax (.inr (hp ▸ rfl)) hst rfl
  case reset =>
    exact fun c s u ha hu h1 hmax hp hst ho => qpCommand_success ha hu h1 hmax (.inr (hp ▸ rfl)) hst (if_neg (not_not_intro ho))
  case paths =>
    exact fun c s u ha hu h1 hmax hp hst hpl hc => qpCommand_success ha hu h1 hmax (.inr (hp ▸ rfl)) hst (if_neg (not_or.2 ⟨hpl, by simp [hc]⟩))
  case keysel =>
    exact fun c s u ha hu h1 hmax hp hst hk => qpCommand_success ha hu h1 hmax (.inr (hp ▸ rfl)) hst (if_neg (by omega))
  case sync => exact fun c s u ha hu h1 hmax hp hst => qpCommand_success ha hu h1 hmax (.inr (hp ▸ rfl)) hst rfl
  case acks =>
    exact fun c s u ha hu h1 hmax hp hst hd hn hz => qpCommand_success ha hu h1 hmax (.inr (hp ▸ rfl)) hst (if_neg (by omega))
  case destroy => exact fun c s u ha hu h1 hmax hst => qpCommand_success ha hu h1 hmax (.inl rfl) hst rfl
  case peerSet =>
    intro c s u ha hu hn hl hb hen hlo hpe hz
    refine adminRun_success_of_body ha hu (if_neg ?_)
    rw [hz]
    simp only [Bool.false_eq_true, or_false]
    omega
  case planeOut =>
    intro c s u ha hu h1 hn hms ho hd
    exact adminRun_ends_of_body ha hu ((if_neg (by omega)).trans (if_neg (by simp [ho, hd])))
  case drainExpire =>
    intro plane op s hd hop
    refine congrArg Host.Outcome.next ?_
    rw [hd]
    cases op with
    | zero => exact absurd rfl hop
    | succ n => rfl
  case planeIn =>
    intro c s u ha hu h2 hn ho hdead hfen hfail
    exact adminRun_ends_of_body ha hu ((if_neg (by omega)).trans (if_neg (by simp [ho, hdead, hfen, hfail])))

/-! ### Read responses, PROBEs, links and rates (R120, R135, R140, R148, R149, R151, R158) -/

/-- Settles O35: each row's own branch, by the conditions that the statement gives. -/
theorem readsAndRatesComplete : Obligations.ReadsAndRatesComplete := by
  refine ⟨?dataReady, ?depart, ?probeIdle, ?probeTimeout, ?linkDownServing, ?linkDownIdle, ?linkUp, ?rateBatch, ?rateProbe⟩
  case dataReady =>
    intro qpn msn resend j s hj
    refine congrArg Host.Outcome.next ?_
    rw [hj]
  case depart =>
    intro plane v w r s hp hr hd hv hw hceil hn hdef hcap
    subst hv hw
    refine congrArg Host.Outcome.next ((if_neg (by simp [hr, hd, hp])).trans ((if_neg hceil).trans ?_))
    dsimp only
    rw [hn]
    dsimp only
    rw [if_pos ⟨hdef, hcap⟩]
  case probeIdle =>
    intro peer plane e s he hm hid
    refine congrArg Host.Outcome.next ?_
    rw [he]
    refine if_neg ?_
    rintro (h | ⟨hup, hsome⟩)
    · rw [hm] at h
      cases h
    · rw [hid hup] at hsome
      cases hsome
  case probeTimeout =>
    intro peer plane e id v s he hid hv
    refine congrArg Host.Outcome.next ?_
    subst hv
    rw [he]
    dsimp only
    rw [hid]
  case linkDownServing => exact fun plane s hp hi => congrArg Host.Outcome.next ((if_neg (by omega)).trans (if_pos hi))
  case linkDownIdle => exact fun plane s hp hi => congrArg Host.Outcome.next ((if_neg (by omega)).trans (if_neg (by simp [hi])))
  case linkUp => exact fun plane s hp ho hd hr => congrArg Host.Outcome.next (if_neg (by simp [hp, ho, hd, hr]))
  case rateBatch =>
    intro done s hen
    cases done with
    | false => exact congrArg Host.Outcome.next (if_neg (by simp [hen]))
    | true => exact congrArg Host.Outcome.next (if_neg (by simp [hen]))
  case rateProbe =>
    exact fun req data s hw hv => next_guarded hw (if_neg (by simp [hv]))

end Sys2Proof.Machine
end

section
/-!
PROOFS. The statement of the architecture: the shares of the tenants, the policy, the power cap, and the operations of the pair.
-/

namespace Sys2Proof.Machine

/-! ### Shares, policy, the power cap, and the pair's operations (R153, R199, R202, R235, R239, R240) -/

/-- POWER_CAP_SET with no cap, or with one in the range of R202, sets the cap. -/
theorem exec_powerCapSet {c : AdminCmd} {s u : State} (ha : s.admits 0x31 c = true) (hu : s.begun 0x31 c = u)
    (hcap : c.p0 = 0 ∨ 400 ≤ c.p0 ∧ c.p0 ≤ 3000) : exec (.powerCapSet c) s = s.success 0x31 c (u.setNum pLG 0x08C c.p0) :=
  adminRun_success_of_body ha hu (if_neg (by omega))

/-- Settles O29: each command's body in the state it begins in, past its own checks by the conditions that the statement gives; both forms of POWER_CAP_SET
share `exec_powerCapSet`, and the two steps that end a swap's wait and a resync take their own branch. -/
theorem policySwapAndAuditComplete : Obligations.PolicySwapAndAuditComplete := by
  refine ⟨?tenantShare, ?policySet, ?powerCap, ?noPowerCap, ?roleSwap, ?roleSwapDrained, ?resyncStart, ?resyncComplete, ?auditStart⟩
  case tenantShare =>
    intro c x s u ha hu ht h0 hweight hcap
    refine adminRun_success_of_body ha hu ?_
    dsimp only
    rw [ht]
    exact if_neg (by omega)
  case policySet =>
    intro c s u ha hu hpolicy hmin hmax hfeeds hcovered
    refine adminRun_success_of_body ha hu (if_neg ?_)
    rintro (h | h | h | h | ⟨h2, h0⟩)
    · exact h hpolicy
    · exact Nat.not_lt.2 hmin h
    · exact Nat.not_lt.2 hmax h
    · exact Nat.not_lt.2 hfeeds h
    · exact hcovered h2 h0
  case powerCap => exact fun c s u ha hu hmin hmax => exec_powerCapSet ha hu (.inr ⟨hmin, hmax⟩)
  case noPowerCap =>
    intro c s u ha hu h0
    rw [exec_powerCapSet ha hu (.inl h0), h0]
  case roleSwap =>
    intro c s u ha hu h1 hrange hfirst hlast hpair hswap hhome
    have idle : ¬ (u.twin.swap.isSome = true ∨
        (u.win.windows.any fun p => p.2.valid && decide (c.p1 ≤ p.1 ∧ p.1 ≤ c.p2) && !u.homeHere p.1) = true) := by
      rw [hswap, hhome]
      simp
    exact adminRun_ends_of_body ha hu ((if_neg (by omega)).trans ((if_neg (not_not_intro hpair)).trans (if_neg idle)))
  case roleSwapDrained =>
    intro w s hswap hsent hdrained
    refine congrArg Host.Outcome.next ?_
    rw [hswap]
    exact if_neg (by simp [hsent, hdrained])
  case resyncStart =>
    intro c s u ha hu h1 hpair hresync hports hseen
    exact adminRun_ends_of_body ha hu
      ((if_neg (Nat.not_lt.2 h1)).trans ((if_neg (by simp [hpair, hresync])).trans (if_neg (by simp [hports, hseen]))))
  case resyncComplete =>
    intro x s hresync hleft hsent hreorder hlog
    refine congrArg Host.Outcome.next ?_
    rw [hresync]
    refine if_neg ?_
    rw [hleft, hsent, hreorder]
    simpa using hlog
  case auditStart =>
    intro c s u ha hu hfirst hrepair hrate hmax hpair haudit
    exact adminRun_ends_of_body ha hu ((if_neg (by omega)).trans ((if_neg (not_not_intro hpair)).trans (if_neg (by simp [haudit]))))

end Sys2Proof.Machine
end

section
/-!
PROOFS. The statements of the durable writes: harvest plans and programs, gather fills, the wear buckets, the tenant probe, the Ledger period and the charger.
-/

namespace Sys2Proof.Machine

/-! ### Harvest plans (R174, R178) -/

/-- The abandoned plan of a region there is counts, and signals HARVEST_LATE at most once a second. -/
theorem exec_harvestPlan_late {region : Nat} {s : State} (h : region < s.regions) :
    exec (.harvestPlan region false) s = .next ((s.bump (pRG region) 0x07C).fireLimited (pRG region) 4) :=
  congrArg Host.Outcome.next ((if_neg (Nat.not_le.2 h)).trans (if_pos rfl))

/-- A counter raised and an event fired on a page: outside the counter and the page's event registers, every register is as before. -/
theorem reg_fireLimited_bump_ne {p o page off : Nat} (s : State) (src : Nat) (h : o < 4096) (h' : off < 4096)
    (hne : p ≠ page ∨ (o ≠ off ∧ o ≠ 0x010 ∧ o ≠ 0x01C ∧ o ≠ 0x028)) : ((s.bump page off).fireLimited page src).reg p o = s.reg p o := by
  rw [reg_fireLimited_ne _ _ _ _ h (by omega), reg_bump s h h', if_neg (by omega)]

/-- Settles O18: the abandoned plan is a raised counter and an event (`exec_harvestPlan_late`), which leave all but registers and events as they were (`Noted`). -/
theorem aLateHarvestPlanKeepsTheRate : Obligations.ALateHarvestPlanKeepsTheRate := by
  intro region s h
  have noted : Noted s ((s.bump (pRG region) 0x07C).fireLimited (pRG region) 4) := (bump_noted s _ _ _).trans (fireLimited_noted _ _ _ _ _)
  have accounting : ((s.bump (pRG region) 0x07C).fireLimited (pRG region) 4).dirty region = s.dirty region := by
    unfold State.dirty
    rw [noted.dur]
  refine ⟨_, exec_harvestPlan_late h, ?_, congrArg Dirty.rate accounting, reg_fireLimited_bump_ne s 4 (by decide) (by decide) (.inr (by decide)),
    congrArg Dirty.harvests accounting, noted.dur, noted.dram, noted.loft, noted.cellar, fun p o ho hne => reg_fireLimited_bump_ne s 4 ho (by decide) hne⟩
  rw [reg_fireLimited_ne _ _ _ _ (by decide) (.inr (by decide)), reg_bump s (by decide) (by decide), if_pos ⟨rfl, rfl⟩]

/-! ### The end of a program, the Ledger and the charger (R176, R180, R188, R191, R193 to R195, R217) -/

/-- A program into a band with a free slot for the page takes that slot. -/
theorem programIn_of_slot {s t : State} {r key page loc : Nat} {f : FlashPage} (hl : s.slotIn r key page = some loc) (ht : (s.takeSlot r key loc).program loc f = t) :
    s.programIn r key page f = some (loc, t) := by
  unfold State.programIn
  rw [hl, ← ht]

/-- Settles O36: each row's own branch, by the conditions that the statement gives. -/
theorem harvestAndLedgerComplete : Obligations.HarvestAndLedgerComplete := by
  refine ⟨?plan, ?planLate, ?programmed, ?programFailed, ?gatherFilled, ?wearSaved, ?probe, ?period, ?periodLate, ?overVoltage, ?restart, ?senseMismatch,
    ?couplerFault, ?vbusOver, ?chargerFault⟩
  case plan =>
    intro region d s h hd
    subst hd
    exact congrArg Host.Outcome.next ((if_neg (Nat.not_le.2 h)).trans (if_neg (by decide)))
  case planLate => exact fun region s h => exec_harvestPlan_late h
  case programmed =>
    intro page h f v w x k loc s hh hf hv hk hw hl hx
    have sealed : s.sealPage (s.kindOf page) (s.storedAs page) h.data h.poison = (some f, v) := Prod.ext hf hv
    have banded : v.bandFor (s.regionOf page) (s.kindOf page) = (some k, w) := Prod.ext hk hw
    refine congrArg Host.Outcome.next ?_
    dsimp only
    rw [hh]
    dsimp only
    rw [if_neg (by decide), sealed]
    dsimp only
    rw [banded]
    dsimp only
    rw [programIn_of_slot hl hx]
  case programFailed =>
    intro page h s hh
    refine congrArg Host.Outcome.next ?_
    dsimp only
    rw [hh]
    exact if_pos rfl
  case gatherFilled =>
    intro page g loc f s hg hs hp hf ho
    refine congrArg Host.Outcome.next ?_
    rw [hg]
    dsimp only
    rw [hs]
    dsimp only
    rw [if_neg hp, hf]
    exact if_pos ⟨rfl, ho⟩
  case wearSaved => exact fun s => rfl
  case probe => exact fun req data s hw hv => next_guarded hw (if_neg (by simp [hv]))
  case period =>
    intro mon adc vbus ibus pIn v w s hv hw
    subst hv hw
    exact congrArg Host.Outcome.next (if_neg (by decide))
  case periodLate => exact fun mon adc vbus ibus pIn s => congrArg Host.Outcome.next (if_pos rfl)
  case overVoltage => exact fun mon adc s h => congrArg Host.Outcome.next (if_neg (Nat.not_le.2 h))
  case restart =>
    intro v s ho hv
    subst hv
    exact congrArg Host.Outcome.next (if_pos ho)
  case senseMismatch => exact fun s => rfl
  case couplerFault => exact fun s => rfl
  case vbusOver => exact fun s => rfl
  case chargerFault => exact fun s => rfl

end Sys2Proof.Machine
end

section
/-!
PROOFS. The statements of chapter 08 that remain: an abandoned Ledger period; power loss, ride-through, the flush and the restore.
-/

namespace Sys2Proof.Machine

/-! ### An abandoned period (R194, R198) -/

section
variable {s : State}

/-- An abandoned period that is not the fifth in a row counts, shows the run with LEDGER_LATE at most once a second, and lengthens the wait of TWIN_COVERED (log 1). -/
theorem lateLedger_of_not_fifth (h : s.fld pLG 0x080 2 0 ≠ 4) :
    ∃ run tc, s.lateLedger = { ((s.bump pLG 0x07C).setFld pLG 0x080 2 0 run).fireLimited pLG 0 with power.tcSince := tc } := by
  unfold State.lateLedger
  dsimp only
  rw [if_neg (by omega)]
  split <;> exact ⟨_, _, rfl⟩

/-- Counting an abandoned period and its run leaves every register but the run's and the page's event registers as the counter's rise left it. -/
theorem reg_fireLimited_setFld_bump {p o : Nat} (run : Nat) (ho : o < 4096) (hne : p ≠ pLG ∨ (o ≠ 0x080 ∧ o ≠ 0x010 ∧ o ≠ 0x01C ∧ o ≠ 0x028)) :
    (((s.bump pLG 0x07C).setFld pLG 0x080 2 0 run).fireLimited pLG 0).reg p o = if p = pLG ∧ o = 0x07C then satAdd (s.reg pLG 0x07C) 1 else s.reg p o := by
  rw [reg_fireLimited_ne _ _ _ _ ho (by omega), reg_setFld _ ho (by decide), if_neg (by omega), reg_bump s ho (by decide)]

end

/-- Settles O19: short of the fifth in a row, a period abandoned moves LATE_COUNT, its run, events and the wait of TWIN_COVERED only (`lateLedger_of_not_fifth`);
the fifth takes the branch that drops the budget. -/
theorem aLateLedgerPeriodKeepsOrDropsTheBudget : Obligations.ALateLedgerPeriodKeepsOrDropsTheBudget := by
  refine ⟨fun mon adc vbus ibus pIn s h => ?kept, fun mon adc vbus ibus pIn s u h hu => ?fifth⟩
  case kept =>
    obtain ⟨run, tc, late⟩ := lateLedger_of_not_fifth h
    have noted : Noted s (((s.bump pLG 0x07C).setFld pLG 0x080 2 0 run).fireLimited pLG 0) :=
      ((bump_noted s _ _ _).trans (setFld_noted _ _ _ _ _ _)).trans (fireLimited_noted _ _ _ _ _)
    have same {p o : Nat} (ho : o < 4096) (hne : p ≠ pLG ∨ o = 0x044 ∨ o = 0x048) :
        (((s.bump pLG 0x07C).setFld pLG 0x080 2 0 run).fireLimited pLG 0).reg p o = s.reg p o :=
      (reg_fireLimited_setFld_bump run ho (by omega)).trans (if_neg (by omega))
    refine ⟨_, congrArg Host.Outcome.next ((if_pos rfl).trans late), reg_fireLimited_setFld_bump run (by decide) (.inr (by decide)), ?_, noted.dur, noted.loft,
      fun p o hp ho => same ho (.inl hp)⟩
    show State.budget (((s.bump pLG 0x07C).setFld pLG 0x080 2 0 run).fireLimited pLG 0) = s.budget
    unfold State.budget State.reg64 State.num
    rw [same (by decide) (.inr (.inl rfl)), same (by decide) (.inr (.inr rfl))]
  case fifth =>
    subst hu
    refine congrArg Host.Outcome.next ((if_pos rfl).trans ?_)
    unfold State.lateLedger
    rw [h]
    exact if_pos rfl

/-! ### Power loss, ride-through, the flush and the restore (R203, R204, R206, R211 to R216) -/

/-- What a trip of the detector, once it is recorded and a bank measurement has ended, leads to in each state of the sequencer. -/
theorem powerLoss_of_untripped {s t : State} (h : s.power.tripped = false)
    (ht : ((({ s with power.tripped := true, power.countAt := none }).bump pPLD 0x048).fire pPLD 0).noteTrip.endBank = t) :
    s.powerLoss =
      if t.seqState = 0 then (if t.seq.holding then t else t.holdSync)
      else if t.seqDown then t.rideDown
      else if t.seqState = 15 then t.ride
      else if t.seqFaulted then t
      else t.seqFault 3 [] := by
  subst ht
  exact if_neg (by simp [h])

/-- Settles O37: each row's own branch, by the conditions that the statement gives; the four clauses of the detector's trip share `powerLoss_of_untripped`. -/
theorem powerLossAndRestoreComplete : Obligations.PowerLossAndRestoreComplete := by
  refine ⟨?lossRides, ?lossGoingDown, ?lossInZero, ?lossGoingUp, ?rideRecovered, ?rideExpired, ?flushed, ?flushStopped, ?powerDown, ?countDone, ?waitExpired,
    ?restoreStep, ?twinWait, ?regionReady, ?released, ?zoneErased, ?pageLoaded⟩
  case lossRides =>
    intro t s h ht h15 hd
    refine congrArg Host.Outcome.next ((powerLoss_of_untripped h ht).trans ?_)
    rw [if_neg (by omega), if_neg (by simp [hd]), if_pos h15]
  case lossGoingDown =>
    intro t s h ht h0 hd
    refine congrArg Host.Outcome.next ((powerLoss_of_untripped h ht).trans ?_)
    rw [if_neg h0, if_pos hd]
  case lossInZero =>
    intro t s h ht h0 hh
    refine congrArg Host.Outcome.next ((powerLoss_of_untripped h ht).trans ?_)
    rw [if_pos h0, if_neg (by simp [hh])]
  case lossGoingUp =>
    intro t s h ht h0 hd h15 hf
    refine congrArg Host.Outcome.next ((powerLoss_of_untripped h ht).trans ?_)
    rw [if_neg h0, if_neg (by simp [hd]), if_neg h15, if_neg (by simp [hf])]
  case rideRecovered =>
    intro t s hp ht
    subst ht
    exact congrArg Host.Outcome.next (if_neg (not_not_intro hp))
  case rideExpired => exact fun s hp => congrArg Host.Outcome.next (if_neg (not_not_intro hp))
  case flushed =>
    intro i l v s hi hp hv
    subst hv
    refine congrArg Host.Outcome.next ?_
    rw [hi]
    exact if_neg (not_not_intro hp)
  case flushStopped =>
    intro region pages cause i l s hi hp hr hc hs
    refine congrArg Host.Outcome.next ?_
    rw [hi]
    refine if_neg ?_
    rintro (h | h | h | h)
    · exact h hp
    · exact Nat.not_le.2 hr h
    · exact h hc
    · simp [hs] at h
  case powerDown => exact fun s hp => congrArg Host.Outcome.next (if_pos hp)
  case countDone => exact fun s hp hc => congrArg Host.Outcome.next (if_pos ⟨hp, hc⟩)
  case waitExpired => exact fun s hp hc => congrArg Host.Outcome.next (if_pos ⟨hp, hc⟩)
  case restoreStep =>
    intro n bad s hp h0 h8 hnew hneeds hbehind
    refine congrArg Host.Outcome.next (if_neg ?_)
    rintro (h | h | h | h | h | ⟨h, hl⟩)
    · exact h hp
    · exact h0 h
    · exact Nat.not_lt.2 h8 h
    · exact hnew h
    · exact h hneeds
    · exact hbehind.elim (· h) hl
  case twinWait => exact fun s hp h6 hl => congrArg Host.Outcome.next (if_neg (by simp [hp, h6, hl]))
  case regionReady =>
    intro region s hr hre he h6 h8 hb
    refine congrArg Host.Outcome.next (if_neg ?_)
    rintro (h | h | h | h | h | h)
    · exact Nat.not_le.2 hr h
    · simp [hre] at h
    · simp [he] at h
    · exact h h6
    · exact h h8
    · exact Nat.not_lt.2 hb h
  case released =>
    intro v s hp hi hr hv
    subst hv
    refine congrArg Host.Outcome.next (if_neg ?_)
    rintro (h | h | h)
    · exact h hp
    · exact hi h
    · exact h hr
  case zoneErased =>
    intro region mib n s hr hn h0
    subst hn
    exact congrArg Host.Outcome.next (if_neg fun h => h.elim (Nat.not_le.2 hr) h0)
  case pageLoaded =>
    intro page f s ha hf ho
    refine congrArg Host.Outcome.next ((if_neg ?_).trans ?_)
    · simp [Option.isSome_iff_ne_none.mp ha]
    · rw [hf]
      exact if_pos ⟨rfl, ho⟩

end Sys2Proof.Machine
end

section
/-!
PROOFS. The statements of the twin: the frames it sends, and the timers, ports and verdicts beside them.
-/

namespace Sys2Proof.Machine

/-! ### Frames of the twin (R222, R223, R228, R229, R233 to R235, R238, R240) -/

/-- What a HELLO, once exchanged, moves in each pair state (the table "Pair states"). -/
def State.helloMoves (s : State) (f : TwinFrame) (st : Nat) : State :=
  match s.pair with
  | 0 =>
    if f.epoch = s.epoch then s.enterJoining true s.epoch f.side
    else if f.epoch < s.epoch then (s.setPair 3).fire pTWC 1
    else s.enterJoining false f.epoch f.side
  | 2 =>
    if f.epoch = s.epoch then s.enterJoining true s.epoch f.side
    else if s.epoch < f.epoch then s.enterJoining false f.epoch f.side
    else s
  | 3 => s.fire pTWC 4
  | 4 => if st = 3 then s.enterJoining false f.epoch f.side else s
  | _ => s

section
variable {s : State} {f : TwinFrame} {st : Nat}

theorem helloMoves_of_init (h : s.pair = 0) :
    s.helloMoves f st =
      if f.epoch = s.epoch then s.enterJoining true s.epoch f.side
      else if f.epoch < s.epoch then (s.setPair 3).fire pTWC 1
      else s.enterJoining false f.epoch f.side := by
  unfold State.helloMoves
  rw [h]
  rfl

theorem helloMoves_of_solo (h : s.pair = 3) : s.helloMoves f st = s.fire pTWC 4 := by
  unfold State.helloMoves
  rw [h]
  rfl

theorem helloMoves_of_fenced (h : s.pair = 4) : s.helloMoves f st = if st = 3 then s.enterJoining false f.epoch f.side else s := by
  unfold State.helloMoves
  rw [h]
  rfl

end

/-- Where the bytes of an answered READ_REQ go. -/
def State.takeAnswer (s : State) (dpa map : Nat) (bs : List Byte) : ReadWaiter → State
  | .job n m rs =>
    { s with fab.reads := s.fab.reads.map fun (j : ReadJob) => if j.qpn = n ∧ j.msn = m ∧ j.resend = rs then s.supplyPiece dpa bs map j else j }
  | .cellar loc => s.cellarFromTwin loc bs map
  | .line d => if map = 0 then (s.lineStored d bs true 0x190).recovKick 64 (s.regionOf (pageOf d)) else s.recovFails (d / 64)
  | .leftBehind page =>
    if page ∈ s.power.leftBehind then
      ({ s with power.leftBehind := s.power.leftBehind.filter (· ≠ page), loft.away := KM.del s.loft.away page }).loadPage page
        (some { kind := 1, page, slot := 0, salt := 0, ctr := 0, poison := bitList map 256, data := sparse bs })
    else s

section
variable {f : TwinFrame} {s t : State} (h1 : s.portCarries f.port = true) (h2 : f.side ≠ s.side) (h3 : s.bump (pTP f.port) 0x048 = t)
include h1 h2 h3

/-- A row that hears a frame leaves what its effect leaves in the state that has counted the frame, where the frame is accepted. -/
theorem next_heard {k : State → State} {u : State} (hk : k t = u) : (.next (s.heard f k) : Res) = .next u := by
  rw [heard_of_carries h1 h2 h3, hk]

/-- A LEASE_GRANT that answers a LEASE, in PAIRED or SUSPECT: the lease is extended from when its LEASE was sent, and SUSPECT ends (R234). -/
theorem exec_leaseGrantRx {id w term n : Nat} (hb : f.body = .leaseGrant id w term) (he : f.epoch = t.epoch) (hl : KM.get t.twin.leases id = some n)
    (hp : t.pair = 1 ∨ t.pair = 2) :
    exec (.leaseGrantRx f) s =
      .next (((let u := { t with twin.leaseUntil := max t.twin.leaseUntil (n + 150000000), twin.grantRx := t.now, twin.readFailed := false }
        if t.pair = 2 then ((({ u with twin.survive := false }).clearLog).clearCredits [0, 1, 2, 3]).setPair 1 else u.showLease).takeStatus w).wakeBar2) := by
  refine next_heard h1 h2 h3 ?_
  rw [hb]
  refine (sameEpoch_of_eq he).trans ?_
  rw [hl]
  exact if_neg (not_not_intro hp)

/-- A READ_DATA that fits the READ_REQ it answers ends it, and goes where the READ_REQ's waiter is. -/
theorem exec_readDataRx {id dpa map : Nat} {bs : List Byte} {q : ReadReq} (hb : f.body = .readData id dpa map bs)
    (hq : (t.twin.reqs.find? fun q => q.id == id) = some q) (hd : dpa = q.dpa) (hl : bs.length = q.len) :
    exec (.readDataRx f) s = .next (({ t with twin.reqs := t.twin.reqs.filter fun x => x.id ≠ id }).takeAnswer dpa map bs q.waiter) := by
  refine next_heard h1 h2 h3 ?_
  rw [hb]
  dsimp only
  rw [hq]
  refine (if_neg (by simp [hd, hl])).trans ?_
  cases q.waiter with
  | _ => rfl

/-- A HELLO outside PAIRED, JOINING and a resync: it is answered, the sequences start again, and the pair state moves. -/
theorem exec_helloRx {st serial : Nat} {held valid : Bool} {v : State} (hb : f.body = .hello st held valid serial) (hp1 : t.pair ≠ 1) (hp5 : t.pair ≠ 5)
    (hr : t.twin.resync = none)
    (hv : { (t.sendFrame (t.plainFrame f.port t.helloBody)).restartSequence with
            twin.peerLog := false, twin.peerLogValid := valid,
            twin.epochGap := decide (f.epoch + 1 < (t.sendFrame (t.plainFrame f.port t.helloBody)).restartSequence.epoch), twin.seen := true } = v) :
    exec (.helloRx f) s = .next (v.helloMoves f st) := by
  refine next_heard h1 h2 h3 ?_
  rw [hb]
  subst hv
  exact if_neg (by simp [hp1, hp5, hr])

end

/-- Settles O38: each frame is accepted and counted (`next_heard`), and its type's own branch is taken by the conditions that the statement gives; the READ_DATA and HELLO
clauses share `exec_readDataRx` and `exec_helloRx`. -/
theorem twinFramesComplete : Obligations.TwinFramesComplete := by
  refine ⟨?mirrorData, ?mirrorMeta, ?mack, ?lease, ?grantPaired, ?grantSuspect, ?flushNotice, ?otherNotice, ?readReq, ?dataJob, ?dataCellar, ?dataLine, ?dataLeftBehind,
    ?log, ?auditReq, ?auditDigest, ?helloJoins, ?helloSurvives, ?helloSolo, ?helloFenced⟩
  case mirrorData => exact fun f segs t s h1 h2 h3 hb => next_heard h1 h2 h3 (by rw [hb])
  case mirrorMeta => exact fun f recs t s h1 h2 h3 hb => next_heard h1 h2 h3 (by rw [hb])
  case mack =>
    rintro ⟨port, side, epoch, mseq, txCount, body⟩ applied rx map q x grants t s h1 h2 h3 ⟨⟩
    exact next_heard h1 h2 h3 rfl
  case lease =>
    intro f id w v t s h1 h2 h3 hb he hv hg
    subst hv
    refine next_heard h1 h2 h3 ?_
    rw [hb]
    exact (sameEpoch_of_eq he).trans (if_pos hg)
  case grantPaired =>
    intro f id w term n t s h1 h2 h3 hb he hl hp
    rw [exec_leaseGrantRx h1 h2 h3 hb he hl (.inl hp), if_neg (by omega)]
  case grantSuspect =>
    intro f id w term n t s h1 h2 h3 hb he hl hp
    rw [exec_leaseGrantRx h1 h2 h3 hb he hl (.inr hp), if_pos hp]
  case flushNotice =>
    intro f code w v t s h1 h2 h3 hb hv hc
    subst hv
    refine next_heard h1 h2 h3 ?_
    rw [hb]
    exact if_pos hc
  case otherNotice =>
    intro f code w t s h1 h2 h3 hb hc
    refine next_heard h1 h2 h3 ?_
    rw [hb]
    exact if_neg fun h => hc h.1
  case readReq => exact fun f id dpa len after purpose t s h1 h2 h3 hb => next_heard h1 h2 h3 (by rw [hb])
  case dataJob =>
    intro f id dpa map n m bs q rs t s h1 h2 h3 hb hq hd hl hw
    rw [exec_readDataRx h1 h2 h3 hb hq hd hl, hw]
    rfl
  case dataCellar =>
    intro f id dpa map loc bs q t s h1 h2 h3 hb hq hd hl hw
    rw [exec_readDataRx h1 h2 h3 hb hq hd hl, hw]
    rfl
  case dataLine =>
    intro f id dpa map d bs q v t s h1 h2 h3 hb hq hd hl hw hv
    rw [exec_readDataRx h1 h2 h3 hb hq hd hl, hw, hv]
    rfl
  case dataLeftBehind =>
    intro f id dpa map page bs q t s h1 h2 h3 hb hq hd hl hw hp
    rw [exec_readDataRx h1 h2 h3 hb hq hd hl, hw]
    exact congrArg Host.Outcome.next (if_pos hp)
  case log =>
    intro f loft cellar last t s h1 h2 h3 hb
    refine next_heard h1 h2 h3 ?_
    rw [hb]
  case auditReq => exact fun f page id t s h1 h2 h3 hb => next_heard h1 h2 h3 (by rw [hb])
  case auditDigest =>
    intro f id map page mine d own a t s h1 h2 h3 hb ha hx
    refine next_heard h1 h2 h3 ?_
    rw [hb, ha]
    dsimp only
    rw [hx]
  case helloJoins =>
    intro f st serial held valid v t s h1 h2 h3 hb hp1 hp5 hr hv hp he
    rw [exec_helloRx h1 h2 h3 hb hp1 hp5 hr hv, helloMoves_of_init hp, if_pos he]
  case helloSurvives =>
    intro f st serial held valid v t s h1 h2 h3 hb hp1 hp5 hr hv hp he
    rw [exec_helloRx h1 h2 h3 hb hp1 hp5 hr hv, helloMoves_of_init hp, if_neg (Nat.ne_of_lt he), if_pos he]
  case helloSolo =>
    intro f st serial held valid v t s h1 h2 h3 hb hp1 hp5 hr hv hp
    rw [exec_helloRx h1 h2 h3 hb hp1 hp5 hr hv, helloMoves_of_solo hp]
  case helloFenced =>
    intro f st serial held valid v t s h1 h2 h3 hb hp1 hp5 hr hv hp hst
    rw [exec_helloRx h1 h2 h3 hb hp1 hp5 hr hv, helloMoves_of_fenced hp, if_pos hst]

/-! ### Timers, ports and the witness verdict (R220, R223 to R225, R228, R230, R234, R238) -/

/-- A verdict of the witness on the request that stands, in a WITNESS_VERDICT that may be written: it is consumed, and in SUSPECT this side survives or yields. -/
theorem exec_witnessVerdictWrite {req : Requester} {data : Word} {v s : State} (hw : s.writable req pTWC = true) (hr : s.resultValid pTWC 0x054 = true)
    (hi : bits data 15 0 = s.fld pTWC 0x054 15 0) (hv : s.consume pTWC 0x054 = v) (hp : v.pair = 2) (hd : bits data 31 30 = 1 ∨ bits data 31 30 = 2) :
    exec (.witnessVerdictWrite req data) s =
      .next (if bits data 31 30 = 1 then ({ v with twin.survive := true }).showLease
        else (({ v with twin.yielded := true, twin.survive := false }).setPair 4).fire pTWC 2) := by
  subst hv
  exact next_guarded hw ((if_neg (by omega)).trans ((if_neg (by simp [hr, hi])).trans (if_neg (not_not_intro hp))))

/-- Settles O39: each row's own branch, by the conditions that the statement gives. -/
theorem twinTimersComplete : Obligations.TwinTimersComplete := by
  refine ⟨?badFrame, ?mackTimer, ?retry, ?unapplied, ?leaseTimer, fun s => rfl, ?grantMissing, ?helloTimeout, ?survive, ?yield, ?solo, ?linkDown, ?linkUp, ?portEn,
    ?readAgain, ?readFails⟩
  case badFrame => exact fun port tagFailed s hp => congrArg Host.Outcome.next (if_neg (by simp [hp]))
  case mackTimer => exact fun port s hp => congrArg Host.Outcome.next (if_pos hp)
  case retry =>
    intro mseq x s hx hq
    refine congrArg Host.Outcome.next ?_
    unfold State.loseFrame
    rw [hx]
    exact if_neg (by simp [hq])
  case unapplied => exact fun mseq s hm => congrArg Host.Outcome.next (if_pos hm)
  case leaseTimer => exact fun s hp => congrArg Host.Outcome.next (if_pos hp)
  case grantMissing => exact fun s hp => congrArg Host.Outcome.next (if_pos hp)
  case helloTimeout => exact fun s hp => congrArg Host.Outcome.next (if_pos hp)
  case survive =>
    intro req data v s hw hr hi hv hp hd
    rw [exec_witnessVerdictWrite hw hr hi hv hp (.inl hd), if_pos hd]
  case yield =>
    intro req data v s hw hr hi hv hp hd
    rw [exec_witnessVerdictWrite hw hr hi hv hp (.inr hd), if_neg (by omega)]
  case solo => exact fun s hp hs => congrArg Host.Outcome.next (if_pos ⟨hp, hs⟩)
  case linkDown => exact fun port s hp hl => congrArg Host.Outcome.next (if_neg (not_or.2 ⟨by omega, by simp [hl]⟩))
  case linkUp => exact fun port s hp ho he hr => congrArg Host.Outcome.next (if_neg (not_or.2 ⟨by omega, by simp [ho, he, hr]⟩))
  case portEn => exact fun req data s hw => next_guarded hw rfl
  case readAgain =>
    intro id q s hq hr hp
    refine congrArg Host.Outcome.next ?_
    rw [hq]
    exact if_neg (by simp [hr, hp])
  case readFails =>
    intro id q s hq hr
    refine congrArg Host.Outcome.next ?_
    rw [hq]
    exact if_pos (.inl hr)

end Sys2Proof.Machine
end

section
/-!
PROOFS. The statements of the Cellar: flash reads and their ladder, sheaves, relocation, failed programs and erases, LUNs and staging reads.
-/

namespace Sys2Proof.Machine

/-! ### Flash reads, sheaves, relocation, LUNs and staging reads (R251, R253, R256, R262, R268, R269) -/

/-- A block of a channel there is passes the checks of a failed program and of a failed erase. -/
theorem block_of_present_channel {channel lun block : Nat} {s : State} (hc : channel < 64) (hl : lun < 16) (hb : block < s.lunBlocks) (ha : s.absent (pNC channel) = false) :
    ¬(64 ≤ channel ∨ 16 ≤ lun ∨ s.lunBlocks ≤ block ∨ s.absent (pNC channel) = true) := by
  simp [hc, hl, hb, ha]

/-- Settles O40: each row's own branch, by the conditions that the statement gives; a relocation's program takes its slot by `programIn_of_slot`. -/
theorem flashComplete : Obligations.FlashComplete := by
  refine ⟨?readDone, ?sheafSealed, ?relocated, ?dailyWear, ?programFails, ?eraseFails, ?retireWrite, ?lunFails, ?lunRetires, ?stagingStale, ?staged, ?stagingFails⟩
  case readDone =>
    intro loc ok bits m f v s hm h5 hd hv hf
    subst hv
    refine congrArg Host.Outcome.next ?_
    rw [hm]
    refine (if_neg (by simp [h5, hd])).trans ?_
    dsimp only
    rw [hf]
  case sheafSealed =>
    intro region key b s hr hk hb hu
    refine congrArg Host.Outcome.next ((if_neg (by omega)).trans ?_)
    rw [hb]
    exact if_neg hu
  case relocated =>
    intro loc v w x f k n s hl hv hf hk hw hn hx
    subst hv
    have banded : ({ s with cellar.rewrites := s.cellar.rewrites.filter (· ≠ loc) } : State).relocBand 64 (locRegion loc) 0 = (some k, w) := Prod.ext hk hw
    refine congrArg Host.Outcome.next ((if_neg (by simp [hl])).trans ?_)
    dsimp only
    rw [hf]
    dsimp only
    rw [banded]
    dsimp only
    rw [programIn_of_slot hn hx]
  case dailyWear =>
    intro region b s hr hb hw
    refine congrArg Host.Outcome.next ((if_neg (Nat.not_le.2 hr)).trans ?_)
    rw [hb]
    exact if_pos hw
  case programFails => exact fun channel lun block s hc hl hb ha => congrArg Host.Outcome.next (if_neg (block_of_present_channel hc hl hb ha))
  case eraseFails => exact fun channel lun block s hc hl hb ha => congrArg Host.Outcome.next (if_neg (block_of_present_channel hc hl hb ha))
  case retireWrite => exact fun req channel data s hc hw => (congrArg Host.Outcome.next (if_neg (Nat.not_le.2 hc))).trans (next_guarded hw rfl)
  case lunFails => exact fun channel lun s hc hl ha => congrArg Host.Outcome.next (if_neg (by simp [hc, hl, ha]))
  case lunRetires =>
    intro channel lun v s hc hl hr hv he
    subst he
    exact congrArg Host.Outcome.next (if_neg (by simp [hc, hl, hr, hv]))
  case stagingStale =>
    intro page ok f v s hf hv hs
    subst hv
    refine congrArg Host.Outcome.next ?_
    rw [hf]
    exact if_pos hs
  case staged =>
    intro page f v s hf hv hs hm
    subst hv
    refine congrArg Host.Outcome.next ?_
    rw [hf]
    exact (if_neg (not_or.2 ⟨by simp [hs], not_not_intro hm⟩)).trans (if_pos rfl)
  case stagingFails =>
    intro page f v s hf hv hs hm
    subst hv
    refine congrArg Host.Outcome.next ?_
    rw [hf]
    exact (if_neg (not_or.2 ⟨by simp [hs], not_not_intro hm⟩)).trans (if_neg (by decide))

end Sys2Proof.Machine
end

section
/-!
PROOFS. The statements of the step itself, and of the Loft's DRAM: where an address lives; refresh, row hammer, the DIMM sensor, training, speed and repairs.
-/

namespace Sys2Proof.Machine

/-! ### A step -/

/-- Settles O1: the front of the queue is the first case of the step. -/
theorem aStepRunsTheFrontCommand : Obligations.AStepRunsTheFrontCommand := fun _ _ _ => rfl

/-- Settles O2: the empty queue is the other case of the step. -/
theorem anIdleStepPassesANanosecond : Obligations.AnIdleStepPassesANanosecond := by
  intro s h
  unfold step
  rw [h]

/-! ### Where a Loft address lives (R274) -/

/-- The bits `hi`:`lo` of a bit vector, as a number. -/
theorem toNat_extractLsb_eq_div_mod {n : Nat} (x : BitVec n) (hi lo : Nat) : (x.extractLsb hi lo).toNat = x.toNat / 2 ^ lo % 2 ^ (hi - lo + 1) := by
  rw [BitVec.extractLsb_toNat, Nat.shiftRight_eq_div_pow]

/-- The exclusive or of numbers of fewer than 64 bits is theirs as numbers. -/
theorem xor64_eq_xor {a b : Nat} (ha : a < 2 ^ 64) (hb : b < 2 ^ 64) : xor64 a b = a ^^^ b := by
  unfold xor64
  rw [BitVec.toNat_xor, BitVec.toNat_ofNat, BitVec.toNat_ofNat, Nat.mod_eq_of_lt ha, Nat.mod_eq_of_lt hb]

/-- Settles O20: pages and offsets are quotients and remainders by 2^14, and so bits; the bank group's hash is of numbers of three bits. -/
theorem aLoftAddressHasItsChannelAndCell : Obligations.ALoftAddressHasItsChannelAndCell := by
  refine ⟨fun d s h => ?channel, fun a => ?cell, fun s h => ?worked⟩
  case channel =>
    have page : (d.extractLsb 48 14).toNat = pageOf d.toNat := by
      rw [toNat_extractLsb_eq_div_mod]
      unfold pageOf
      omega
    have offset : (d.extractLsb 13 0).toNat = d.toNat % 16384 := by
      rw [toNat_extractLsb_eq_div_mod]
      omega
    unfold State.channelOf State.regionOf
    rw [h, page, offset]
  case cell =>
    have hash : (a.extractLsb 10 8 ^^^ a.extractLsb 23 21).toNat = xor64 (a.toNat / 256 % 8) (a.toNat / 2 ^ 21 % 2 ^ 18 % 8) := by
      rw [BitVec.toNat_xor, toNat_extractLsb_eq_div_mod, toNat_extractLsb_eq_div_mod, xor64_eq_xor (by omega) (by omega)]
      congr 1
      omega
    rw [hash]
    simp only [toNat_extractLsb_eq_div_mod]
    rfl
  case worked =>
    unfold State.channelOf State.regionOf
    rw [h]
    decide

/-! ### Refresh, row hammer, the DIMM sensor, training, speed and repairs (R277 to R294, R311) -/

/-- A bank of a channel there is passes the checks of a row's activation. -/
theorem bank_of_present_channel {channel sub rank group bank : Nat} {s : State} (hc : s.hasChannel channel = true) (hs : sub < 2) (hr : rank < 4) (hg : group < 8)
    (hb : bank < 4) : ¬(s.hasChannel channel = false ∨ 2 ≤ sub ∨ 4 ≤ rank ∨ 8 ≤ group ∨ 4 ≤ bank) := by
  simp [hc, hs, hr, hg, hb]

/-- A region with channels due, and with nothing before them, passes the checks of a training sequence's start. -/
theorem due_region_may_train {region : Nat} {s : State} (hr : region < 4) (hd : s.dueOf region ≠ 0) (ho : s.ownSequence region = false) (hb : s.otherBusy region = false)
    (hl : s.lowerFirst region = false) :
    ¬(4 ≤ region ∨ s.dueOf region = 0 ∨ s.ownSequence region = true ∨ s.otherBusy region = true ∨ s.lowerFirst region = true) := by
  simp [hr, hd, ho, hb, hl]

/-- Settles O41: each row's own branch, by the conditions that the statement gives. -/
theorem dramComplete : Obligations.DramComplete := by
  refine ⟨?refresh, ?activation, ?hammer, fun region tenant s => rfl, fun channel sub rank group bank s => rfl, ?powerDown, ?dimmPoll, ?spdFault, ?retrainReq, ?retrain,
    ?repair, ?step, ?phaseEnds, ?verified, ?verifyFails, ?deferred, ?speedStart, ?speedDone, ?hardRepair, ?softRepair⟩
  case refresh => exact fun channel rank demand s hc hr hb => congrArg Host.Outcome.next (if_neg (by simp [hc, hr, hb]))
  case activation =>
    intro channel sub rank group bank row tenant b e w s hc hs hr hg hb hk hw hf hlt
    subst hk hw
    refine congrArg Host.Outcome.next ((if_neg (bank_of_present_channel hc hs hr hg hb)).trans ?_)
    dsimp only
    rw [hf]
    exact if_pos hlt
  case hammer =>
    intro channel sub rank group bank row tenant b e w s hc hs hr hg hb hk hw hf hle
    subst hk hw
    refine congrArg Host.Outcome.next ((if_neg (bank_of_present_channel hc hs hr hg hb)).trans ?_)
    dsimp only
    rw [hf]
    exact if_neg (Nat.not_lt.2 hle)
  case powerDown => exact fun channel rank s hc hr hd => congrArg Host.Outcome.next (if_neg (by simp [hc, hr, hd]))
  case dimmPoll => exact fun channel ok temp s hc => congrArg Host.Outcome.next (if_neg (by simp [hc]))
  case spdFault => exact fun channel s hc hu => congrArg Host.Outcome.next (if_pos ⟨hc, hu⟩)
  case retrainReq => exact fun req region data s hr hw => (congrArg Host.Outcome.next (if_neg (Nat.not_le.2 hr))).trans (next_guarded hw rfl)
  case retrain =>
    intro region s hr hd ho hb hl hx
    refine congrArg Host.Outcome.next ((if_neg (due_region_may_train hr hd ho hb hl)).trans ?_)
    rw [hx]
  case repair =>
    intro region x s hr hd ho hb hl hx
    refine congrArg Host.Outcome.next ((if_neg (due_region_may_train hr hd ho hb hl)).trans ?_)
    rw [hx]
  case step =>
    intro region t s ht hp hk hn
    refine congrArg Host.Outcome.next ?_
    rw [ht]
    exact (if_neg hp).trans ((if_neg fun h => hk.elim h.1 h.2).trans (if_pos hn))
  case phaseEnds =>
    intro region t v s ht hp hk hn hv hw
    subst hw
    refine congrArg Host.Outcome.next ?_
    rw [ht]
    exact (if_neg hp).trans ((if_neg fun h => hk.elim h.1 h.2).trans ((if_neg (Nat.not_lt.2 hn)).trans (if_neg hv)))
  case verified =>
    intro region working committed eyes t lost s ht hp hl hn
    subst hl
    refine congrArg Host.Outcome.next ?_
    rw [ht]
    exact (if_neg (not_not_intro hp)).trans (if_neg (not_not_intro hn))
  case verifyFails =>
    intro region working committed eyes t lost s ht hp hl hn
    subst hl
    refine congrArg Host.Outcome.next ?_
    rw [ht]
    exact (if_neg (not_not_intro hp)).trans (if_pos hn)
  case deferred => exact fun region s hd => congrArg Host.Outcome.next (if_pos hd)
  case speedStart => exact fun region s hr ht ho hb => congrArg Host.Outcome.next (if_neg (by simp [hr, ht, ho, hb]))
  case speedDone =>
    intro region passed t v s ht hk hv
    subst hv
    refine congrArg Host.Outcome.next ?_
    rw [ht]
    exact if_neg (not_not_intro hk)
  case hardRepair =>
    intro region t v s ht hp hv
    subst hv
    refine congrArg Host.Outcome.next ?_
    rw [ht]
    exact if_neg (not_not_intro hp)
  case softRepair =>
    intro channel sub rank group bank row v s ha hv
    subst hv
    exact congrArg Host.Outcome.next (if_pos ha)

end Sys2Proof.Machine
end

section
/-!
PROOFS. The statements of the data stored in the Loft, and of the Larder: lines, pages, parity, scans and the Gleaner; key slots and streams;
requests, engines, the DRBG and its alarms.
-/

namespace Sys2Proof.Machine

/-! ### Lines, pages, parity, scans, the Gleaner (R301, R307, R312, R321, R322, R324, R326, R327) -/

/-- A line of the Loft that is in no recovery passes the checks of its decode. -/
theorem settled_line_decodes {dpa : Nat} {s : State} (ht : dpa < s.loftTop) (hr : s.recovering (dpa / 64) = false) :
    ¬(s.loftTop ≤ dpa ∨ s.recovering (dpa / 64) = true) :=
  not_or.2 ⟨Nat.not_le.2 ht, ne_true_of_eq_false hr⟩

/-- Settles O42: each row's own branch, by the conditions that the statement gives. -/
theorem integrityComplete : Obligations.IntegrityComplete := by
  refine ⟨?clean, ?poisoned, ?uncorrectable, ?recovered, ?recoveryFails, ?retired, fun page h s => rfl, ?parityWrite, ?parityRead, ?scanStart, ?scanAbort, ?scanDone,
    ?gleanSlice, ?gleanPass⟩
  case clean =>
    intro dpa errors reader es fix u v s ht hr he hu hd hv
    subst he hu hv
    refine congrArg Host.Outcome.next ((if_neg (settled_line_decodes ht hr)).trans ?_)
    dsimp only
    rw [hd]
  case poisoned =>
    intro dpa errors reader es u v w s ht hr he hu hd hv hw
    subst he hu hv hw
    refine congrArg Host.Outcome.next ((if_neg (settled_line_decodes ht hr)).trans ?_)
    dsimp only
    rw [hd]
  case uncorrectable =>
    intro dpa errors reader es u s ht hr he hu hd
    subst he hu
    refine congrArg Host.Outcome.next ((if_neg (settled_line_decodes ht hr)).trans ?_)
    dsimp only
    rw [hd]
  case recovered =>
    intro dpa g bs s hr hb
    refine congrArg Host.Outcome.next ?_
    dsimp only
    rw [hr, if_pos rfl, hb]
    rfl
  case recoveryFails =>
    intro dpa s hr
    obtain ⟨x, hx⟩ := Option.isSome_iff_exists.1 hr
    refine congrArg Host.Outcome.next ?_
    dsimp only
    rw [hx]
    split
    · rfl
    · rfl
    · next h => cases h
  case retired =>
    intro page n v s hp hl hn h0 hv
    subst hn hv
    exact congrArg Host.Outcome.next (if_neg (by simp [hp, hl, h0]))
  case parityWrite =>
    intro page a p v s hv hp
    subst hv
    refine congrArg Host.Outcome.next ?_
    dsimp only
    rw [hp]
  case parityRead =>
    intro page q m off rs v s hv
    subst hv
    exact congrArg Host.Outcome.next (if_pos rfl)
  case scanStart =>
    intro req data v s hw hb hv hn hp hr
    subst hv
    refine next_guarded hw ((if_neg (by simp [hb])).trans ((if_neg (by simp [hn])).trans ((if_neg ?_).trans (if_neg (by simp [hr])))))
    exact fun ⟨h0, ha⟩ => hp.elim h0 (by simp [ha])
  case scanAbort =>
    intro req data bytes x v s hw hb hv hx
    subst hv
    refine next_guarded hw ((if_neg (by simp [hb])).trans ?_)
    dsimp only
    rw [hx]
  case scanDone =>
    intro bytes ok x d s hx hd
    subst hd
    refine congrArg Host.Outcome.next ?_
    rw [hx] <;> rfl
  case gleanSlice =>
    intro region lines pages warns fails cut s hr hm hp
    exact congrArg Host.Outcome.next (if_neg fun h => h.elim (Nat.not_le.2 hr) (·.elim (· hm) hp))
  case gleanPass =>
    intro region cellar v s hr hv
    subst hv
    exact congrArg Host.Outcome.next (if_neg (Nat.not_le.2 hr))

/-! ### Key slots and streams (R332, R333, R340 to R342, R352, R354) -/

/-- Settles O30: each command's body in the state it begins in, and each row's own branch, by the conditions that the statement gives. -/
theorem keysAndStreamsComplete : Obligations.KeysAndStreamsComplete := by
  refine ⟨?importWrapped, ?importEcdh, ?rewrite, ?rewriteStorage, ?switched, ?zeroise, ?streamOpen, ?segment⟩
  case importWrapped =>
    intro c s u ha hu hi h1 hp hl hd hm he
    refine adminRun_ends_of_body ha hu ((if_neg (by simp [hi, h1, hp, hl])).trans ?_)
    rw [hd]
    exact (if_neg (by simp [hm])).trans (if_neg (not_not_intro he))
  case importEcdh =>
    intro c s u ha hu hi hp hl hd he h4
    refine adminRun_ends_of_body ha hu ((if_neg (by simp [hi, hp, hl])).trans ?_)
    rw [hd]
    refine (if_neg (by simp [he])).trans (if_congr (by simp [h4]) rfl ?_)
    dsimp only
    generalize Config.unwrap3394 _ _ = key
    cases key with
    | none => rfl
    | some key => exact if_neg (by simp [he])
  case rewrite =>
    intro c s u ha hu h8191 hf hb h1 hl hd hs hk1 hk3 hm
    refine adminRun_ends_of_body ha hu ((if_neg (by simp [h8191, hf, hb, h1, hl])).trans ?_)
    rw [hd]
    exact (if_neg (by simp [hs, hk1, hk3])).trans (if_neg (by simp [hm]))
  case rewriteStorage =>
    intro c n x s u ha hu h8191 hf hb hd hs hk hc hn hx
    refine adminRun_success_of_body ha hu ((if_neg (by simp [h8191, hf, hb])).trans ?_)
    rw [hd]
    refine (if_neg (by simp [hs, hk, hc])).trans ?_
    rw [hn, hx]
  case switched =>
    intro slot key s hk hs hp
    refine congrArg Host.Outcome.next ?_
    dsimp only
    rw [hk]
    exact if_neg (by simp [hs, hp])
  case zeroise =>
    intro c s u ha hu h8191 hf hk h3 h4
    exact adminRun_success_of_body ha hu ((if_neg (by simp [h8191, hf])).trans (if_neg (by simp [hk, h3, h4])))
  case streamOpen =>
    intro c aadLen ctLen segs s u ha hu haad hct hsegs h8191 hv hd he hk ho h4096 hct0 hctMax hsegs0 hlen hsum hsize hpair halias hpages hpl hroom
    subst haad hct hsegs
    refine adminRun_ends_of_body ha hu ((if_neg ?_).trans ((if_neg (by omega)).trans ((if_neg ?_).trans (if_neg (Nat.not_le.2 hroom)))))
    · simpa [h8191, hv, hd, he, hk, ho, h4096, hct0, hsegs0, hlen, hsum, hsize] using hctMax
    · exact not_or.2 ⟨Nat.not_lt.2 (Nat.le_of_eq halias), not_or.2 ⟨ne_true_of_eq_false hpages, ne_true_of_eq_false hpl⟩⟩
  case segment =>
    intro op ct x page s hx hs hl hp hf
    refine congrArg Host.Outcome.next ?_
    rw [hx]
    refine (if_neg (by decide)).trans ((if_neg hs).trans ((if_neg (not_not_intro hl)).trans ?_))
    dsimp only
    rw [hp, ← hl]
    exact if_neg (by simp [hf])

/-! ### Requests, engines, the DRBG and its alarms (R338, R346, R347, R349, R350, R356) -/

/-- Settles O43: each row's own branch, by the conditions that the statement gives. -/
theorem larderComplete : Obligations.LarderComplete := by
  refine ⟨?queued, ?answered, ?sealed, ?mismatch, ?marked, ?reseed, ?healthFails, ?healthStops, ?reinstantiate, fun s => rfl, fun s => rfl, ?probe⟩
  case queued =>
    intro op prio slot client tag aadLen len salt counter dataRef q s hq hp hl hc
    subst hq
    refine congrArg Host.Outcome.next ((if_neg (not_or.2 ⟨Nat.not_lt.2 hp, Nat.not_lt.2 hl⟩)).trans ?_)
    dsimp only
    rw [hc]
  case answered =>
    intro op prio slot client tag aadLen len salt counter dataRef q st s hq hp hl hc
    subst hq
    refine congrArg Host.Outcome.next ((if_neg (not_or.2 ⟨Nat.not_lt.2 hp, Nat.not_lt.2 hl⟩)).trans ?_)
    dsimp only
    rw [hc]
  case sealed =>
    intro engine tagOk q v s hq hv
    subst hv
    refine congrArg Host.Outcome.next ?_
    rw [hq]
    exact if_pos rfl
  case mismatch =>
    intro engine tagOk q v s hq hv
    subst hv
    refine congrArg Host.Outcome.next ?_
    rw [hq]
    exact if_neg (by decide)
  case marked => exact fun slot s hm => congrArg Host.Outcome.next (if_pos hm)
  case reseed => exact fun s hb => congrArg Host.Outcome.next (if_pos hb)
  case healthFails =>
    intro v s hv h
    subst hv
    exact congrArg Host.Outcome.next (if_neg fun ⟨h3, hr⟩ => h.elim (Nat.not_lt.2 h3) (by simp [hr]))
  case healthStops =>
    intro v s hv h3 hr
    subst hv
    exact congrArg Host.Outcome.next (if_pos ⟨h3, hr⟩)
  case reinstantiate => exact fun s hd => congrArg Host.Outcome.next (if_pos hd)
  case probe =>
    intro req data k s hw hv hk
    subst hk
    exact next_guarded hw (if_neg (by simp [hv]))

end Sys2Proof.Machine
end

section
/-!
PROOFS. The statements of the Steward and its Attic: firmware, core swaps, configuration records; checkpoints, the comparator, the cores and the boot;
the Attic's window and fetches.
-/

namespace Sys2Proof.Machine

/-! ### Firmware, core swap, records, rings, the history (R369, R373, R374, R376, R378, R388, R455, R463) -/

/-- Settles O31: each command's body in the state it begins in, and each row's own branch, by the conditions that the statement gives. -/
theorem firmwareAndRecordsComplete : Obligations.FirmwareAndRecordsComplete := by
  refine ⟨?fwStage, ?nextReset, ?live, ?liveStep, ?probation, ?coreSwap, ?configRead, ?configWrite, ?ringSet, ?ringOff, ?historyStarts, ?historyGoes⟩
  case fwStage =>
    intro c s u ha hu h3 h0 h20 h4096 hfit hstw hac hlive
    refine adminRun_ends_of_body ha hu ((if_neg ?_).trans ((if_neg (by simp [hstw, hac])).trans (if_neg (by simp [hlive]))))
    rintro (h | h | h | h | h)
    · exact Nat.not_lt.2 h3 h
    · exact h0 h
    · exact Nat.not_lt.2 h20 h
    · exact h h4096
    · exact Nat.not_lt.2 hfit h
  case nextReset =>
    intro c s u ha hu h1 hp hl hb
    exact (congrArg Host.Outcome.next (if_neg (by omega))).trans
      (adminRun_success_of_body ha hu ((if_neg (by omega)).trans ((if_neg (by simp [hl])).trans (if_neg hb))))
  case live =>
    intro c s u ha hu h0 hp hl hs hspare hb
    exact (congrArg Host.Outcome.next (if_neg (not_not_intro h0))).trans
      (adminRun_ends_of_body ha hu ((if_neg (by omega)).trans ((if_neg (by simp [hl])).trans (if_neg (by simp [hs, hspare, hb])))))
  case liveStep =>
    intro step ok data op s hl hs
    refine congrArg Host.Outcome.next ?_
    rw [hl]
    exact if_neg (by simp [hs])
  case probation => exact fun s hb => congrArg Host.Outcome.next (if_pos hb)
  case coreSwap =>
    intro c s u ha hu ht hp hstw hcore hs hspare hpair
    exact adminRun_ends_of_body ha hu ((if_neg (by omega)).trans ((if_neg (by simp [hstw, hcore])).trans (if_neg (by simp [hs, hspare, hpair]))))
  case configRead =>
    intro c seq bs s u ha hu hr
    refine adminRun_success_of_body ha hu ?_
    rw [hr]
  case configWrite =>
    intro c s u ha hu hd hi hl hstw hac h1
    refine adminRun_success_of_body ha hu ((if_neg (by simp [hd])).trans ((if_neg (by simp [hi, hl])).trans ((if_neg (by simp [hstw, hac])).trans ((if_neg ?_).trans ?_))))
    · exact fun h => h1 h.1
    · exact congrArg (·, good) (if_neg h1)
  case ringSet =>
    intro c s u ha hu hb h12 h20
    exact adminRun_success_of_body ha hu ((if_neg (by omega)).trans (if_neg (by omega)))
  case ringOff => exact fun c s u ha hu h0 => adminRun_success_of_body ha hu (if_pos h0)
  case historyStarts =>
    intro c part s u ha hu hf hp
    show execHistoryRead c part s = _
    unfold execHistoryRead
    rw [hf]
    exact adminRun_ends_of_body ha hu (if_neg (Nat.not_lt.2 hp))
  case historyGoes =>
    intro c part h s hf
    refine congrArg Host.Outcome.next ?_
    rw [hf]

/-! ### Checkpoints, the comparator, the cores and the boot (R358, R361, R363, R366 to R368, R371) -/

/-- Settles O44: each row's own branch, by the conditions that the statement gives. -/
theorem stewardCoresComplete : Obligations.StewardCoresComplete := by
  refine ⟨?checkpoint, ?miscompare, ?bothPass, ?leadPasses, ?shadowPasses, ?bothFail, ?spareAlone, ?spareJoins, ?spareSwaps, ?replayMatches, ?replayDiverges, ?released,
    ?replayed, ?wdog, fun s => rfl, ?rom, ?romFails, ?mainImage⟩
  case checkpoint =>
    intro early s hr hs he
    refine congrArg Host.Outcome.next (if_neg ?_)
    rintro (h | h | ⟨h, hl⟩)
    · simp [hr] at h
    · exact hs h
    · exact he.elim (by simp [h]) (Nat.not_le.2 hl)
  case miscompare => exact fun s hs => congrArg Host.Outcome.next (if_neg (by omega))
  case bothPass | leadPasses | shadowPasses =>
    intro v s hs hv
    subst hv
    exact congrArg Host.Outcome.next (if_neg (not_not_intro hs))
  case bothFail =>
    intro v s hs hv hp
    subst hv
    exact congrArg Host.Outcome.next ((if_neg (not_not_intro hs)).trans (if_neg (Nat.not_lt.2 hp)))
  case spareAlone =>
    intro v s hs hv hp
    subst hv
    exact congrArg Host.Outcome.next ((if_neg (not_not_intro hs)).trans (if_pos hp))
  case spareJoins =>
    intro ok v s hp hs hv
    subst hv
    exact congrArg Host.Outcome.next ((if_neg (Nat.not_le.2 hp)).trans (if_pos hs))
  case spareSwaps =>
    intro ok op core retire v s hp hs hv hw
    subst hv
    refine congrArg Host.Outcome.next ((if_neg (Nat.not_le.2 hp)).trans ((if_neg (by omega)).trans ((if_pos hs).trans ?_)))
    rw [hw]
  case replayMatches =>
    intro n s hn hs
    refine congrArg Host.Outcome.next ?_
    rw [hn]
    exact (if_neg (Nat.not_lt.2 hs)).trans (if_pos rfl)
  case replayDiverges =>
    intro n s hn hs
    refine congrArg Host.Outcome.next ?_
    rw [hn]
    exact (if_neg (Nat.not_lt.2 hs)).trans (if_neg (by decide))
  case released =>
    intro slot epoch kind addr data inputs s hs he hc hr
    exact congrArg Host.Outcome.next
      ((if_neg (Nat.not_le.2 hs)).trans ((if_neg (not_not_intro he)).trans ((if_neg hc).trans (if_neg (by simp [hr])))))
  case replayed =>
    intro slot epoch kind addr data inputs s hs he hc hr
    exact congrArg Host.Outcome.next ((if_neg (Nat.not_le.2 hs)).trans ((if_neg (not_not_intro he)).trans ((if_neg hc).trans (if_pos hr))))
  case wdog => exact fun req s hw => next_guarded hw rfl
  case rom =>
    intro ok0 ok1 s h15 hd hs hb hok
    exact congrArg Host.Outcome.next ((if_neg (by simp [h15, hd, hs, hb])).trans (if_pos hok))
  case romFails =>
    intro s h15 hd hs hb
    exact congrArg Host.Outcome.next ((if_neg (by simp [h15, hd, hs, hb])).trans (if_neg (by decide)))
  case mainImage =>
    intro okA okB recoveryOk bist version want s h15 hd hs h1 hb hw hok
    subst hw
    refine congrArg Host.Outcome.next ((if_neg (by simp [h15, hd, hs, h1])).trans ?_)
    simp only [hb, Bool.false_eq_true, if_false]
    exact if_pos hok

/-! ### The Attic's window, its sequences and fetches in place (R380, R382, R383, R386, R387) -/

/-- Settles O45: each row's own branch, by the conditions that the statement gives. -/
theorem atticComplete : Obligations.AtticComplete := by
  refine ⟨?cycleA, ?cycleB, ?command, ?follow, ?timeout, fun ok s => rfl, ?status, ?uncorrectable, ?read, ?deferEnds, ?buffered, ?branch, ?miss⟩
  case cycleA =>
    intro offset data s ho hd hc h0
    subst ho hd
    refine congrArg Host.Outcome.next ((if_neg (by decide)).trans ?_)
    dsimp only
    rw [hc]
    exact (if_pos h0).trans (if_pos ⟨rfl, rfl⟩)
  case cycleB =>
    intro offset data s ho hd hc h1 ht
    subst ho hd
    refine congrArg Host.Outcome.next ((if_neg (by decide)).trans ?_)
    dsimp only
    rw [hc]
    exact (if_neg (by omega)).trans ((if_neg (Nat.not_lt.2 ht)).trans ((if_pos h1).trans (if_pos ⟨rfl, rfl⟩)))
  case command =>
    intro offset data c s ho hd hc h2 ht
    subst ho hd
    refine congrArg Host.Outcome.next ((if_neg (by simp [cycleA])).trans ?_)
    dsimp only
    rw [hc]
    exact (if_neg (by omega)).trans ((if_neg (Nat.not_lt.2 ht)).trans ((if_neg (by omega)).trans (if_pos rfl)))
  case follow =>
    intro offset data c s ho hd hc
    refine congrArg Host.Outcome.next ((if_neg (not_or.2 ⟨Nat.not_le.2 ho, hd⟩)).trans ?_)
    dsimp only
    rw [hc]
  case timeout => exact fun s h0 => congrArg Host.Outcome.next (if_neg h0)
  case status =>
    intro offset len corrected v s ho hl hv hm
    subst hv
    exact congrArg Host.Outcome.next ((if_neg (not_or.2 ⟨Nat.not_le.2 ho, hl⟩)).trans (if_pos hm))
  case uncorrectable =>
    intro offset len corrected v s ho hl hv hm h8
    subst hv
    exact congrArg Host.Outcome.next ((if_neg (not_or.2 ⟨Nat.not_le.2 ho, hl⟩)).trans ((if_neg (ne_true_of_eq_false hm)).trans (if_pos h8)))
  case read =>
    intro offset len corrected v w s ho hl hv hm h8 hw
    subst hv hw
    exact congrArg Host.Outcome.next ((if_neg (not_or.2 ⟨Nat.not_le.2 ho, hl⟩)).trans ((if_neg (ne_true_of_eq_false hm)).trans (if_neg (Nat.not_lt.2 h8))))
  case deferEnds => exact fun s hp => congrArg Host.Outcome.next (if_neg (by simp [hp]))
  case buffered =>
    exact fun offset taken s ho hm hb => congrArg Host.Outcome.next ((if_neg (not_or.2 ⟨Nat.not_le.2 ho, ne_true_of_eq_false hm⟩)).trans (if_pos hb))
  case branch =>
    exact fun offset taken s ho hm hb ht => congrArg Host.Outcome.next ((if_neg (not_or.2 ⟨Nat.not_le.2 ho, ne_true_of_eq_false hm⟩)).trans ((if_neg hb).trans (if_pos ht)))
  case miss =>
    intro offset taken v s ho hm hb ht hv
    subst hv
    exact congrArg Host.Outcome.next ((if_neg (not_or.2 ⟨Nat.not_le.2 ho, ne_true_of_eq_false hm⟩)).trans ((if_neg hb).trans (if_neg ht)))

end Sys2Proof.Machine
end

section
/-!
PROOFS. The statements of power, clocks and resets, and of ageing: the sequencer; references and islands; the window, its measurements, slack and eyes; the commands of both.
-/

namespace Sys2Proof.Machine

/-! ### The power sequencer (R390, R393 to R400) -/

section
variable {s v : State} {rail : Nat}

/-- A rail lost in service clears its PG and signals: VBUS is a loss of power, the rails of the ports take those down, and any other brings the
package down (R398, logs 32 and 54). -/
theorem exec_railLost (hr : s.hasRail rail = true) (h15 : s.seqState = 15) (hd : s.seqDown = false) (hv : (s.setFld pSEQ 0x04C rail rail 0).seqFire 3 = v) :
    exec (.railLost rail) s =
      .next (if rail = 0 then (if v.powerLoss.phase = 1 then v.powerLoss.startFlush else v.powerLoss)
        else if rail = 7 ∨ rail = 8 ∨ rail = 13 then (v.portsOff (List.range' 0x40 12)).settleAll
        else ((v.recordFault 4 [rail]).setPhase 5).beginDown false) := by
  subst hv
  exact congrArg Host.Outcome.next (if_neg (by simp [hr, h15, hd]))

/-- The retry of a fault in state 0: another start while the retries last, else a lockout (R398). -/
theorem exec_faultRetry (h0 : s.seqState = 0) (hf : s.seqFaulted = true) (hv : s.setSeqBit 26 false = v) :
    exec .faultRetry s =
      .next (if v.num pSEQ 0x078 < v.fld pSEQ 0x040 27 24 then
          (({ v with seq.nextCause := 2, seq.afterFault := true }).setNum pSEQ 0x078 (v.num pSEQ 0x078 + 1)).setFaultN 2 false
        else (v.setSeqBit 25 true).seqFire 4) := by
  subst hv
  exact congrArg Host.Outcome.next (if_neg (by simp [h0, hf]))

end

/-- Settles O46: each row's own branch, by the conditions that the statement gives. -/
theorem powerSequenceCompletes : Obligations.PowerSequenceCompletes := by
  refine ⟨?coldStart, ?starts, ?riseFromZero, ?riseDown, ?riseFaulted, ?riseUp, ?stepHeld, ?stepFree, ?downRequest, ?pgLow, ?pgStable, ?seqInRise, ?seqInFall, ?lostVbus,
    ?lostPorts, ?lostOther, ?dischargeLate, ?stall, ?holdExpires, ?retries, ?retriesOut, ?cascDelay, ?cascDown, fun rail s => rfl, ?clocksLocked⟩
  case coldStart =>
    intro casc waiting v s hv
    subst hv
    rfl
  case starts =>
    intro s h0 hh hf hl hd ht hz hc
    refine congrArg Host.Outcome.next (if_neg ?_)
    rcases hc with hc | hc <;> simp [h0, hh, hf, hl, hd, ht, hz, hc]
  case riseFromZero => exact fun bifur ftm s hh h0 => congrArg Host.Outcome.next ((if_neg (by simp [hh])).trans (if_pos h0))
  case riseDown => exact fun bifur ftm s hh h0 hd => congrArg Host.Outcome.next ((if_neg (by simp [hh])).trans ((if_neg h0).trans (if_pos hd)))
  case riseFaulted =>
    exact fun bifur ftm s hh h0 hd h15 hf => congrArg Host.Outcome.next
      ((if_neg (by simp [hh])).trans ((if_neg h0).trans ((if_neg (by simp [hd])).trans ((if_neg (Nat.not_le.2 h15)).trans (if_pos hf)))))
  case riseUp =>
    exact fun bifur ftm s hh h0 hd h15 hf => congrArg Host.Outcome.next
      ((if_neg (by simp [hh])).trans ((if_neg h0).trans ((if_neg (by simp [hd])).trans ((if_neg (Nat.not_le.2 h15)).trans (if_neg (by simp [hf]))))))
  case stepHeld => exact fun s h0 h15 hd hf hh => congrArg Host.Outcome.next ((if_neg (by simp [h0, h15, hd, hf])).trans (if_pos hh))
  case stepFree => exact fun s h0 h15 hd hf hh => congrArg Host.Outcome.next ((if_neg (by simp [h0, h15, hd, hf])).trans (if_neg (by simp [hh])))
  case downRequest => exact fun s h15 hd => congrArg Host.Outcome.next (if_pos ⟨h15, hd⟩)
  case pgLow => exact fun rail s hr => congrArg Host.Outcome.next (if_neg (by simp [hr]))
  case pgStable =>
    intro rail v w s hr hb hv hd hf hl hs hw
    subst hv hw
    exact congrArg Host.Outcome.next ((if_neg (by simp [hr, hb])).trans (if_neg (by simpa [hd, hf, hl] using hs)))
  case seqInRise => exact fun s hb => congrArg Host.Outcome.next (if_neg (by simp [hb]))
  case seqInFall =>
    intro v s hb hv
    subst hv
    exact congrArg Host.Outcome.next (if_neg (by simp [hb]))
  case lostVbus => exact fun rail v s hr h15 hd hv h0 => (exec_railLost hr h15 hd hv).trans (congrArg Host.Outcome.next (if_pos h0))
  case lostPorts =>
    exact fun rail v s hr h15 hd hv hp => (exec_railLost hr h15 hd hv).trans (congrArg Host.Outcome.next ((if_neg (by omega)).trans (if_pos hp)))
  case lostOther =>
    exact fun rail v s hr h15 hd hv h0 hp => (exec_railLost hr h15 hd hv).trans (congrArg Host.Outcome.next ((if_neg h0).trans (if_neg hp)))
  case dischargeLate => exact fun rail s hd hl hn hb => congrArg Host.Outcome.next (if_neg (by simp [hd, hl, hn, hb]))
  case stall => exact fun s hd hh hl => congrArg Host.Outcome.next (if_neg (by simp [hd, hh, hl]))
  case holdExpires => exact fun s hf hd h0 hh => congrArg Host.Outcome.next (if_pos ⟨hf, hd, h0, hh⟩)
  case retries => exact fun v s h0 hf hv hn => (exec_faultRetry h0 hf hv).trans (congrArg Host.Outcome.next (if_pos hn))
  case retriesOut => exact fun v s h0 hf hv hn => (exec_faultRetry h0 hf hv).trans (congrArg Host.Outcome.next (if_neg (Nat.not_lt.2 hn)))
  case cascDelay => exact fun s h15 hd => congrArg Host.Outcome.next (if_pos ⟨h15, hd⟩)
  case cascDown => exact fun s h14 hd => congrArg Host.Outcome.next (if_pos ⟨h14, hd⟩)
  case clocksLocked => exact fun s h13 hd hf hh => congrArg Host.Outcome.next (if_pos ⟨h13, hd, hf, hh⟩)

/-! ### References, islands and the chip reset (R403, R405) -/

section
variable {s v : State}

/-- A reference that is lost counts and signals: the first leaves the islands in holdover, the second takes planes and ports down. -/
theorem exec_refclkLoss {ref : Nat} (hr : ref ≤ 2) (hb : bit (s.reg pHD 0x040) ref = true)
    (hv : ((s.setFld pHD 0x040 ref ref 0).bump pHD 0x044).fireLimited pHD 0 second ref = v) :
    exec (.refclkLoss ref) s =
      .next (if ref = 0 then v.setHoldover 1 (List.range 17)
        else if ref = 1 then ((v.planesDown (List.range v.planes)).portsDown [0, 1, 2, 3]).settleAll else v) := by
  subst hv
  exact congrArg Host.Outcome.next (if_neg (by simp [hr, hb]))

/-- A locked island that loses lock signals, and outside a power loss and a restore its pages are reset (log 33). -/
theorem exec_islandUnlock {k : Nat} (hk : k < 17) (h30 : bit (s.reg pHD (islandReg k + 4)) 30 = false) (h31 : bit (s.reg pHD (islandReg k + 4)) 31 = true)
    (hv : (s.setFld pHD (islandReg k + 4) 31 31 0).fire pHD 1 = v) :
    exec (.islandUnlock k) s = .next (if v.lossOrRestore then v else if k = 12 then v.requestChip 4 else v.resetList (islandPages k)) := by
  subst hv
  exact congrArg Host.Outcome.next (if_neg (by simp [hk, h30, h31]))

end

/-- Settles O47: each row's own branch, by the conditions that the statement gives. -/
theorem clocksAndChipResetComplete : Obligations.ClocksAndChipResetComplete := by
  refine ⟨?lostFirst, ?lostSecond, ?lostThird, ?returned, ?unlockChip, ?unlockPages, ?unlockInLoss, ?chipReset⟩
  case lostFirst => exact fun ref v s hr hb hv h0 => (exec_refclkLoss hr hb hv).trans (congrArg Host.Outcome.next (if_pos h0))
  case lostSecond => exact fun ref v s hr hb hv h1 => (exec_refclkLoss hr hb hv).trans (congrArg Host.Outcome.next ((if_neg (by omega)).trans (if_pos h1)))
  case lostThird =>
    exact fun ref v s hr hb hv h2 => (exec_refclkLoss hr hb hv).trans (congrArg Host.Outcome.next ((if_neg (by omega)).trans (if_neg (by omega))))
  case returned => exact fun ref s hr h15 => congrArg Host.Outcome.next (if_neg (by omega))
  case unlockChip =>
    exact fun k v s hk h30 h31 hv hl h12 => (exec_islandUnlock hk h30 h31 hv).trans (congrArg Host.Outcome.next ((if_neg (by simp [hl])).trans (if_pos h12)))
  case unlockPages =>
    exact fun k v s hk h30 h31 hv hl h12 => (exec_islandUnlock hk h30 h31 hv).trans (congrArg Host.Outcome.next ((if_neg (by simp [hl])).trans (if_neg h12)))
  case unlockInLoss => exact fun k v s hk h30 h31 hv hl => (exec_islandUnlock hk h30 h31 hv).trans (congrArg Host.Outcome.next (if_pos hl))
  case chipReset =>
    intro d s hd hp h15 hq
    refine congrArg Host.Outcome.next ?_
    rw [hd]
    exact if_neg (by simp [hp, h15, hq])

/-! ### HISTORY_CLEAR, the samplers and the ageing commands (R423, R424, R457, R472, R476) -/

section
variable {c : AdminCmd} {s u : State}

/-- AGEING_RUN of a measurement that takes time, where none of its parts runs: the bank's begins where it may, and the probes' where every region may be probed. -/
theorem exec_ageingRun_of_timed (ha : s.admits 0x65 c = true) (hu : s.begun 0x65 c = u) (hm : c.p0 = 1 ∨ c.p0 = 2 ∨ c.p0 = 4) (hl : u.lossOrRestore = false)
    (hr : ((u.runCodes c.p0).any fun x => decide (x ∈ u.age.running)) = false) :
    exec (.ageingRun c) s = s.ends 0x65 c
      (if c.p0 = 1 then (if u.bankFit then (u.startBank (s.opOf 0x65 c), none) else (u, bad stBUSY_RETRY 1800000000))
        else if ((List.range u.regions).all u.probeable) = false then (u, bad stBUSY_RETRY 1800000000)
        else (({ u with age.due := (u.runCodes c.p0).foldl (fun l x => insertSorted x l) u.age.due, age.runs := u.age.runs ++ [((s.opOf 0x65 c), c.p0, u.runCodes c.p0)] }.tryCodes
          (u.runCodes c.p0), none))) :=
  adminRun_ends_of_body ha hu ((if_neg (by omega)).trans ((if_neg (ne_true_of_eq_false hl)).trans ((if_neg (by omega)).trans (if_neg (ne_true_of_eq_false hr)))))

end

/-- Settles O32: each command's body in the state it begins in, past its own checks by the conditions that the statement gives. -/
theorem historySamplingAndAgeingCommandsComplete : Obligations.HistorySamplingAndAgeingCommandsComplete := by
  refine ⟨?historyClear, ?samplerRequest, ?samplerInstruction, ?planRead, ?runPlanned, ?runBank, ?runProbes⟩
  case historyClear => exact fun c s u ha hu hr hp hs => adminRun_success_of_body ha hu (if_neg (by simp [hr, hp, hs]))
  case samplerRequest =>
    exact fun c s u ha hu h8 => (congrArg Host.Outcome.next (if_neg (by omega))).trans (adminRun_ends_of_body ha hu (if_neg (by omega)))
  case samplerInstruction =>
    exact fun c s u ha hu h8 => (congrArg Host.Outcome.next (if_neg (not_not_intro h8))).trans (adminRun_ends_of_body ha hu rfl)
  case planRead => exact fun c s u ha hu h4096 hl => adminRun_success_of_body ha hu (if_neg (not_or.2 ⟨Nat.not_lt.2 h4096, Nat.not_lt.2 hl⟩))
  case runPlanned =>
    exact fun c s u ha hu hm hl => adminRun_success_of_body ha hu ((if_neg (by omega)).trans ((if_neg (ne_true_of_eq_false hl)).trans (if_pos hm)))
  case runBank =>
    intro c s u ha hu h1 hl hr hb
    rw [exec_ageingRun_of_timed ha hu (.inl h1) hl (by rw [h1, hr]), if_pos h1, if_pos hb]
  case runProbes =>
    intro c s u ha hu hm hl hr hp
    rw [exec_ageingRun_of_timed ha hu (.inr hm) hl hr, if_neg (by omega), if_neg (ne_false_of_eq_true hp)]

/-! ### The ageing window, its measurements, slack and eyes (R409, R410, R413, R414, R417, R419 to R421) -/

/-- Settles O48: each row's own branch, by the conditions that the statement gives. -/
theorem ageingCompletes : Obligations.AgeingCompletes := by
  refine ⟨?opens, fun s => rfl, ?bankDone, ?bankAbort, ?retryProbe, ?senseProbe, ?closes, ?slack, ?eyeKept, ?eyeLow, ?retrained⟩
  case opens => exact fun s hw => congrArg Host.Outcome.next (if_neg (by simp [hw]))
  case bankDone =>
    intro drop step charge vint energy rehearsal times b s hb
    refine congrArg Host.Outcome.next ?_
    rw [hb]
  case bankAbort =>
    intro b s hb
    refine congrArg Host.Outcome.next ?_
    rw [hb]
  case retryProbe =>
    intro region counts slow v s hr ha hv
    subst hv
    exact congrArg Host.Outcome.next (if_neg (not_or.2 ⟨Nat.not_le.2 hr, not_not_intro ha⟩))
  case senseProbe =>
    intro channel margin v s hc ha hv
    subst hv
    exact congrArg Host.Outcome.next (if_neg (not_or.2 ⟨Nat.not_le.2 hc, not_not_intro ha⟩))
  case closes => exact fun s hw => congrArg Host.Outcome.next (if_neg (by simp [hw]))
  case slack =>
    intro island slack least s hi hl hm
    subst hm
    exact congrArg Host.Outcome.next (if_neg (by simp [hi, hl]))
  case eyeKept =>
    intro page lane height width v s hr hl hv hk
    subst hv
    exact congrArg Host.Outcome.next ((if_neg (by simp [hr, hl])).trans (if_pos hk))
  case eyeLow =>
    intro page lane height width v s hr hl hv hk
    subst hv
    exact congrArg Host.Outcome.next ((if_neg (by simp [hr, hl])).trans (if_neg hk))
  case retrained =>
    intro page lane height width v s hl hv
    subst hv
    exact congrArg Host.Outcome.next (if_neg (not_not_intro hl))

end Sys2Proof.Machine
end

section
/-!
PROOFS. The statements of faults, of the real-time clock, the History Recorder and Tally, and of the performance counters.
-/

namespace Sys2Proof.Machine

/-! ### Firings, their grace, the real-time clock and the History Recorder (R432 to R456) -/

/-- GO of the RTC: a valid clock that is off by no more than a second is slewed, and any other set to the value (R446). -/
theorem exec_rtcSetGo {req : Requester} {data : Word} {n : Nat} {s v : State} (hw : s.writable req pRTC = true) (hv : s.writeFields pRTC 0x04C data = v) (hb : bit data 31 = true)
    (hn : (v.num pRTC 0x048 + 2 ^ 32 * bits data 7 0) * 1024 + bits data 25 16 = n) :
    exec (.rtcSetGo req data) s =
      .next (if v.clock.valid = true ∧ (Int.ofNat n - Int.ofNat v.rtc).natAbs ≤ 1024 then v.anchorRtc v.rtc (Int.ofNat n - Int.ofNat v.rtc)
        else (((({ v with clock.valid := true }).anchorRtc n 0).setNum pRTC 0x050 ((v.num pRTC 0x050 + 1) % 2 ^ 32)).noteStep).fire pRTC 0) := by
  subst hv hn
  exact next_guarded hw (if_neg (by simp [hb]))

/-- Settles O49: each row's own branch, by the conditions that the statement gives. -/
theorem faultsAndHistoryComplete : Obligations.FaultsAndHistoryComplete := by
  refine ⟨?arrives, ?graceSteps, ?graceOver, ?acknowledged, ?strayAck, ?classCfg, ?faultNClr, ?injectRefused, ?injected, ?rtcSlews, ?rtcSteps, ?slewDone, ?oscFails, fun s => rfl,
    ?summary, ?pageProgram, fun junction slack s => rfl, ?headFound, ?headEmpty, ?eraseDeferred⟩
  case arrives =>
    intro page src sev l v s hr hv
    subst hv
    refine congrArg Host.Outcome.next ?_
    rw [hr]
  case graceSteps =>
    intro ty src page sev s ht hp hs
    refine congrArg Host.Outcome.next ?_
    dsimp only
    rw [ht]
    exact if_neg (by simp [hp, hs])
  case graceOver =>
    intro ty src page sev s ht h
    refine congrArg Host.Outcome.next ?_
    dsimp only
    rw [ht]
    exact if_pos h
  case acknowledged => exact fun req data s hw hp => next_guarded hw (if_pos hp)
  case strayAck => exact fun req data s hw hp => next_guarded hw (if_neg (ne_true_of_eq_false hp))
  case classCfg =>
    intro req data ty src s hw ht hs hd
    subst ht hs
    exact next_guarded hw (if_neg (ne_false_of_eq_true hd))
  case faultNClr => exact fun req data s hw h0 hc => next_guarded hw (if_neg (not_or.2 ⟨by simp [h0], ne_true_of_eq_false hc⟩))
  case injectRefused => exact fun req data s hw hk => next_guarded hw (if_pos hk)
  case injected =>
    intro req data f s hw hk hp ha hf
    subst hf
    refine next_guarded hw ((if_neg (not_not_intro hk)).trans (if_neg (not_or.2 ⟨?_, ne_true_of_eq_false ha⟩)))
    simpa [Option.isSome_iff_ne_none] using hp
  case rtcSlews =>
    exact fun req data v n s hw hv hb hn h => (exec_rtcSetGo hw hv hb hn).trans (congrArg Host.Outcome.next (if_pos h))
  case rtcSteps =>
    exact fun req data v n s hw hv hb hn h => (exec_rtcSetGo hw hv hb hn).trans (congrArg Host.Outcome.next (if_neg h))
  case slewDone => exact fun s h => congrArg Host.Outcome.next (if_neg h)
  case oscFails => exact fun s ho => congrArg Host.Outcome.next (if_neg (ne_true_of_eq_false ho))
  case summary =>
    intro seconds v s hb h40 hl hv
    subst hv
    exact congrArg Host.Outcome.next ((if_neg (not_or.2 ⟨ne_false_of_eq_true hb, Nat.not_le.2 h40⟩)).trans (if_neg (Nat.not_le.2 hl)))
  case pageProgram => exact fun s hq hp hs ho => congrArg Host.Outcome.next (if_neg (by simp [hq, hp, hs, ho]))
  case headFound =>
    intro p l v s hs hv hl
    subst hv
    refine congrArg Host.Outcome.next ((if_neg (ne_true_of_eq_false hs)).trans ?_)
    dsimp only
    rw [hl]
  case headEmpty =>
    intro v s hs hv hl
    subst hv
    refine congrArg Host.Outcome.next ((if_neg (ne_true_of_eq_false hs)).trans ?_)
    dsimp only
    rw [hl]
  case eraseDeferred =>
    intro i s hi
    refine congrArg Host.Outcome.next ?_
    rw [hi]

/-! ### Tally, the performance counters and the samplers (R459, R461, R463, R464, R466, R467, R474, R475) -/

section
variable {s : State} {page n : Nat}

/-- A read of a counter's low half answers what it shows and keeps the high half: its value, or a free one where it counts time (log 26). -/
theorem exec_counterValueLoRead (hn : n < 16) (hp : (pageType page).isSome = true) (ha : s.absent page = false) :
    exec (.counterValueLoRead page n) s =
      .next (if bit (s.counter page n).sel 31 = true ∧ s.counting page = true ∧ timed ((pageType page).getD 0xFF) (bits (s.counter page n).sel 7 0) = true then
          (s.fresh.2.setCounter page n { s.counter page n with value := s.fresh.1.toNat % 2 ^ 48, hi := s.fresh.1.toNat % 2 ^ 48 / 2 ^ 32 }).emit
            (.readData (s.fresh.1.toNat % 2 ^ 48 % 2 ^ 32))
        else (s.setCounter page n { s.counter page n with hi := (s.counter page n).value / 2 ^ 32 }).emit (.readData ((s.counter page n).value % 2 ^ 32))) := by
  have there : ¬ (16 ≤ n ∨ (pageType page).isNone = true ∨ s.absent page = true) :=
    not_or.2 ⟨Nat.not_le.2 hn, not_or.2 ⟨by simpa [Option.isSome_iff_ne_none] using hp, ne_true_of_eq_false ha⟩⟩
  refine congrArg Host.Outcome.next ((if_neg there).trans ?_)
  dsimp only
  split <;> rfl

end

/-- Settles O50: each row's own branch, by the conditions that the statement gives. -/
theorem tallyAndCountersComplete : Obligations.TallyAndCountersComplete := by
  refine ⟨?minute, ?closeStarts, fun s => rfl, ?delivery, ?headWrite, ?probe, ?selectSame, ?selectNew, ?clear, ?overflow, ?read, ?readTime, ?tooFast, ?request, ?instruction,
    ?pop⟩
  case minute =>
    intro seconds v s hm h40 hv hl
    subst hv
    exact congrArg Host.Outcome.next ((if_neg (by omega)).trans (if_neg (Nat.not_le.2 hl)))
  case closeStarts =>
    intro sec cs ts s hf ht hr
    subst ht
    refine congrArg Host.Outcome.next ?_
    rw [hf]
    exact if_neg (Nat.not_lt.2 hr)
  case delivery =>
    intro fn s ho hf hs
    exact congrArg Host.Outcome.next (if_neg (not_or.2 ⟨ne_false_of_eq_true ho, not_or.2 ⟨ne_true_of_eq_false hf, ne_false_of_eq_true hs⟩⟩))
  case headWrite =>
    intro req data fn s hw hf ho hv
    subst hf
    exact next_guarded hw (if_neg (not_or.2 ⟨ne_false_of_eq_true ho, Nat.not_le.2 hv⟩))
  case probe => exact fun req data s hw hv => next_guarded hw (if_neg (ne_true_of_eq_false hv))
  case selectSame => exact fun req page n data s hn hw h => (congrArg Host.Outcome.next (if_neg (Nat.not_le.2 hn))).trans (next_guarded hw (if_pos h))
  case selectNew => exact fun req page n data s hn hw h => (congrArg Host.Outcome.next (if_neg (Nat.not_le.2 hn))).trans (next_guarded hw (if_neg h))
  case clear => exact fun req page n data s hn hw h => (congrArg Host.Outcome.next (if_neg (Nat.not_le.2 hn))).trans (next_guarded hw (if_pos h))
  case overflow => exact fun req page n data s hn hw h => (congrArg Host.Outcome.next (if_neg (Nat.not_le.2 hn))).trans (next_guarded hw (if_pos h))
  case read => exact fun page n s hn hp ha h => (exec_counterValueLoRead hn hp ha).trans (congrArg Host.Outcome.next (if_neg h))
  case readTime => exact fun page n s hn hp ha h => (exec_counterValueLoRead hn hp ha).trans (congrArg Host.Outcome.next (if_pos h))
  case tooFast =>
    intro sampler arrival outcome syndrome flags dpa ingress memory mirror tail t o s hf h8 ht hl
    subst ht
    refine congrArg Host.Outcome.next ?_
    dsimp only
    rw [hf]
    exact (if_neg (Nat.not_le.2 h8)).trans (if_pos hl)
  case request =>
    intro sampler arrival outcome syndrome flags dpa ingress memory mirror tail t o s hf h8 ht hl
    subst ht
    refine congrArg Host.Outcome.next ?_
    dsimp only
    rw [hf]
    exact (if_neg (Nat.not_le.2 h8)).trans (if_neg (Nat.not_lt.2 hl))
  case instruction =>
    intro sampler pc insn flags core latency s h8 he hp hs hr
    exact congrArg Host.Outcome.next (if_neg (by simp [h8, he, hp, hs, hr]))
  case pop => exact fun sampler s h8 => congrArg Host.Outcome.next (if_neg (Nat.not_lt.2 h8))

end Sys2Proof.Machine
end
